-- ==== Sys2Proof/Word.lean ====
section
/-! DEFINITION. Bytes and the plainest arithmetic on them (spec 00, R5, R6). -/

namespace Sys2Proof

/-- One byte. -/
abbrev Byte := BitVec 8

/-- A run of bytes, byte 0 at the lowest address (R5). -/
abbrev Bytes := List Byte

/-- A byte from a number, modulo 256. -/
abbrev byte (n : Nat) : Byte := BitVec.ofNat 8 n

end Sys2Proof
end

