-- ==== Sys2Proof/Syntax.lean ====
section
/-! DEFINITION. The commands: one constructor for each row of spec/opcode_table.json, in the table's order.
A descriptor row carries the queue, the 64 descriptor bytes and the bytes the device reads through SRC.
Every other row carries the instant t of the event (log entry 1) and what the outside world presents. -/

namespace Sys2Proof

/-- A submission queue: function number (R98) and ring number within the function (R120). -/
structure QRef where
  fn   : Nat
  ring : Nat
deriving DecidableEq, Repr

/-- A 64-byte descriptor, as read from host memory (R13). -/
structure Desc where
  bytes : Bytes
deriving DecidableEq, Repr

/-- A descriptor at the head of a queue with what the device reads for it: the fragment table when INDIRECT = 1,
the source bytes, whether a source or fragment-table read fails (R119), the instant of the take and admission
and the instant at which the last source byte arrives (R170). -/
structure Sub where
  q       : QRef
  d       : Desc
  frags   : Bytes
  src     : Bytes
  srcFail : Bool
  t       : Nat
  tSrc    : Nat
deriving DecidableEq, Repr

/-- The health test that a bow failed (R224). -/
inductive BowTest where
  | repetition | adaptive | bias | biasWarning | startup
deriving DecidableEq, Repr

/-- The two MCTP bindings of R425. -/
inductive Binding where
  | smbus | vdm
deriving DecidableEq, Repr

/-- The kind of a bus access (R414). -/
inductive AccessKind where
  | read | write | exec
deriving DecidableEq, Repr

/-- One transfer presented to an access check unit (R413 to R415). `world` is the tag: 0 hypervisor, 1 key, 2 service, 3 none;
`stage2` says that the manifest's second stage refuses its first beat; `job` is the job whose transfer a DMA engine makes. -/
structure Access where
  master    : Nat
  world     : Nat
  addr      : Nat
  len       : Nat
  kind      : AccessKind
  cacheable : Bool
  ordered   : Bool
  stage2    : Bool
  job       : Option Nat := none
deriving DecidableEq, Repr

/-- A place in BAR0 of a function. -/
structure BarPlace where
  fn  : Nat
  off : Nat
deriving DecidableEq, Repr

/-- How a read of host memory fails: no completion in time, Unsupported Request or Completer Abort, or poisoned data (R119). -/
inductive ReadError where
  | timeout | refused | poisoned
deriving DecidableEq, Repr

/-- What a read of protected memory meets: the number of wrong bits, and the address for which the word that came back was stored (R31). -/
structure ReadWord where
  errors : Nat
  stored : Nat
deriving DecidableEq, Repr

/-- Bus Master Enable and Memory Space Enable, as a write of a function's Command register gives them (R118). -/
structure CommandBits where
  bme : Bool
  mse : Bool
deriving DecidableEq, Repr

/-- NumVFs, and whether the System Page Size is 64 KiB, at the moment VF Enable is set (R94, R104). -/
structure SriovSetup where
  numVfs : Nat
  page64 : Bool
deriving DecidableEq, Repr

/-- The tenant whose host root is overdue, and whether the journal pages that the Crown then reads verify (R213, R216). -/
structure HostDeadline where
  tenant : Nat
  ok     : Bool
deriving DecidableEq, Repr

/-- The commands of the block. -/
inductive Instr where
  /-- NOP (R40): The Crown dispatcher completes a NOP at the take with OK and DIE 0; it places the job on no die. -/
  | nop (x : Sub)
  /-- INVALID_OPCODE (R12): A descriptor arrives with an opcode that is undefined or not accepted on that kind of queue; it completes with INPUT_INVALID and INFO 0xFF. -/
  | invalidOpcode (x : Sub)
  /-- SEAL (R165): Seals a record: builds the canonical header, MACs it, forms the leaf hash, appends the leaf and writes the tag or receipt. -/
  | seal (x : Sub)
  /-- SEAL_DIGEST (R165): Seals a host-supplied digest of a record in place of the record, and appends a leaf. -/
  | sealDigest (x : Sub)
  /-- VERIFY_SEAL (R172): Recomputes a seal's tag and LEAF from a header and a record or digest, and reports whether the tag matches. -/
  | verifySeal (x : Sub)
  /-- MAC (R173): Generates or verifies a keyed check value over arbitrary data, with no header and no leaf. -/
  | mac (x : Sub)
  /-- DRAW (R240): An immediate or scheduled lottery draw, run in hardware mode or host-assisted mode. -/
  | draw (x : Sub)
  /-- SHUFFLE (R240): An immediate or scheduled shuffle of n elements. -/
  | shuffle (x : Sub)
  /-- RANDOM (R236): Writes DRBG output from the function's instance to DST, with or without prediction resistance. -/
  | random (x : Sub)
  /-- SIGN (R267): Signs a message or a host-supplied representative with a wide SIGN key on a Reckoner lane. -/
  | sign (x : Sub)
  /-- VERIFY (R270): Verifies a signature under a public key given in SRC or held in a slot. -/
  | verify (x : Sub)
  /-- ECDH (R272): Computes an ECDH shared secret from an ECDH key and a peer point. -/
  | ecdh (x : Sub)
  /-- LEDGER_PROOF (R206): Returns an inclusion proof for one leaf of the tenant's ledger, waiting until the leaf's root record is final. -/
  | ledgerProof (x : Sub)
  /-- STAMP (R84): Writes the admission Stamp, or a signed 128-byte time token, to DST. -/
  | stamp (x : Sub)
  /-- KEY_DERIVE (R303): Creates a key derived from the tenant root; fenced. -/
  | keyDerive (x : Sub)
  /-- KEY_GENERATE (R303): Creates a key from KEYGEN output; fenced. -/
  | keyGenerate (x : Sub)
  /-- KEY_IMPORT (R303): Imports wrapped key material, or a public-only key; fenced. -/
  | keyImport (x : Sub)
  /-- KEY_EXPORT (R308): Writes an exportable key wrapped under a WRAP key to DST; needs a Key Custodian quorum. -/
  | keyExport (x : Sub)
  /-- KEY_ROTATE (R306): Gives a current slot new material, with its generation advanced at T. -/
  | keyRotate (x : Sub)
  /-- KEY_DESTROY (R307): Destroys a slot, every slot of the tenant or every slot of the package, either at T or at once. -/
  | keyDestroy (x : Sub)
  /-- KEY_INFO (R308): Writes the attribute records of one slot or of a range of slots. -/
  | keyInfo (x : Sub)
  /-- KEY_PUBLIC (R308): Writes the public half of a current wide key. -/
  | keyPublic (x : Sub)
  /-- KEY_AGREE (R303): Creates a narrow key from an ECDH agreement; fenced. -/
  | keyAgree (x : Sub)
  /-- KEY_COMPONENT (R303): Creates a narrow key from the custodian components collected in the session; fenced. -/
  | keyComponent (x : Sub)
  /-- TENANT_RETIRE (R318): Closes a tenant's ledger at T, then erases its keys and salt and returns its grants to the pool. -/
  | tenantRetire (x : Sub)
  /-- KEY_PACKAGE_INIT (R317): Generates the package root and a new LK, burns W_d on every die, draws SALT_0 and rewrites the image. -/
  | keyPackageInit (x : Sub)
  /-- QUORUM_OPEN (R312): Starts a quorum session for a role; it completes when M cards have been accepted. -/
  | quorumOpen (x : Sub)
  /-- QUORUM_STATUS (R312): Writes the state of the quorum session of each role. -/
  | quorumStatus (x : Sub)
  /-- QUORUM_CANCEL (R312): Cancels the session of a role; its QUORUM_OPEN completes with ABORTED. -/
  | quorumCancel (x : Sub)
  /-- ROLE_SET (R311): Enrols a card in a role roster, removes a card, or sets the role's M. -/
  | roleSet (x : Sub)
  /-- EPC_BEACON (R61): Verifies a Pyrbo beacon and labels the nearest counter rollover with its TAI second. -/
  | epcBeacon (x : Sub)
  /-- EPC_QUERY (R86): Writes the function's Stamp and the time state to DST. -/
  | epcQuery (x : Sub)
  /-- GAME_CLOSE_SET (R82): Sets, moves earlier, reopens or retires a game's close entry; fenced. -/
  | gameCloseSet (x : Sub)
  /-- GAME_CLOSE_READ (R83): Writes the tenant's CURRENT close table to DST. -/
  | gameCloseRead (x : Sub)
  /-- EPC_CONFIGURE (R87): Sets the trust and beacon parameters; fenced, but applied at once before acquisition. -/
  | epcConfigure (x : Sub)
  /-- EPC_EPOCH_SETUP (R88): Sets ORIGIN, K and the PPS polarity, and programs them into OTP in PROVISION. -/
  | epcEpochSetup (x : Sub)
  /-- EPC_AUTHORITY_SET (R316): Installs or removes a Pyrbo authority key at T; needs a Regulator quorum. -/
  | epcAuthoritySet (x : Sub)
  /-- KEY_MIGRATE (R291): Writes a second blob set under the tenant roots that a staged key-world image will give. -/
  | keyMigrate (x : Sub)
  /-- DRAW_QUERY (R252): Returns a draw's state, record and outcome, and can wait until the draw is resolved. -/
  | drawQuery (x : Sub)
  /-- DRAW_MAP (R251): Checks a host mapping of released words and records the result leaf or a void leaf. -/
  | drawMap (x : Sub)
  /-- RNG_RESEED_SET (R233): Sets the period of the scheduled reseed rounds; fenced. -/
  | rngReseedSet (x : Sub)
  /-- FW_QUERY (R436): Writes the bank states and SVNs of each firmware component. -/
  | fwQuery (x : Sub)
  /-- FW_ACTIVATE (R437): Selects staged firmware banks for the next package reset. -/
  | fwActivate (x : Sub)
  /-- CNT_CONFIGURE (R441): Sets a counter's event, filter and threshold at a fence. -/
  | cntConfigure (x : Sub)
  /-- CNT_SNAPSHOT_SET (R443): Schedules periodic counter snapshots to a host area; fenced. -/
  | cntSnapshotSet (x : Sub)
  /-- CNT_READ (R442): Latches the counters of the named dies and writes one block for each die. -/
  | cntRead (x : Sub)
  /-- CNT_SAMPLE_CONFIGURE (R444): Configures precise sampling of jobs or of firmware; fenced. -/
  | cntSampleConfigure (x : Sub)
  /-- CNT_SAMPLE_READ (R446): Moves or copies sampling records of a die to DST. -/
  | cntSampleRead (x : Sub)
  /-- LDG_RING_CREATE (R201): Creates a tenant-scope or package-scope ledger ring, optionally replaying retained records. -/
  | ldgRingCreate (x : Sub)
  /-- LDG_RING_DESTROY (R201): Destroys a ledger ring once no further write to it will be made. -/
  | ldgRingDestroy (x : Sub)
  /-- LDG_CONFIGURE (R197): Sets a ledger's signing key, batch length and deadline; fenced. -/
  | ldgConfigure (x : Sub)
  /-- LDG_READ (R205): Copies journal entries or root-store records to DST. -/
  | ldgRead (x : Sub)
  /-- LDG_ROOT_SUBMIT (R211): Accepts a host-built root for an epoch and draws the leaves to be spot-checked. -/
  | ldgRootSubmit (x : Sub)
  /-- LDG_ROOT_PROVE (R212): Checks the host's paths for the challenged leaves, and makes the ROOT record final when the last one passes. -/
  | ldgRootProve (x : Sub)
  /-- LDG_QUIESCE (R218): Stops appends and writes a CLEAN checkpoint, or resumes appends. -/
  | ldgQuiesce (x : Sub)
  /-- TMP_CONFIGURE (R393): Sets a monitor's response class, and the enable and polarity of a TAMP input; fenced. -/
  | tmpConfigure (x : Sub)
  /-- TMP_MONITOR_TEST (R392): Starts built-in tests of monitors on demand. -/
  | tmpMonitorTest (x : Sub)
  /-- TMP_LOG_READ (R399): Writes tamper-log or lining-log entries to DST and checks the log links. -/
  | tmpLogRead (x : Sub)
  /-- TMP_EVENT_READ (R400): Writes event-recorder records to DST with their MAC status. -/
  | tmpEventRead (x : Sub)
  /-- TMP_UNLOCK (R395): Leaves LOCK under dual control, repairing LK and the image when they were lost. -/
  | tmpUnlock (x : Sub)
  /-- PKE_CURVE_LOAD (R264): Checks a curve block and stages it into a tenant curve table; fenced. -/
  | pkeCurveLoad (x : Sub)
  /-- PKE_CURVE_UNLOAD (R265): Unloads a tenant curve table at T. -/
  | pkeCurveUnload (x : Sub)
  /-- PKE_CURVE_READ (R265): Writes the curve block in force and reports any pending change. -/
  | pkeCurveRead (x : Sub)
  /-- PWR_RETAIN (R462): Checks quiescence and requests entry into RETAIN. -/
  | pwrRetain (x : Sub)
  /-- PWR_RESET (R469): Requests a package reset, optionally without a CLEAN checkpoint. -/
  | pwrReset (x : Sub)
  /-- LCS_TRANSITION (R355): Checks and runs a life-cycle transition, or the repeat of an interrupted one in INVALID. -/
  | lcsTransition (x : Sub)
  /-- LCS_TOKEN_SET (R353): Programs a token digest slot in OTP. -/
  | lcsTokenSet (x : Sub)
  /-- LCS_RETURN_UNLOCK (R363): Sets UNLOCK_PENDING so that the next start-up in RETURN runs unlocked. -/
  | lcsReturnUnlock (x : Sub)
  /-- DBG_CHALLENGE (R365): Issues a debug authorisation challenge. -/
  | dbgChallenge (x : Sub)
  /-- DBG_GRANT (R367): Checks a signed grant response and opens the debug enables it names. -/
  | dbgGrant (x : Sub)
  /-- DBG_REVOKE (R369): Closes every granted debug enable. -/
  | dbgRevoke (x : Sub)
  /-- INSTANCE_CREATE (R104): Binds a VF to a tenant and takes its grants from the pool. -/
  | instanceCreate (x : Sub)
  /-- INSTANCE_DESTROY (R106): Resets a VF instance and removes it. -/
  | instanceDestroy (x : Sub)
  /-- INSTANCE_RESET (R112): Performs an instance reset of a VF. -/
  | instanceReset (x : Sub)
  /-- INSTANCE_SHARE (R109): Changes ring weights and bursts, or instance shares, at a fence. -/
  | instanceShare (x : Sub)
  /-- SPLIT_SET (R111): Sets a function's split policy at a fence. -/
  | splitSet (x : Sub)
  /-- INSTANCE_QUERY (R107): Writes an instance's grants and usage. -/
  | instanceQuery (x : Sub)
  /-- TENANT_GRANT (R108): Changes a tenant's grants at once. -/
  | tenantGrant (x : Sub)
  /-- RING_CREATE (R146): Creates a work ring. -/
  | ringCreate (x : Sub)
  /-- RING_DESTROY (R146): Destroys a work ring and returns its weight to the budget. -/
  | ringDestroy (x : Sub)
  /-- CQ_CREATE (R146): Creates a completion ring and writes its index block once. -/
  | cqCreate (x : Sub)
  /-- CQ_DESTROY (R146): Destroys a completion ring. -/
  | cqDestroy (x : Sub)
  /-- SQ_CREATE (R146): Creates a service queue. -/
  | sqCreate (x : Sub)
  /-- SQ_DESTROY (R146): Destroys a service queue. -/
  | sqDestroy (x : Sub)
  /-- RING_DOORBELL (R125): A doorbell write moves TAIL, releases an invalidation hold, or stops the queue. -/
  | ringDoorbell (t : Nat) (q : QRef) (tail : Nat)
  /-- RING_INVALIDATE (R134): Discards prefetched copies from FROM onwards and places an invalidation hold. -/
  | ringInvalidate (t : Nat) (q : QRef) (from_ : Nat)
  /-- RING_ENABLE (R148): ENABLE = 1 moves an idle DISABLED queue to RUNNING. -/
  | ringEnable (t : Nat) (q : QRef)
  /-- RING_DISABLE (R149): ENABLE = 0 stops takes and squashes unadmitted jobs, or withdraws the untaken entries of a STOPPED queue. -/
  | ringDisable (t : Nat) (q : QRef)
  /-- RING_CQ_HEAD (R153): Software writes its consumer index, freeing completion places, or the write is refused with BAD_HEAD. -/
  | ringCqHead (t : Nat) (fn c head : Nat)
  /-- RING_CQ_MOD (R157): A write of the moderation COUNT and timer, which may send a message at once. -/
  | ringCqMod (t : Nat) (fn c value : Nat)
  /-- RING_POLL_WRITE (R143): A write of a die's poll interval, which is sent to that die as a control flit. -/
  | ringPollWrite (t : Nat) (die value : Nat)
  /-- PF_ADMIN_CONFIG_WRITE (R147): A write of the PF admin-ring registers, which also resets the admin indices. -/
  | pfAdminConfigWrite (t : Nat) (off len value : Nat)
  /-- LDG_JS_ENABLE (R221): ENABLE = 1 starts the journal store, or is refused and sets JS_BAD. -/
  | ldgJsEnable (t : Nat) (value : Nat)
  /-- PWR_WAKE (R464): A write of WAKE in RETAIN wakes the package. -/
  | pwrWake (t : Nat) (value : Nat)
  /-- REGISTER_WRITE (R477): A write to a set-up register that has no row of its own: it applies, clears W1C bits, or is discarded and recorded. -/
  | registerWrite (t : Nat) (fn off len value : Nat)
  /-- PAIR_LATCH_READ (R476): A read that includes the _LO word of a register pair latches the whole 64-bit value. -/
  | pairLatchRead (t : Nat) (p : BarPlace) (len : Nat)
  /-- DESCRIPTOR_ARRIVAL (R133): Descriptor read data arrives from host memory and fills the prefetch copies. -/
  | descriptorArrival (t : Nat) (q : QRef) (first : Nat) (ds : List Desc)
  /-- DESCRIPTOR_FETCH_FAIL (R128): A failed descriptor read stops the queue with a fetch-failure completion. -/
  | descriptorFetchFail (t : Nat) (q : QRef) (idx : Nat) (err : ReadError)
  /-- DESCRIPTOR_TAKE (R123): The Crown dispatcher takes an eligible entry, advances HEAD and places the job. -/
  | descriptorTake (t : Nat)
  /-- PSN_RESERVATION_WRITTEN (R161): The image write of a new PSN reservation ends. -/
  | psnReservationWritten (t : Nat)
  /-- DIE_POLL (R141): A die dispatcher's poll wait ends; it reads its internal ring and admits the entries. -/
  | diePoll (t : Nat) (die : Nat)
  /-- FRAGMENT_TABLE_ARRIVAL (R130): A job's fragment table arrives and its entries are checked. -/
  | fragmentTableArrival (t : Nat) (job : Nat) (table : Bytes)
  /-- SOURCE_ARRIVAL (R170): The last source byte of a job arrives; the source close test is applied. -/
  | sourceArrival (t : Nat) (job : Nat) (src : Bytes)
  /-- SOURCE_READ_FAIL (R141): A failed source read completes the job with INPUT_INVALID and INFO 0xFA. -/
  | sourceReadFail (t : Nat) (job addr : Nat)
  /-- ENGINE_JOB_DONE (R176): A MAC core or the draw mapper finishes a job and hands its result to the completion collector. -/
  | engineJobDone (t : Nat) (job : Nat)
  /-- COLLECTOR_BATCH_SEND (R190): A batch of leaves is sent to the Crown when it holds 32 leaves or its oldest leaf has waited 100 ns. -/
  | collectorBatchSend (t : Nat) (die : Nat)
  /-- LEAF_ARRIVAL (R187): A leaf reaches the sequencer and the ring's take list is drained in order. -/
  | leafArrival (t : Nat)
  /-- COMPLETION_POST (R152): A batch of completion entries, then the index block, then the producer index are written, and a message is sent if due. -/
  | completionPost (t : Nat) (fn c : Nat)
  /-- CQ_TIMER_EXPIRY (R155): The moderation timer expires and sends the message, holds it, or sets its pending bit. -/
  | cqTimerExpiry (t : Nat) (fn c : Nat)
  /-- INV_HOLD_TIMEOUT (R135): An invalidation hold has lasted 1 s; HOLD_LONG is set and an event is recorded. -/
  | invHoldTimeout (t : Nat) (q : QRef)
  /-- PPS_EDGE (R54): An EPOCH_PPS edge is filtered, accepted or counted, and disciplines the counter. -/
  | ppsEdge (t : Nat) (width : Nat) (rising : Bool)
  /-- PPS_TIMEOUT (R54): No edge has been accepted for 1.2 s; the device enters HOLDOVER. -/
  | ppsTimeout (t : Nat)
  /-- TCLK_FAULT (R55): TCLK is lost, out of range or unlocked; TCLK_FAULT is set and the backup oscillator runs the counter. -/
  | tclkFault (t : Nat)
  /-- TCLK_RECOVERY (R55): TCLK has been valid for 1 s with the PLL locked again; TCLK_FAULT clears. -/
  | tclkRecovery (t : Nat)
  /-- PLL_LOCK (R73): The PLL locks after reset; STATE becomes ACQUIRING. -/
  | pllLock (t : Nat)
  /-- BEACON_GRACE_EXPIRY (R68): No beacon has labelled a rollover for BEACON_GRACE; BEACON_STALE is set. -/
  | beaconGraceExpiry (t : Nat)
  /-- UNC_LIMIT_REACHED (R68): The growing uncertainty passes TRUST_LIMIT; time becomes untrusted. -/
  | uncLimitReached (t : Nat)
  /-- ACQUISITION_OVERDUE (R73): Acquisition has not ended 10 s after it began, then every 60 s; an event is recorded. -/
  | acquisitionOverdue (t : Nat)
  /-- TIMING_WORD (R39): A die receives the Crown's 1 µs timing word and updates its epoch count. -/
  | timingWord (t : Nat) (die epoch : Nat)
  /-- OFFSET_CHECK (R39): Every 1 ms the Crown measures each die's offset by round trip and fences a die beyond 50 ns. -/
  | offsetCheck (t : Nat) (die : Nat) (offset : Int)
  /-- EPOCH_BOUNDARY (R77): An epoch boundary runs the bank swap, journal close, scheduled draws, reseeds, snapshots, root signing and staging. -/
  | epochBoundary (t : Nat)
  /-- STAGING_ACK (R37): Every live die has acknowledged a staged change; the fenced command completes with T. -/
  | stagingAck (t : Nat) (die target : Nat)
  /-- FENCE_CONFIRM (R37): 10 µs before T the Crown confirms the staged change by urgent flit, or fences a die that has not acknowledged. -/
  | fenceConfirm (t : Nat) (target : Nat)
  /-- CONFIRM_FLIT (R37): A die receives CONFIRM and marks its STAGED bank confirmed. -/
  | confirmFlit (t : Nat) (die target : Nat)
  /-- SCHEDULED_DRAW_EXECUTE (R247): A scheduled draw reseeds, maps and appends its result leaf at its target. -/
  | scheduledDrawExecute (t : Nat) (drawId : Nat)
  /-- DRAW_PLACEMENT (R239): A waiting immediate draw is placed when an instance frees or a die changes state. -/
  | drawPlacement (t : Nat) (job : Nat)
  /-- DIE_ROOT_RETURN (R193): Die roots arrive; the Crown forms the ROOT and PACKAGE records and delivers them. -/
  | dieRootReturn (t : Nat) (die tenant epoch : Nat)
  /-- DIE_ROOT_REBUILD (R216): The rebuild of a die root from the journal ends, or marks the root lost. -/
  | dieRootRebuild (t : Nat) (die tenant epoch : Nat) (ok : Bool)
  /-- BATCH_SIGNED (R198): A batch signature is verified and its BATCH record is written. -/
  | batchSigned (t : Nat)
  /-- HOST_ROOT_DEADLINE (R213): No host root is final within DEADLINE_S; the Crown builds a fallback root. -/
  | hostRootDeadline (t : Nat) (x : HostDeadline)
  /-- JOURNAL_PAGE_WRITE (R214): A journal page write to the host store ends, or fails and sets STORE_FAULT. -/
  | journalPageWrite (t : Nat) (ok : Bool)
  /-- CHECKPOINT_OVERDUE (R217): No checkpoint has been completed for 60 s; appends stop. -/
  | checkpointOverdue (t : Nat)
  /-- LEDGER_LEAF_MESSAGE (R202): The 100 µs limit on messages for LEAF records ends, and a message is sent. -/
  | ledgerLeafMessage (t : Nat) (ring : Nat)
  /-- LANE_YIELD (R281): A Reckoner job reaches a yield point and may be suspended for a higher class. -/
  | laneYield (t : Nat) (die lane : Nat) (remaining : List Nat) (need : Nat)
  /-- LANE_JOB_DONE (R279): A lane job ends, is verified and wiped, and its result is released; any suspended job resumes. -/
  | laneJobDone (t : Nat) (die lane : Nat) (verified : Bool)
  /-- CURVE_FETCH_DONE (R266): A curve table fetched from the Crown arrives at a die. -/
  | curveFetchDone (t : Nat) (die tenant table : Nat)
  /-- ENGINE_FAULT (R46): An engine core or lane fault is contained and the job is moved to another core. -/
  | engineFault (t : Nat) (die : Nat) (kind core : Nat)
  /-- MEMORY_ERROR (R32): A corrected or uncorrectable memory error is handled by its location. -/
  | memoryError (t : Nat) (die : Nat) (w : ReadWord) (code unit addr : Nat)
  /-- FLIT_RECEIVE (R25): A Band flit is received, checked and acknowledged, or NAKed with replay. -/
  | flitReceive (t : Nat) (die port : Nat) (flit : Bytes) (worst : Nat)
  /-- KEEPALIVE_TIMER (R27): A sender that has sent no flit for 1 µs sends a keepalive flit. -/
  | keepaliveTimer (t : Nat) (die port : Nat)
  /-- LINK_SILENCE_TIMEOUT (R27): No valid flit for 4 µs starts a retrain. -/
  | linkSilenceTimeout (t : Nat) (die port : Nat)
  /-- PORT_RETRAIN_DONE (R25): A retrain ends at x4, at x2, or with the port down. -/
  | portRetrainDone (t : Nat) (die port width : Nat)
  /-- UPSTREAM_TIMEOUT (R51): A brim die with no upstream flit for 24 µs clears its keys and halts. -/
  | upstreamTimeout (t : Nat) (die : Nat)
  /-- MANDREL_WATCHDOG (R48): A brim Mandrel has stalled for 10 µs; the die is fenced. -/
  | mandrelWatchdog (t : Nat) (die : Nat)
  /-- CROWN_FAULT (R52): A Crown fault stops every ring and sets CROWN_FAULT. -/
  | crownFault (t : Nat)
  /-- HYPERVISOR_WATCHDOG (R52): The Crown hypervisor watchdog has not been serviced for 100 ms and resets the package. -/
  | hypervisorWatchdog (t : Nat)
  /-- WORLD_EXCEPTION (R409): An unhandled exception, violation or self-check failure starts a world restart. -/
  | worldException (t : Nat) (die world trigger : Nat)
  /-- HEARTBEAT_MISS (R409): A world has missed its heartbeat for 5 ms and is restarted. -/
  | heartbeatMiss (t : Nat) (die world : Nat)
  /-- WORLD_RESTART_DONE (R409): A world's measurement or reload ends; it starts again or stays stopped. -/
  | worldRestartDone (t : Nat) (die world : Nat) (ok : Bool)
  /-- GATE (R407): A GATE call is checked and enters the other world. -/
  | gate (t : Nat) (die index : Nat) (regs : List Nat) (mbox : Option (Nat × Nat))
  /-- GATE_RET (R407): A gate call returns to the caller. -/
  | gateRet (t : Nat) (die a0 a1 : Nat)
  /-- WORLD_INTERRUPT (R408): An interrupt for the world not running switches worlds. -/
  | worldInterrupt (t : Nat) (die world : Nat)
  /-- ACCESS_REFUSED (R415): An access check unit refuses a beat and reports it. -/
  | accessRefused (t : Nat) (die : Nat) (a : Access)
  /-- DEBUG_ACCESS (R416): A debug-port access is checked against the enables. -/
  | debugAccess (t : Nat) (die : Nat) (a : Access) (halt : Bool)
  /-- GATING_REQUEST (R412): A clock or power gating request is applied or held. -/
  | gatingRequest (t : Nat) (die block : Nat) (want : Bool)
  /-- CLAIM_RELEASE (R412): The last claim on a block is released and a held request is applied. -/
  | claimRelease (t : Nat) (die block : Nat)
  /-- GATING_REQUEST_OVERDUE (R412): A request held for 100 ms is recorded. -/
  | gatingRequestOverdue (t : Nat) (die block : Nat)
  /-- DIE_IDLE_ENTRY (R461): A die idle for DELAY_US enters IDLE. -/
  | dieIdleEntry (t : Nat) (die : Nat)
  /-- BOW_TEST_FAIL (R226): A bow health test fails; the bow is FAILED and the carder switches bow. -/
  | bowTestFail (t : Nat) (die bow : Nat) (test : BowTest)
  /-- BOW_RETEST (R226): A failed bow is retested 100 ms after its failure. -/
  | bowRetest (t : Nat) (die bow : Nat) (pass : Bool)
  /-- RELEASE_BLOCK (R225): An adaptive-proportion window ends and its carder blocks are released to the FIFO. -/
  | releaseBlock (t : Nat) (die : Nat)
  /-- ENTROPY_WAIT_TIMEOUT (R234): A request has waited 10 ms for entropy; it completes with ENTROPY_FAIL or is held. -/
  | entropyWaitTimeout (t : Nat) (job : Nat)
  /-- ENTROPY_READY (R229): Instantiation ends and the die's READY becomes 1. -/
  | entropyReady (t : Nat) (die : Nat)
  /-- SHIELD_RESEED (R373): The shield and lid-mesh generators are reseeded each second. -/
  | shieldReseed (t : Nat) (die : Nat)
  /-- IMAGE_WRITE_DONE (R299): A persistent image write ends, and the commands that waited for it continue. -/
  | imageWriteDone (t : Nat)
  /-- FLASH_WAIT_TIMEOUT (R299): A command has waited 1 s for a flash write barred by HOLD; it completes with FAULT_RETRY. -/
  | flashWaitTimeout (t : Nat) (job : Nat)
  /-- GENERATION_DROP (R297): The last job of a superseded generation loads its key, and the die drops that generation. -/
  | generationDrop (t : Nat) (die slot : Nat)
  /-- QUORUM_WINDOW_END (R312): A quorum window ends and the session closes. -/
  | quorumWindowEnd (t : Nat) (role : Nat)
  /-- IMPRINT_PASS (R466): Every 15 minutes the key store is rewritten inverted. -/
  | imprintPass (t : Nat) (die : Nat) (starting overran : Bool)
  /-- LK_INVERT (R465): Every 15 minutes the lining controller rewrites LK inverted. -/
  | lkInvert (t : Nat)
  /-- CARD_INSERT (R340): A debounced insertion, a new session or an enrolment starts a card exchange. -/
  | cardInsert (t : Nat) (port : Nat)
  /-- CARD_POWER_TIMER (R340): The card supply has been on for 10 ms and the bus exchange begins. -/
  | cardPowerTimer (t : Nat) (port : Nat)
  /-- CARD_RESPONSE (R326): A card response arrives, and the device checks it and sends the next command. -/
  | cardResponse (t : Nat) (port : Nat) (frame : Bytes)
  /-- CARD_WAIT_BYTE (R328): A wait-extension byte re-arms the response timeout. -/
  | cardWaitByte (t : Nat) (port : Nat)
  /-- CARD_DATA_BLOCK (R330): A Reset Answer or response block is received and checked. -/
  | cardDataBlock (t : Nat) (port : Nat) (data : Bytes) (crcOk : Bool)
  /-- CARD_CRC_TOKEN (R331): The CRC status token of a written block arrives. -/
  | cardCrcToken (t : Nat) (port token : Nat)
  /-- CARD_BUSY_RELEASE (R331): The card releases busy after storing a block. -/
  | cardBusyRelease (t : Nat) (port : Nat)
  /-- CARD_TIMEOUT (R337): A response, busy or read-access limit expires. -/
  | cardTimeout (t : Nat) (port : Nat)
  /-- CARD_CHECK_DONE (R341): The lane checks of the response block end; the card is accepted or refused. -/
  | cardCheckDone (t : Nat) (port : Nat)
  /-- CARD_REMOVE (R343): DET# high for 20 µs declares the card removed. -/
  | cardRemove (t : Nat) (port : Nat)
  /-- TAMPER_ALARM (R377): A monitor alarms and its RECORD, LOCK or ERASE response runs. -/
  | tamperAlarm (t : Nat) (code die inst detail : Nat)
  /-- LINING_ALARM (R388): An alarm on lining power alone zeroises LK and writes a lining-log entry. -/
  | liningAlarm (t : Nat) (code detail ticks : Nat)
  /-- TAMPER_LOG_PROGRAM (R382): A tamper-log entry is programmed into OTP and read back. -/
  | tamperLogProgram (t : Nat) (ok : Bool)
  /-- EVENT_RECORD_WRITE (R397): The Hatter writes buffered event records to flash. -/
  | eventRecordWrite (t : Nat)
  /-- MONITOR_TEST_RESULT (R392): A monitor test window ends, passed or failed. -/
  | monitorTestResult (t : Nat) (code die inst : Nat) (pass : Bool)
  /-- XTAL_CHECK (R455): The once-a-second crystal comparison switches the lining counter to RC on failure. -/
  | xtalCheck (t : Nat) (ok : Bool)
  /-- HATTER_WATCHDOG (R421): The Hatter watchdog restarts the Hatter. -/
  | hatterWatchdog (t : Nat) (exception : Bool)
  /-- SENSOR_SAMPLE (R423): The 100 Hz sensor sample is taken and limits are evaluated. -/
  | sensorSample (t : Nat) (readings : List (Nat × Int))
  /-- MCTP_PACKET (R425): An MCTP packet is received and assembled into a message. -/
  | mctpPacket (t : Nat) (binding : Binding) (pkt : Bytes) (pecOk : Bool)
  /-- MCTP_ASSEMBLY_TIMEOUT (R425): A partly assembled message is discarded after 100 ms. -/
  | mctpAssemblyTimeout (t : Nat) (binding : Binding)
  /-- SMBUS_TIMEOUT (R426): SCL held low for 35 ms resets the SMBus interface. -/
  | smbusTimeout (t : Nat)
  /-- SET_ENDPOINT_ID (R425): MCTP control command Set Endpoint ID. -/
  | setEndpointId (t : Nat) (binding : Binding) (op eid : Nat)
  /-- GET_ENDPOINT_ID (R425): MCTP control command Get Endpoint ID. -/
  | getEndpointId (t : Nat) (binding : Binding)
  /-- GET_ENDPOINT_UUID (R425): MCTP control command Get Endpoint UUID. -/
  | getEndpointUuid (t : Nat) (binding : Binding)
  /-- GET_MCTP_VERSION_SUPPORT (R425): MCTP control command Get MCTP Version Support. -/
  | getMctpVersionSupport (t : Nat) (binding : Binding) (msgType : Nat)
  /-- GET_MESSAGE_TYPE_SUPPORT (R425): MCTP control command Get Message Type Support. -/
  | getMessageTypeSupport (t : Nat) (binding : Binding)
  /-- GET_TID (R427): PLDM base command GetTID. -/
  | getTid (t : Nat) (binding : Binding)
  /-- SET_TID (R427): PLDM base command SetTID. -/
  | setTid (t : Nat) (binding : Binding) (tid : Nat)
  /-- GET_PLDM_VERSION (R427): PLDM base command GetPLDMVersion. -/
  | getPldmVersion (t : Nat) (binding : Binding) (pldmType : Nat)
  /-- GET_PLDM_TYPES (R427): PLDM base command GetPLDMTypes. -/
  | getPldmTypes (t : Nat) (binding : Binding)
  /-- GET_PLDM_COMMANDS (R427): PLDM base command GetPLDMCommands. -/
  | getPldmCommands (t : Nat) (binding : Binding) (pldmType : Nat)
  /-- GET_PDR_REPOSITORY_INFO (R427): PLDM command GetPDRRepositoryInfo. -/
  | getPdrRepositoryInfo (t : Nat) (binding : Binding)
  /-- GET_PDR (R427): PLDM command GetPDR. -/
  | getPdr (t : Nat) (binding : Binding) (record : Nat)
  /-- GET_SENSOR_READING (R427): PLDM command GetSensorReading. -/
  | getSensorReading (t : Nat) (binding : Binding) (sensor : Nat)
  /-- GET_STATE_SENSOR_READINGS (R427): PLDM command GetStateSensorReadings. -/
  | getStateSensorReadings (t : Nat) (binding : Binding) (sensor : Nat)
  /-- SET_EVENT_RECEIVER (R427): PLDM command SetEventReceiver. -/
  | setEventReceiver (t : Nat) (binding : Binding) (enable eid : Nat)
  /-- POLL_FOR_PLATFORM_EVENT_MESSAGE (R427): PLDM command PollForPlatformEventMessage. -/
  | pollForPlatformEventMessage (t : Nat) (binding : Binding)
  /-- QUERY_DEVICE_IDENTIFIERS (R428): PLDM firmware-update command QueryDeviceIdentifiers. -/
  | queryDeviceIdentifiers (t : Nat) (binding : Binding)
  /-- GET_FIRMWARE_PARAMETERS (R428): PLDM firmware-update command GetFirmwareParameters. -/
  | getFirmwareParameters (t : Nat) (binding : Binding)
  /-- REQUEST_UPDATE (R428): PLDM RequestUpdate starts an update, except in RETAIN. -/
  | requestUpdate (t : Nat) (binding : Binding) (maxTransfer : Nat)
  /-- PASS_COMPONENT_TABLE (R428): PLDM PassComponentTable. -/
  | passComponentTable (t : Nat) (binding : Binding) (component svn : Nat)
  /-- UPDATE_COMPONENT (R435): PLDM UpdateComponent erases the inactive bank and starts the transfer. -/
  | updateComponent (t : Nat) (binding : Binding) (component size : Nat)
  /-- FIRMWARE_DATA_RECEIVED (R435): A requested firmware block arrives and is written; the last one leads to verification and staging. -/
  | firmwareDataReceived (t : Nat) (binding : Binding) (data : Bytes)
  /-- ACTIVATE_FIRMWARE (R437): PLDM ActivateFirmware activates the staged Hatter and service-world banks. -/
  | activateFirmware (t : Nat) (binding : Binding)
  /-- GET_STATUS (R428): PLDM GetStatus. -/
  | getStatus (t : Nat) (binding : Binding)
  /-- CANCEL_UPDATE_COMPONENT (R428): PLDM CancelUpdateComponent. -/
  | cancelUpdateComponent (t : Nat) (binding : Binding)
  /-- CANCEL_UPDATE (R428): PLDM CancelUpdate. -/
  | cancelUpdate (t : Nat) (binding : Binding)
  /-- GET_VERSION (R429): SPDM GET_VERSION. -/
  | getVersion (t : Nat) (binding : Binding)
  /-- GET_CAPABILITIES (R429): SPDM GET_CAPABILITIES. -/
  | getCapabilities (t : Nat) (binding : Binding) (req : Bytes)
  /-- NEGOTIATE_ALGORITHMS (R429): SPDM NEGOTIATE_ALGORITHMS. -/
  | negotiateAlgorithms (t : Nat) (binding : Binding) (req : Bytes)
  /-- GET_DIGESTS (R429): SPDM GET_DIGESTS. -/
  | getDigests (t : Nat) (binding : Binding)
  /-- GET_CERTIFICATE (R430): SPDM GET_CERTIFICATE returns the slot 0 chain. -/
  | getCertificate (t : Nat) (binding : Binding) (slot offset length : Nat)
  /-- CHALLENGE (R429): SPDM CHALLENGE, signed with DIK. -/
  | challenge (t : Nat) (binding : Binding) (slot : Nat) (nonce : Bytes)
  /-- GET_MEASUREMENTS (R431): SPDM GET_MEASUREMENTS returns the measurement blocks. -/
  | getMeasurements (t : Nat) (binding : Binding) (index : Nat) (signed : Bool) (nonce : Bytes)
  /-- FW_SAMPLE_TIMER (R445): The firmware sampling period expires and the Mandrel is sampled. -/
  | fwSampleTimer (t : Nat) (die world address : Nat)
  /-- SUPPLY_WARNING (R457): A core supply below its warning threshold places the package in HOLD. -/
  | supplyWarning (t : Nat) (rail die mv : Nat)
  /-- SUPPLY_RECOVERY (R457): The supply has been at or above its recovery level for 50 µs; HOLD ends and barred writes resume. -/
  | supplyRecovery (t : Nat) (rail die : Nat)
  /-- SUPPLY_RESET (R459): A supply below its reset threshold resets the package or one brim die. -/
  | supplyReset (t : Nat) (rail die : Nat)
  /-- POWER_ON (R467): Every main supply is in range with SYSCLK present; the internal power-on reset is released. -/
  | powerOn (t : Nat)
  /-- PERST_ASSERT (R467): PERST# low for 1 µs causes a package reset. -/
  | perstAssert (t : Nat) (width : Nat)
  /-- PERST_RELEASE (R470): The release of PERST# starts the Crown ROM start-up. -/
  | perstRelease (t : Nat)
  /-- MEASUREMENT (R470): Start-up step 5: the images are measured and LOCK is entered if LOCK_LATCH is set. -/
  | measurement (t : Nat)
  /-- BAND_BRINGUP (R470): Start-up step 6: the ports train and LIVE_MASK is set. -/
  | bandBringup (t : Nat) (trained : List Nat)
  /-- BRIM_BOOT (R470): Start-up step 7: the brim dies test their monitors, receive their images and start. -/
  | brimBoot (t : Nat)
  /-- KEYSTORE_RESTORE (R301): Start-up step 8: the keys, checkpoint and PSN are restored and the bank is committed. -/
  | keystoreRestore (t : Nat)
  /-- ENTROPY_STARTUP (R229): Start-up step 9: the known-answer tests run and the bows start. -/
  | entropyStartup (t : Nat) (die : Nat) (kat : Option Nat) (passing : List Nat)
  /-- STARTUP_STEP_OVERRUN (R470): A start-up step passes its maximum time and an event is recorded. -/
  | startupStepOverrun (t : Nat) (step us : Nat)
  /-- RETAIN_ENTRY (R462): The package enters RETAIN after PWR_RETAIN. -/
  | retainEntry (t : Nat)
  /-- RETAIN_DRAW_WAKE (R464): A wake 1 s before a scheduled draw target. -/
  | retainDrawWake (t : Nat)
  /-- WAKE_DONE (R464): The wake sequence ends and the package is ACTIVE. -/
  | wakeDone (t : Nat) (checkOk : Bool)
  /-- LINING_POWER_LOSS (R388): VLINING below 1.8 V loses the lining contents. -/
  | liningPowerLoss (t : Nat)
  /-- OTP_WORD_PROGRAMMED (R356): The programming and read-back of a life-cycle OTP word ends. -/
  | otpWordProgrammed (t : Nat) (ok : Bool)
  /-- FLR (R112): A Function Level Reset starts an instance reset, or a reset of every function for the PF. -/
  | flr (t : Nat) (fn : Nat)
  /-- VF_ENABLE_CLEAR (R114): Clearing VF Enable destroys every VF instance. -/
  | vfEnableClear (t : Nat)
  /-- HOT_RESET (R467): An in-band Hot Reset resets configuration space and acts as a PF FLR. -/
  | hotReset (t : Nat)
  /-- BUS_MASTER_ENABLE_CHANGE (R118): A change of Bus Master Enable holds or releases a function's memory requests. -/
  | busMasterEnableChange (t : Nat) (fn : Nat) (c : CommandBits)
  /-- D3HOT_ENTRY (R117): A function enters D3hot; fetch stops and messages are held. -/
  | d3hotEntry (t : Nat) (fn : Nat)
  /-- D0_RETURN (R117): A function returns to D0; held messages are sent and fetch resumes. -/
  | d0Return (t : Nat) (fn : Nat)
  /-- MSIX_UNMASK (R116): Unmasking a vector sends one message for its pending bit. -/
  | msixUnmask (t : Nat) (fn vector : Nat)
  /-- LINK_FATAL_ERROR (R119): A fatal link error makes every function act as if Bus Master Enable were 0. -/
  | linkFatalError (t : Nat) (addr : Nat)
  /-- POISONED_BAR_WRITE (R119): A poisoned TLP on a BAR write is discarded and reported. -/
  | poisonedBarWrite (t : Nat) (fn off : Nat)
  /-- LINK_TRAINED (R93): The link trains, and an event is recorded when it trains below x16 at 32 GT/s. -/
  | linkTrained (t : Nat) (width speed : Nat)
  /-- LINING_POWER_ON (R453): VLINING returns after a loss (a cell replaced with the auxiliary rail absent, or VIO rising before VLINING) and the lining domain leaves its own power-on reset, losing its contents and arming LINING_LOSS. -/
  | liningPowerOn (t : Nat)
  /-- POWER_REMOVAL_BETWEEN_ATTEMPTS (R336): After a failed mode check the card supply has been off for 10 ms, and the device powers the card again to retry at a lower speed or width. -/
  | powerRemovalBetweenAttempts (t : Nat) (port : Nat)
  /-- MONITOR_ALARM_END (R376): A monitor's condition ends, so its TMP_ALARMS bit (or LINING_LOW) clears and TMP_UNLOCK's check 4 can pass. -/
  | monitorAlarmEnd (t : Nat) (code die : Nat)
  /-- HATTER_RESTART_DONE (R421): The Hatter's restart of up to 200 ms ends, and MCTP answers and sensor threshold evaluation resume. -/
  | hatterRestartDone (t : Nat)
  /-- PACKAGE_RESET_BEGIN (R469): 1 ms after a PWR_RESET completion has been written, the package reset begins. -/
  | packageResetBegin (t : Nat)
  /-- VF_ENABLE_SET (R114): The host sets VF Enable (with NumVFs) in the SR-IOV capability, so that VFs 1 to NumVFs exist and INSTANCE_CREATE can bind them. -/
  | vfEnableSet (t : Nat) (x : SriovSetup)
  /-- SLOT_REFETCH_DONE (R32): A brim key-store slot refetched from the Crown after an uncorrectable error arrives, and the jobs waiting on the slot proceed. -/
  | slotRefetchDone (t : Nat) (die slot : Nat)
  /-- INSTANCE_RESET_DONE (R112): The instance reset finishes: RESETTING clears, READY returns (except after destroy), FN_EVENT.RESET_DONE is set and the command completion is posted. -/
  | instanceResetDone (t : Nat) (fn : Nat)
  /-- COUNTER_SATURATION (R439): A counter counting cycles reaches 0xFFFF_FFFF_FFFF, stays there and sets its sticky SATURATED flag. -/
  | counterSaturation (t : Nat) (die counter : Nat)
deriving DecidableEq, Repr

end Sys2Proof
end

