-- ==== Sys2Proof/Config.lean ====
section
/-! DEFINITION. What the spec leaves open or takes from a cited standard: free values and primitives without a body.
Nothing here can be evaluated, so a statement that mentions one holds whatever it answers. -/

namespace Sys2Proof.Config

/-- FREE VALUE (log entry 4): the n-th byte that an entropy source or another open point delivers (R222). -/
opaque freeByte : Nat → Byte

/-- CTR_DRBG with AES-256 and the derivation function (SP 800-90A, R231; log entry 5): instantiation from entropy input, nonce and
personalisation string; Key and V, 48 bytes. -/
opaque drbgInit : Bytes → Bytes → Bytes → Bytes

/-- Reseed of a CTR_DRBG with entropy input (log entry 5). -/
opaque drbgReseed : Bytes → Bytes → Bytes

/-- One generate request of a CTR_DRBG (log entry 5): Key and V, number of bytes, additional input; the output, and Key and V after it. -/
opaque drbgGenerate : Bytes → Nat → Bytes → Bytes × Bytes

/-- SHA-384 of a message (FIPS 180-4, cited by R164; log entry 5). -/
opaque sha384 : Bytes → BitVec 384

/-- SHA-256 and SHA-512 and SHAKE256(M, 64), as the digests of R261 and R262 (log entry 5): code 1, 2, 3 of HASH, 4 for SHAKE256. -/
opaque hashOf : Nat → Bytes → BitVec 512

/-- AES-256-CMAC (SP 800-38B, R163; log entry 5): key, message. -/
opaque cmacAes256 : Bytes → Bytes → BitVec 128

/-- KMAC256 (SP 800-185, R163 and R289; log entry 5): key, message, output bits, customisation; the answer is the output read as one big-endian number. -/
opaque kmac256 : Bytes → Bytes → Nat → String → Nat

/-- AES-256 key wrap with padding (SP 800-38F, R288; log entry 5). -/
opaque kwpWrap : Bytes → Bytes → Bytes

/-- Unwrap of `kwpWrap`; none when the integrity check fails (log entry 5). -/
opaque kwpUnwrap : Bytes → Bytes → Option Bytes

/-- The public key of a private key, in the encoding of R262: algorithm code, curve block of a loaded curve, material (log entry 5). -/
opaque publicOf : Nat → Bytes → Bytes → Bytes

/-- A signature in the encoding of R262: algorithm, scheme, whether it is the ph variant of EdDSA, curve block, private material, message or
representative, nonce or salt (log entry 5). -/
opaque signOf : Nat → Nat → Bool → Bytes → Bytes → Bytes → Bytes → Bytes

/-- Whether a signature is valid: algorithm, scheme, whether it is the ph variant of EdDSA, curve block, public key, message or representative,
signature (R271; log entry 5). -/
opaque verifyOf : Nat → Nat → Bool → Bytes → Bytes → Bytes → Bytes → Bool

/-- The x-coordinate Z of h·d·Q (SP 800-56A, R272; log entry 5): algorithm, curve block, private material, peer point. -/
opaque ecdhOf : Nat → Bytes → Bytes → Bytes → Bytes

/-- Generated RSA material of a modulus of the given bits (R303; log entry 5): size in bits and a seed. -/
opaque rsaGenerate : Nat → Bytes → Bytes

/-- The SHA-384 digest of the mask ROM, one value for a silicon revision (R288; no value in the spec; log entry 6). -/
opaque romDigest : Nat → BitVec 384

/-- The Gweora public keys and the BLANK-to-TEST token digest that the mask ROM holds (R352, R366, R433; log entry 6): debug keys 0 and 1, firmware keys 2 and 3. -/
opaque romKey : Nat → Bytes

/-- The BLANK-to-TEST token digest of the mask ROM (R352; log entry 6). -/
opaque romTokenDigest : BitVec 384

/-- The MCTP endpoint UUID of the part with this PACKAGE_ID (R425; no value in the spec; log entry 6). -/
opaque endpointUuid : Bytes → BitVec 128

/-- The certificate chain in the certificate region of the part with this PACKAGE_ID: its length and its bytes (R430; no value in the spec; log entry 6). -/
opaque certChain : Bytes → Bytes

/-- Gweora's PCI-SIG vendor identifier (R92; no value in the spec; log entry 6). -/
opaque vendorId : BitVec 16

/-- The gate table of a world that the manifest of its image states: world and image (R404, R406; its layout is not in the spec; log entry 6).
Each entry: ENTRY, target world, callers, argument count, flags, mailbox length, and whether ENTRY lands on a landing instruction (log entry 85). -/
opaque gateTable : Nat → Bytes → List (List Nat)

/-- The region descriptors that the Crown ROM loads into an access check unit: unit and silicon revision (R414; no values in the spec; log entry 6).
Each entry: base, limit, kinds, worlds, masters, cacheable, ordered, locked. -/
opaque regionTable : Nat → Nat → List (List Nat)

/-- The 16 check bits of a 64-bit word stored at an address, or at its place in a flit body (R31; the code itself is not in the spec; log entry 6). -/
opaque checkBits : Nat → BitVec 64 → BitVec 16

/-- TYPE of the device's own Band messages, by the kinds of log entry 57 (R24; no values in the spec; log entry 6). -/
opaque flitType : Nat → BitVec 8

end Sys2Proof.Config
end

