-- ==== Sys2Proof/Machine/State.lean ====
section
/-! DEFINITION. The state of the package: everything the spec gives the machine, as plain data.
Every field carries its reset value as its default; `State.reset` is the machine right after the power-on package reset.
A reset value that the spec does not give is named in log entry 2. -/

namespace Sys2Proof.Machine

/-- Why the model would stop. No rule of the spec stops the whole package without a state to go on from: a Crown fault
(R52) and a die fence (R48) are states. The one fault is kept for a command queue that is itself malformed; nothing raises it (safe). -/
inductive Fault where
  /-- Raised by no command (safe: the model never stops where the hardware goes on). -/
  | none
deriving DecidableEq, Repr

/-- Why a command has no meaning. -/
inductive Refusal where
  /-- The command named is not modelled yet; raised by an arm of `exec` only (safe). -/
  | notModelled (mnemonic : String)
deriving DecidableEq, Repr

/-- A sparse map from a number to a value: a list with rising keys and no key twice. -/
abbrev KMap (α : Type) := List (Nat × α)

/-! ## Parts (R1, R2) -/

/-- The three parts of R1. -/
inductive Part where
  | xz92 | xz94 | xz98
deriving DecidableEq, Repr

/-- The two grades of R2. -/
inductive Grade where
  | c | e
deriving DecidableEq, Repr

/-! ## Time (chapter 02) -/

/-- STATE of R66. -/
inductive TimeSt where
  | unset | acquiring | locked | holdover
deriving DecidableEq, Repr

/-- A Stamp (R63). -/
structure Stamp where
  seconds : Nat := 0
  ns      : Nat := 0
  unc     : Nat := 0xFFFFFFFF
  flags   : Nat := 0x40
deriving DecidableEq, Repr

/-- EPC_STATUS.REASONS (R68). -/
structure Reasons where
  notAcquired    : Bool := true
  uncLimit       : Bool := false
  beaconStale    : Bool := false
  tclkFault      : Bool := false
  ppsContradict  : Bool := false
  authorityAlarm : Bool := false
  labelMismatch  : Bool := false
  epochRegress   : Bool := false
deriving DecidableEq, Repr

/-- The parameters of EPC_CONFIGURE (R87), with its defaults. -/
structure EpcParams where
  trustLimit : Nat := 1000000
  stability  : Nat := 100
  refUnc     : Nat := 100
  grace      : Nat := 10
  floor      : Nat := 2000000
  limit      : Nat := 10000000
deriving DecidableEq, Repr

/-- An authority key (R59): AKI and the P-384 public key. -/
structure Authority where
  aki : Bytes
  key : Bytes
deriving DecidableEq, Repr

/-- The package timescale (R54 to R74). Instants are readings of the device's nanosecond clock since power-on (log entry 1). -/
structure TimeState where
  now          : Nat := 0
  st           : TimeSt := .unset
  reasons      : Reasons := {}
  slewing      : Bool := false
  residual     : Nat := 0
  leapPending  : Bool := false
  leapNegative : Bool := false
  /-- Step 4 of R73 has been passed. -/
  edgePair     : Bool := false
  /-- Reading at the edge of R73 step 3: the nanosecond counter is 0 there. -/
  base         : Option Nat := none
  /-- The latest labelled rollover (number since `base`) and its TAI second (R61). -/
  labelRoll    : Nat := 0
  labelSec     : Nat := 0
  /-- Whether `labelRoll` has been labelled by a beacon. -/
  labelled     : Bool := false
  /-- Every rollover that a beacon has labelled (R61). -/
  labels       : List Nat := []
  /-- AUTHORITY_ID of the last verified beacon (R58). -/
  authorityId  : Nat := 0
  taiUtc       : Nat := 0
  freshAt      : Nat := 0
  /-- LOCKED has been regained after PPS_CONTRADICT was set (R68). -/
  contraLocked : Bool := false
  lastEdge     : Nat := 0
  phi1         : Int := 0
  phi2         : Int := 0
  /-- The window of the latest accepted edge, so that only the first edge of a window is accepted. -/
  lastWindow   : Option Nat := none
  outOfWindow  : Nat := 0
  narrow       : Nat := 0
  oowSecond    : Nat := 0
  oowCount     : Nat := 0
  /-- Candidate edges of R57, oldest first. -/
  cand         : List Nat := []
  epoch        : Nat := 0
  /-- 1 more than the last epoch for which a ledger root was signed, 0 while there is none (R74). -/
  signedTo     : Nat := 0
  acqStart     : Nat := 0
  /-- The next record of an acquisition that is not complete (R73). -/
  acqDue       : Nat := 0
  trustShown   : Bool := false
  /-- TCLK has been valid since this instant (R55 recovery). -/
  pllLocked    : Bool := false
deriving DecidableEq, Repr

/-- K, ORIGIN and the PPS polarity (R72). -/
structure EpochCfg where
  k       : Nat := 1000
  origin  : Nat := 0
  falling : Bool := false
  fromOtp : Bool := false
deriving DecidableEq, Repr

/-! ## Functions and rings (chapters 03, 04) -/

/-- Instance grants and the admin ring of an instance (R100, R103). -/
structure Grants where
  workRings    : Nat := 0
  serviceQs    : Nat := 0
  complRings   : Nat := 0
  vectors      : Nat := 0
  outstanding  : Nat := 0
  weightBudget : Nat := 0
  options      : Nat := 0
  adminBase    : Nat := 0
  adminCqBase  : Nat := 0
  adminIndex   : Nat := 0
  adminLog2    : Nat := 6
  adminCqLog2  : Nat := 6
  adminVector  : Nat := 0
deriving DecidableEq, Repr

/-- Tenant grants (R100). -/
structure TenantGrants where
  narrow : Nat := 0
  wide   : Nat := 0
  close  : Nat := 0
  drbgs  : Nat := 0
deriving DecidableEq, Repr

/-- One MSI-X table entry. -/
structure MsixEntry where
  addr   : Nat := 0
  data   : Nat := 0
  masked : Bool := true
deriving DecidableEq, Repr

/-- MSI-X structures of a function (R94, R116, R117). -/
structure Msix where
  enable  : Bool := false
  fnMask  : Bool := false
  /-- Entries that differ from the masked entry of reset. -/
  table   : KMap MsixEntry := []
  pending : List Nat := []
  held    : List Nat := []
deriving DecidableEq, Repr

/-- RING_STATUS.STATE (R124). -/
inductive QState where
  | absent | disabled | running | stopped
deriving DecidableEq, Repr

/-- The stop or fetch-failure completion that a queue still owes (R127, R128). -/
inductive OwedStop where
  | overrun (info t tail head : Nat)
  | fetchFail (head : Nat)
deriving DecidableEq, Repr

/-- A submission queue (R120 to R150). -/
structure Queue where
  st        : QState := .absent
  head      : Nat := 0
  tail      : Nat := 0
  log2      : Nat := 0
  base      : Nat := 0
  cq        : Nat := 0
  burst     : Nat := 0
  weight    : Nat := 0
  creation  : Nat := 0
  hold      : Option Nat := none
  holdSince : Nat := 0
  headAt    : Nat := 0
  /-- The hold has been reported by its event (R135). -/
  holdNoted : Bool := false
  /-- The prefetched entry whose read failed; the queue stops when HEAD reaches it (R128). -/
  failAt    : Option Nat := none
  done      : Bool := false
  late      : Bool := false
  cause     : Nat := 0
  dropped   : Bool := false
  badWrite  : Bool := false
  holdLong  : Bool := false
  /-- Prefetched copies from HEAD on (R133). -/
  copies    : List Desc := []
  /-- Credit left in the round, and the burst that the round began with (R139, R158). -/
  credit    : Nat := 0
  burstNow  : Nat := 0
  /-- JOB_IDs taken and not yet released to the completion ring, in take order (R151). -/
  takes     : List Nat := []
  owed      : Option OwedStop := none
deriving DecidableEq, Repr

/-- A completion (R16) with the DST writes that precede it. -/
structure Completion where
  tag    : Nat := 0
  status : Nat := 0
  info   : Nat := 0
  head   : Nat := 0
  ring   : Nat := 0
  seq    : Nat := 0
  /-- The journal epoch of the leaf; none takes the epoch of posting. -/
  epoch  : Option Nat := none
  die    : Nat := 0
  flags  : Nat := 0
  result : Bytes := []
  notify : Bool := false
  job    : Option Nat := none
  dst    : Nat := 0
  out    : Bytes := []
  /-- Of a sampled job: opcode, reading of the take and epoch of admission (R445). -/
  sample : Option (Nat × Nat × Nat) := none
deriving DecidableEq, Repr

/-- A completion ring (R151 to R157). -/
structure Cq where
  log2      : Nat := 0
  vector    : Nat := 0
  base      : Nat := 0
  indexBase : Nat := 0
  producer  : Nat := 0
  head      : Nat := 0
  posted    : Nat := 0
  timerUs   : Nat := 0
  count     : Nat := 1
  unsig     : Nat := 0
  timer     : Option Nat := none
  badHead   : Bool := false
  reserved  : Nat := 0
  /-- EPOCH of an index block without a completion that waits for Bus Master Enable (R118, R146). -/
  idxDue    : Option Nat := none
  /-- Completions ready to be written, in posting order. -/
  ready     : List Completion := []
deriving DecidableEq, Repr

/-- A function (R96 to R118). -/
structure FnState where
  present    : Bool := false
  tenant     : Nat := 0
  gen        : Nat := 0
  ready      : Bool := false
  resetting  : Bool := false
  destroying : Bool := false
  /-- JOB_IDs of INSTANCE_RESET and INSTANCE_DESTROY commands that wait for the reset. -/
  waiters    : List Nat := []
  g          : Grants := {}
  queues     : KMap Queue := []
  cqs        : KMap Cq := []
  msix       : Msix := {}
  d3hot      : Bool := false
  bme        : Bool := false
  /-- Memory Space Enable (R118). -/
  mse        : Bool := false
  /-- Grants of destroyed instances that some job dispatched under them still holds: its JOB_IDs and the grants (R106). -/
  past       : List (List Nat × Grants) := []
  /-- Class and address of the first uncorrectable error, which the AER header log keeps (R91, R119). -/
  aerFirst   : Option (Nat × Nat) := none
  /-- Pool increase of OUTSTANDING reserved for a staged INSTANCE_SHARE (R109). -/
  reservedOut : Nat := 0
deriving DecidableEq, Repr

/-- What the device sends out: memory writes, messages, register read data, AER reports, management packets,
card-port signals, in the order of sending. -/
inductive Out where
  /-- A memory write of a function; DST data writes set Relaxed Ordering (R91). -/
  | write (fn addr : Nat) (data : Bytes) (relaxed : Bool := false)
  | msix (fn vector : Nat)
  | readData (data : Bytes)
  | unsupported
  | aer (fn cls : Nat)
  | mgmt (b : Binding) (data : Bytes)
  | card (port code arg : Nat) (data : Bytes)
  /-- A Band flit on a port of a die (R24). -/
  | flit (die port : Nat) (data : Bytes)
  | flash (data : Bytes)
  | pin (name : String) (level : Bool)
deriving DecidableEq, Repr

/-- A record of the event recorder before it is written to flash (R396). -/
structure EvRec where
  time    : Nat
  code    : Nat
  die     : Nat
  trusted : Bool
  cont    : Bool
  cls     : Nat
  data    : Bytes
deriving DecidableEq, Repr

/-- A record in flash (R396). -/
structure FlashRec where
  number : Nat
  r      : EvRec
  mac    : Bytes
deriving DecidableEq, Repr

/-! ## Rule banks and fences (R35 to R37, R75, R76) -/

/-- A close entry: game, SECONDS and NS of its close Stamp (R79). -/
structure CloseEntry where
  game    : Nat
  seconds : Nat
  ns      : Nat
deriving DecidableEq, Repr

/-- A key slot (R292 to R295). -/
structure KeySlot where
  gen     : Nat := 0
  /-- 0 EMPTY, 1 PENDING, 2 ACTIVE, 3 CLOSING, 4 RETIRED. -/
  st      : Nat := 0
  wide    : Bool := false
  purpose : Nat := 0
  alg     : Nat := 0
  tenant  : Nat := 0
  game    : Nat := 0
  first   : Nat := 0
  last    : Nat := 0
  origin  : Nat := 0
  flags   : Nat := 0
  span    : Nat := 1
  wideIdx : Nat := 0
  index   : Nat := 0
  /-- Modulus length of an RSA key in bytes. -/
  rsaLen  : Nat := 0
  mat     : Bytes := []
  pub     : Bytes := []
deriving DecidableEq, Repr
/-- A rule bank: what admission reads (R35). -/
structure Bank where
  /-- Close tables by tenant (R79). -/
  close  : KMap (List CloseEntry) := []
  /-- FN_SPLIT [9:0] by function, LEDGER bits excepted (R43). -/
  split  : KMap Nat := []
  /-- LEDGER policy by tenant (R111). -/
  ledgerPol : KMap Nat := []
  /-- Curve tables in force, by tenant × 16 + table (R265). -/
  curves : KMap Bytes := []
  /-- Key slots that are not EMPTY or have a generation (R292). -/
  slots  : KMap KeySlot := []
deriving DecidableEq, Repr

/-- A staged change (R37). -/
inductive Change where
  | closeSet (tenant : Nat) (e : CloseEntry)
  | closeRetire (tenant game : Nat)
  | splitSet (fn policy mask : Nat)
  | ledgerPol (tenant policy : Nat)
  | shareRing (fn ring burst weight creation : Nat)
  | shareInst (fn outstanding budget reserved : Nat)
  | epcParams (mask : Nat) (p : EpcParams)
  | ledgerCfg (tenant : Nat) (mask key batch deadline : Nat)
  | reseed (period : Nat)
  | curve (tenant table : Nat) (block : Bytes)
  /-- A key slot's contents at T (R296), with TARGET as submitted (R299). -/
  | key (slot : Nat) (k : KeySlot) (sub : Nat)
  | authority (install : Bool) (aki key : Bytes) (sub : Nat)
  | retire (tenant sub : Nat)
  /-- TMP_CONFIGURE: code, class, ENABLE and ACTIVE_HIGH (R393). -/
  | tmp (code cls : Nat) (en high : Bool)
  /-- CNT_CONFIGURE: dies, counter, event, filter, threshold, CLEAR (R441). -/
  | cnt (dies : List Nat) (n ev : Nat) (filter : Option Nat) (thr : Nat) (clear : Bool)
  /-- CNT_SNAPSHOT_SET (R443). -/
  | snap (x : Bool) (log2 period base index : Nat)
  /-- CNT_SAMPLE_CONFIGURE (R444). -/
  | sample (dies : List Nat) (mode jobPer fwPer fn : Nat)
deriving DecidableEq, Repr

/-! ## Jobs (R123, R140) -/

/-- Where a taken job is. -/
inductive Phase where
  /-- In an internal Band ring of its die (R140). -/
  | ring
  /-- Admitted; its fragment table is being read (R130). -/
  | table
  /-- Admitted; its source is being read (R141). -/
  | source
  /-- On an engine or waiting for one (R176, R280). -/
  | engine
  /-- In the completion collector of its die (R190). -/
  | collector
  /-- Its leaf or result is in the Crown's ingress (R191). -/
  | ingress
  /-- Its leaf is staged at the sequencer (R187). -/
  | sequenced
  /-- A fenced change waits to be staged (R76). -/
  | fence
  /-- Waits for something that a later event brings: entropy, a persistent image write, a quorum, a reset, a proof, a test. -/
  | wait (why : Nat)
  /-- Finished; the completion waits for its place (R151). -/
  | done
deriving DecidableEq, Repr

/-- A leaf (R185): header, digest and pad. -/
structure Leaf where
  header : Bytes
  rd     : Bytes
  tpad   : Bytes
deriving DecidableEq, Repr

/-- A draw (R240 to R254): pending, running or resolved. -/
structure Draw where
  id      : Nat := 0
  tenant  : Nat := 0
  fn      : Nat := 0
  /-- OP of R242: 0 without replacement, 1 with replacement, 2 shuffle. -/
  op      : Nat := 0
  n1      : Nat := 0
  count   : Nat := 0
  game    : Nat := 0
  sched   : Bool := false
  host    : Bool := false
  flagged : Bool := false
  target  : Nat := 0
  limit   : Nat := 3600
  handle  : Nat := 0
  w       : Nat := 0
  defn    : Bytes := []
  /-- Acceptance: Stamp, epoch, device-clock reading. -/
  stamp   : Stamp := {}
  epoch   : Nat := 0
  accAt   : Nat := 0
  /-- STATE of R252: 0 committed, 1 held, 2 awaiting a mapping, 3 result, 4 void, 5 outcome lost. -/
  st      : Nat := 0
  heldOnce : Bool := false
  /-- The pending entry is in the image (R246). -/
  imaged  : Bool := false
  /-- Restored at start-up with its target passed (R253). -/
  passed  : Bool := false
  commitSeq : Nat := 0
  restated : Bool := false
  /-- Boundary at which it was started and may run (R247). -/
  due     : Option Nat := none
  /-- Device-clock reading from which it waits for entropy (R234). -/
  waitT   : Option Nat := none
  die     : Nat := 0
  exec    : Nat := 0
  runStamp : Stamp := {}
  late    : Bool := false
  seedDig : Bytes := []
  outDig  : Bytes := []
  wordsDig : Bytes := []
  outcome : Bytes := []
  void    : Nat := 0
  /-- A result or void leaf that is not yet appended, then its header as appended and its sequence number (R242). -/
  leaf    : Option Leaf := none
  header  : Bytes := []
  leafSeq : Nat := 0
  /-- The header of the commitment leaf, and a commitment that is to be stated again and is not yet appended (R246, R254). -/
  commitHead : Bytes := []
  restate : Bool := false
  committed : Bool := false
  /-- A die fence has made it run again (R257). -/
  rerun   : Bool := false
  /-- The record awaits its signature (R244). -/
  signing : Bool := false
  record  : Bytes := []
deriving DecidableEq, Repr

/-- A taken job. -/
structure Job where
  fn       : Nat := 0
  tenant   : Nat := 0
  ring     : Nat := 0
  gen      : Nat := 0
  idx      : Nat := 0
  creation : Nat := 0
  d        : Desc := ⟨[]⟩
  die      : Nat := 0
  /-- MARK of the internal ring entry: 1 once the job has been squashed (R142). -/
  mark     : Nat := 0
  phase    : Phase := .ring
  takenAt  : Nat := 0
  /-- Device-clock reading of the admission, and the authority keys as an EPC_BEACON found them there (R36, R60). -/
  admAt    : Nat := 0
  auths    : List Authority := []
  /-- Number of the admission on its die: the order in which jobs leave the Seal scheduler (R176). -/
  admNo    : Nat := 0
  stamp    : Stamp := {}
  epoch    : Nat := 0
  /-- The Stamp at the arrival of the last source byte (R170), and whether the source read has failed before admission (R141). -/
  arrived  : Option Stamp := none
  srcBad   : Bool := false
  frags    : Bytes := []
  srcLen   : Nat := 0
  src      : Bytes := []
  /-- PSN (R161) or DRAW_ID (R240). -/
  psn      : Nat := 0
  moved    : Bool := false
  /-- Core or lane from which a fault has moved the job; it runs on another one (R46). -/
  bar      : Option Nat := none
  /-- The result is that of a failed admission, which a fault replaces while the completion has not been posted (R18). -/
  refused  : Bool := false
  /-- FN_SPLIT of the function as its admission read it (R36, R43). -/
  split    : Nat := 0
  flagged  : Bool := false
  hostRun  : Bool := false
  target   : Nat := 0
  waitT    : Nat := 0
  tmp      : Nat := 0
  tmp2     : Nat := 0
  data     : Bytes := []
  c        : Completion := {}
  /-- The slot named at admission, as it stood then (R36). -/
  key      : Option KeySlot := none
  /-- SECONDS and NS of the close of the named game at admission (R170). -/
  closeAt  : Option (Nat × Nat) := none
  leaf     : Option Leaf := none
  /-- STATUS, INFO and Result bytes that the engine computed. -/
  st       : Nat := 0
  info     : Nat := 0
  result   : Bytes := []
  /-- The draw of a DRAW, SHUFFLE or DRAW_MAP (R240). -/
  draw     : Option Draw := none
  /-- The leaf has been appended, though the job is not finished (R187, R245). -/
  appended : Bool := false
  /-- The curve block named, as it stood at admission (R266). -/
  curve    : Bytes := []
  /-- Core or lane that ran the job, and how often it was suspended (R268). -/
  lane     : Nat := 0
  suspends : Nat := 0
  /-- The slot that a key command has allocated, with its contents at T (R292, R305). -/
  slot     : Option (Nat × KeySlot) := none
  /-- The job is sampled (R444). -/
  sampled  : Bool := false
  /-- The batch that a signing job of the device's own is for (R198), and the reading from which a job waits for an internal DRBG (R234). -/
  batch    : Option Nat := none
  entWait  : Option Nat := none
deriving DecidableEq, Repr

/-! ## Dies (chapter 01) -/

/-- STAGED of a die (R37). -/
structure Staged where
  target    : Nat
  confirmed : Bool := false
  /-- The changes, each with the JOB_ID of its command. -/
  changes   : List (Nat × Change) := []
deriving DecidableEq, Repr

/-- A MAC core, a Reckoner lane or a tree hasher: fault times within one second, retired (R46, R47), the job it runs. -/
structure Unit where
  faults  : List Nat := []
  retired : Bool := false
  /-- Key cache of a MAC core: slot and generation (R177). -/
  cache   : List (Nat × Nat) := []
  job     : Option Nat := none
  /-- The suspended job of a lane (R259, R281). -/
  susp    : Option Nat := none
  /-- The key register of the running context and that of the suspended one, filled after validation (R259), and the blinding values that
  each context holds in its beads (R258, R276). -/
  key       : Bytes := []
  suspKey   : Bytes := []
  blind     : Bytes := []
  suspBlind : Bytes := []
deriving DecidableEq, Repr

/-- A flit before it has its sequence number (R24): class, destination and source die, message type, MSGARG and payload. -/
structure Flit where
  cls  : Nat := 0
  dst  : Nat := 0
  src  : Nat := 0
  typ  : Nat := 0
  arg  : Nat := 0
  body : Bytes := []
deriving DecidableEq, Repr

/-- A Band port (R23 to R28): width, sequence numbers sent, acknowledged and received, replays of the oldest flit, retrains within
one second, and the readings of its latest flits. -/
structure BandPort where
  /-- The retry buffer: the latest 128 flits that are not acknowledged, oldest first, with their sequence numbers (R25). -/
  retry    : List (Nat × Flit) := []
  /-- Flits that wait to be sent: urgent, control and data (R28). -/
  urgent   : List Flit := []
  control  : List Flit := []
  data     : List Flit := []
  wide     : Nat := 4
  down     : Bool := false
  training : Bool := false
  retrains : List Nat := []
  txSeq    : Nat := 0
  acked    : Nat := 0
  rxSeq    : Nat := 0
  nak      : Bool := false
  replays  : Nat := 0
  lastRx   : Nat := 0
  lastTx   : Nat := 0
deriving DecidableEq, Repr
/-- A CTR_DRBG: Key and V, 48 bytes (SP 800-90A), and the requests since its last seed (R231, R232). -/
structure Drbg where
  v        : Bytes := []
  requests : Nat := 0
deriving DecidableEq, Repr
/-- A draw DRBG of a die (R231, R239): its tenant, its place on the die, the job that holds it, whether it is instantiated. -/
structure DrawDrbg where
  tenant : Nat
  index  : Nat := 0
  busy   : Option Nat := none
  ready  : Bool := false
  drbg   : Drbg := {}
deriving DecidableEq, Repr
/-- What the Crown sends in a die's ack stream: an ack of a leaf that has been appended (R187), with whether the host builds its root (R210),
or the marker CLOSE(E) (R193). -/
inductive Ack where
  | leaf (tenant epoch seq : Nat) (host : Bool)
  | close (epoch : Nat)
deriving DecidableEq, Repr
/-- A subtree that a die builds (R192): leaves folded so far, and one node for each set bit of their count, the smallest first. -/
structure Subtree where
  tenant : Nat
  epoch  : Nat
  count  : Nat := 0
  nodes  : List (Nat × Bytes) := []
deriving DecidableEq, Repr
/-- A leaf that waits for its append at the sequencer: of a job, the result or void leaf of a draw, or a commitment stated again (R187, R254). -/
inductive Elig where
  | job (id : Nat)
  | draw (id : Nat)
  | restate (id : Nat)
deriving DecidableEq, Repr
/-- A bow (R223): its state code and the times of its failures within 60 s (R226). -/
structure Bow where
  st    : Nat := 0
  fails : List Nat := []
deriving DecidableEq, Repr
/-- A world of a die (R409): 0 running, 1 restarting, 2 stopped; its restarts, and their times within 60 s; halted by the debug port;
its image copy damaged. -/
structure World where
  st       : Nat := 0
  restarts : Nat := 0
  times    : List Nat := []
  halted   : Bool := false
  /-- The image copy in Mandrel memory holds an uncorrectable word (R32). -/
  imageBad : Bool := false
deriving DecidableEq, Repr

/-- An entry of a gate table (R406). -/
structure GateEntry where
  entry   : Nat
  target  : Nat
  callers : Nat
  args    : Nat
  flags   : Nat
  mboxLen : Nat
deriving DecidableEq, Repr

/-- A region descriptor of an access check unit (R414); masks of kinds (R 1, W 2, X 4), worlds and masters. -/
structure Region where
  base    : Nat
  limit   : Nat
  kinds   : Nat
  worlds  : Nat
  masters : Nat
  cache   : Nat
  order   : Nat
  locked  : Bool
deriving DecidableEq, Repr

/-- A die's Mandrel core and access check units: the worlds, the world that runs (0 hypervisor, 1 key, 2 service), its argument
registers a0 to a5, saved contexts (world, whether by GATE, registers), gate tables of the key and the service world, region descriptors by unit, and the last report (R419). -/
structure Mandrel where
  kw       : World := {}
  sw       : World := {}
  cur      : Nat := 2
  regs     : List Nat := [0, 0, 0, 0, 0, 0]
  entry    : Nat := 0
  saved    : List (Nat × Bool × List Nat) := []
  gatesK   : List GateEntry := []
  gatesS   : List GateEntry := []
  regions  : List (List Region) := []
  viols    : Nat := 0
  region   : Nat := 0
  kind     : Nat := 0
  reason   : Nat := 0
  master   : Nat := 0
  addr     : Nat := 0
  /-- REQUESTED, HELD and GATED of PWR_GATE_Dn; requests held already recorded, and when each was held (R412). -/
  req      : Nat := 0
  held     : Nat := 0
  gated    : Nat := 0
  noted    : Nat := 0
  heldAt   : KMap Nat := []
deriving DecidableEq, Repr

/-- A sampling record (R445), before it is written out. -/
structure SampleRec where
  fn    : Nat
  bytes : Bytes
deriving DecidableEq, Repr

/-- Sampling of a die (R444 to R446): MODE, periods, FUNCTION, jobs since the last sampled one, records, DROPPED. -/
structure Sampler where
  mode    : Nat := 0
  jobPer  : Nat := 1
  fwPer   : Nat := 1
  fn      : Nat := 0xFFFF
  seen    : Nat := 0
  recs    : List SampleRec := []
  full    : Bool := false
  dropped : Nat := 0
deriving DecidableEq, Repr
/-- One of a die's 64 counters (R439). -/
structure Counter where
  value  : Nat := 0
  sat    : Bool := false
  ev     : Nat := 0
  filter : Option Nat := none
  thr    : Nat := 0
deriving DecidableEq, Repr

/-- One die. -/
structure Die where
  /-- In service: its bit of LIVE_MASK. -/
  live    : Bool := false
  fenced  : Option Nat := none
  /-- Engines halted by R51. -/
  halted  : Bool := false
  epoch   : Nat := 0
  bank    : Bank := {}
  staged  : Option Staged := none
  pollIv  : Nat := 2
  /-- Internal rings P and G: JOB_IDs not yet polled, and the die's consumer index. -/
  ringP   : List Nat := []
  ringG   : List Nat := []
  consP   : Nat := 0
  consG   : Nat := 0
  turnG   : Bool := false
  cores   : List Unit := []
  lanes   : List Unit := []
  /-- The SHA-384 tree hashers (R29). -/
  hashers : List Unit := []
  collector : List Nat := []
  /-- Skid buffers of the engine outputs: kind of engine, its number, the job whose result it holds (R190). -/
  skid    : List (Nat × Nat × Nat) := []
  /-- The ack stream not yet read, the tree buffer (tenant, sequence number, LEAF) and the subtrees (R187, R189, R192). -/
  acks    : List Ack := []
  treeBuf : List (Nat × Nat × Bytes) := []
  subtrees : List Subtree := []
  ports   : List BandPort := [{}, {}, {}, {}]
  /-- The Seal scheduler's queue, and the number of the next admission (R176). -/
  macQ    : List Nat := []
  admCount : Nat := 0
  /-- SEAL_CORES_Dn.HEALTHY is shown from the end of start-up step 7 (R183). -/
  coresUp : Bool := false
  /-- RNG_STATUS_Dn.READY and REINSTANTIATING (R256). -/
  rngReady : Bool := false
  rngReinst : Bool := false
  drawDrbgs : List DrawDrbg := []
  bows    : List Bow := [{}, {}, {}, {}]
  /-- The carder's 256-bit register, the blocks that the release stage holds, the released output in the FIFO, oldest first, and 256-bit
  blocks still to be discarded after a reload (R222, R225). -/
  carder  : Bytes := []
  stage   : List Bytes := []
  fifo    : Bytes := []
  discard : Nat := 0
  katFail : Bool := false
  /-- RNG_HEALTH_Dn (R256): RCT_FAILS, APT_FAILS, BIAS_FAILS, SWITCHES. -/
  rct     : Nat := 0
  apt     : Nat := 0
  bias    : Nat := 0
  switches : Nat := 0
  /-- The DRBGs of the functions, those of KEYGEN, NONCE and BLIND (0, 1, 2), and the counter that gives their nonces (R231). -/
  fnInst  : KMap Drbg := []
  intInst : KMap Drbg := []
  nonces  : Nat := 0
  /-- Instances that the running reseed round has still to reseed (R233). -/
  roundLeft : Nat := 0
  /-- The Reckoner queue, those of it that wait for a curve table, and the curve cache: tenant, table and block,
  most recently used first (R258, R266, R280). -/
  rq      : List Nat := []
  fetching : List Nat := []
  curveCache : List (Nat × Nat × Bytes) := []
  /-- PKE_FAULTS_Dn (R287). -/
  verifyFail : Nat := 0
  laneFault : Nat := 0
  /-- Uncorrectable memory errors (R32). -/
  memErrors : Nat := 0
  /-- Superseded generations that the die still holds: slot and generation (R297). -/
  held    : List (Nat × Nat) := []
  /-- Slots being refetched from the Crown after an uncorrectable error (R32). -/
  refetch : List Nat := []
  /-- Counters that differ from the cleared, unused counter (R439). -/
  cnt     : KMap Counter := []
  mandrel : Mandrel := {}
  sampler : Sampler := {}
  /-- IDLE (R461); key store inverted, a pass running, passes (R466); seed of the shield's generator (R373). -/
  idle    : Bool := false
  inverted : Bool := false
  passing : Bool := false
  passes  : Nat := 0
  shield  : Bytes := [0, 0, 0, 0, 0, 0, 0, 0]
  /-- The Crown's copy of the per-die registers at the fence, by window × 256 + offset (R482). -/
  frozen  : KMap Nat := []
deriving DecidableEq, Repr

/-- A target of the fence schedule (R76): the changes with the JOB_ID that brought each, in acceptance order. -/
structure FenceTarget where
  target    : Nat
  changes   : List (Nat × Change) := []
  staging   : Bool := false
  staged    : Bool := false
  acks      : List Nat := []
  confirmed : Bool := false
deriving DecidableEq, Repr

/-- A tenant: its grants, if it has any (R99), and its use counters. -/
structure Tenant where
  granted : Bool := false
  g       : TenantGrants := {}
  /-- Pending TENANT_RETIRE target; the tenant is closed to work from then on (R318). -/
  retiring : Option Nat := none
  /-- SALT_t (R288). -/
  salt    : Option Bytes := none
deriving DecidableEq, Repr
/-- A journal entry (R188). -/
structure JEntry where
  leaf  : Leaf
  seq   : Nat
  epoch : Nat
  die   : Nat
  tenant : Nat
deriving DecidableEq, Repr

/-- A journal page (R214): up to 32 entries of one epoch; in SRAM or in the journal store. -/
structure JPage where
  no      : Nat
  epoch   : Nat
  entries : List JEntry := []
  closed  : Bool := false
  sram    : Bool := true
  store   : Bool := false
deriving DecidableEq, Repr

/-- The epoch index (R204, R214). -/
structure EpochIdx where
  epoch : Nat
  first : Nat
  count : Nat
  pd    : Bytes
deriving DecidableEq, Repr

/-- A host submission for an epoch (R211, R212): counts, roots, challenged sequence numbers, those proven. -/
structure HostSub where
  roots  : List Bytes
  chal   : List Nat
  proven : List Nat := []
deriving DecidableEq, Repr

/-- An epoch of a tenant whose root is not final (R193, R210). -/
structure PendRoot where
  epoch    : Nat
  firstSeq : Nat
  lastSeq  : Nat
  counts   : List Nat
  /-- DIE_ROOT as each die holds it. -/
  dieVal   : List Bytes
  /-- DIE_ROOT as the Crown has received or rebuilt it. -/
  roots    : List (Option Bytes)
  rebuilt  : Nat := 0
  lost     : Nat := 0
  /-- Dies whose returned root was discarded for its count (R193). -/
  discarded : Nat := 0
  host     : Bool := false
  fallback : Bool := false
  closedAt : Nat := 0
  sub      : Option HostSub := none
deriving DecidableEq, Repr

/-- A ledger record (R203) with RECORD_NO 0, and what chaining and batching need of it. -/
structure Record where
  /-- 1 ROOT, 2 BATCH, 3 LEAF, 4 DISCONTINUITY, 5 PACKAGE. -/
  typ     : Nat
  /-- 0xFFFF for package records. -/
  tenant  : Nat
  epoch   : Nat
  lastSeq : Nat
  leaves  : Nat
  body    : Bytes
  chain   : Bytes
  bytes   : Bytes
deriving DecidableEq, Repr

/-- A batch that has closed (R198) and waits for its records to be final or for its signature. -/
structure Batch where
  tenant : Nat
  first  : Nat
  last   : Nat
  key    : Nat
  recs   : Nat := 0
  lastSeq : Nat := 0
  chain  : Bytes := []
  /-- Its number in closing order, the epoch of its last covered record, and its verified signature with the code of
  its algorithm (R198, R217). -/
  no     : Nat := 0
  lastEpoch : Nat := 0
  sig    : Option (Nat × Bytes) := none
deriving DecidableEq, Repr

/-- A ledger: of a tenant, or of the package (R186, R194, R195, R197). -/
structure Ledger where
  nextSeq : Nat := 1
  chain   : Bytes := List.replicate 48 0
  prevEpoch : Nat := 0
  lastSeq : Nat := 0
  key     : Nat := 0
  batch   : Nat := 1
  deadline : Nat := 10
  pend    : List PendRoot := []
  /-- Final records that no closed batch covers, oldest first. -/
  uncovered : List Record := []
  /-- Closed batches whose records are not all final (R198). -/
  closing : List Batch := []
  /-- CHAIN, EPOCH and LAST_SEQ of the last record that a signed batch covers (R217). -/
  sChain  : Bytes := List.replicate 48 0
  sEpoch  : Nat := 0
  sSeq    : Nat := 0
  /-- A DISCONTINUITY record prepared at start-up: FIRST_MISSING, LAST_MISSING, CAUSE (R219). -/
  disc    : Option (Nat × Nat × Nat) := none
  /-- Declared gaps (R219). -/
  gaps    : List (Nat × Nat) := []
  /-- Sequence ranges whose die root is lost, by die and epoch (R216). -/
  lostRoots : List (Nat × Nat) := []
  /-- 1 more than the latest epoch of a record that has left the root store (R204). -/
  evicted : Nat := 0
  /-- A pending host submission lapsed with the fallback of its epoch (R213). -/
  lapsed  : Bool := false
deriving DecidableEq, Repr

/-- A ledger ring (R201, R202). -/
structure LRing where
  owner  : Nat
  scope  : Nat
  tenant : Nat
  idx    : Nat
  log2   : Nat
  vector : Nat
  opts   : Nat
  base   : Nat
  index  : Nat
  written : Nat := 0
  records : Nat := 0
  epoch  : Nat := 0
  lastSeq : Nat := 0
  leafMsgAt : Nat := 0
  leafDue : Bool := false
  /-- Records that wait, in chain order, until the owner makes memory requests again (R118, R202). -/
  held   : List Record := []
deriving DecidableEq, Repr

/-- A ledger's values in a checkpoint (R217). -/
structure CkptRow where
  tenant : Nat
  nextSeq : Nat
  chain  : Bytes
  epoch  : Nat
  lastSeq : Nat
deriving DecidableEq, Repr

/-- A ledger checkpoint (R217). -/
structure Ckpt where
  clean  : Bool
  rows   : List CkptRow
  pkg    : CkptRow
  signed : Nat
deriving DecidableEq, Repr
/-- An enrolled card (R310): serial and P-256 public key. -/
structure CardId where
  serial : Bytes
  key    : Bytes
deriving DecidableEq, Repr

/-- A role's roster and M (R310). -/
structure Roster where
  m     : Nat := 0
  cards : List CardId := []
deriving DecidableEq, Repr

/-- A quorum session (R312): 0 idle, 1 collecting, 2 open. -/
structure Session where
  st      : Nat := 0
  num     : Nat := 0
  cards   : List Bytes := []
  endAt   : Nat := 0
  intent  : Bytes := []
  collect : Bool := false
  comps   : List Bytes := []
  job     : Option Nat := none
deriving DecidableEq, Repr

/-- One copy of the persistent key-store image (R299): its VERSION, the LK it is encrypted under, the MN of its blobs and of the
second set of R291, and what it holds. -/
structure Image where
  ver     : Nat
  lk      : Bytes
  mn      : Option Bytes := none
  alt     : Option Bytes := none
  slots   : KMap KeySlot := []
  /-- Pending key changes with TARGET as submitted. -/
  pend    : List Change := []
  salts   : KMap Bytes := []
  rosters : List Roster := []
  auths   : List Authority := []
  epc     : EpcParams := {}
  psn     : Nat := 0
  period  : Option Nat := none
  /-- Key, batch length and deadline of each ledger (R197). -/
  config  : KMap (Nat × Nat × Nat) := []
  ckpt    : Option Ckpt := none
  signedTo : Nat := 0
  draws   : List Draw := []
  curves  : KMap Bytes := []
  /-- Classes, ENABLE and ACTIVE_HIGH of the tamper configuration (R393); none while it has not been written. -/
  tamper  : Option (List Nat × Nat × Nat) := none
deriving DecidableEq, Repr

/-- What the Crown's key world holds in SRAM (R288, R310 to R313, R321). -/
structure Vault where
  /-- The package root, unwrapped or volatile. -/
  pr         : Option Bytes := none
  /-- KW_DIGEST of the running key-world image. -/
  kw         : Bytes := []
  restored   : Bool := false
  imageFault : Bool := false
  blobFaults : Nat := 0
  rosters    : List Roster := [{}, {}, {}, {}]
  sessions   : List Session := [{}, {}, {}, {}]
  nextSession : Nat := 1
  accepted   : Nat := 0
  refused    : Nat := 0
  incomplete : Nat := 0
  /-- The second MN of a KEY_MIGRATE (R291). -/
  alt        : Option Bytes := none
  /-- The volatile die roots of BLANK (R288, R348). -/
  roots      : List (Option Bytes) := List.replicate 8 none
deriving DecidableEq, Repr
/-- What a card port waits for in an exchange (R340). -/
inductive CardStep where
  | idle | powering | reset | answer | answerData | switch | modeCheck | off | status
  | writeCmd | token | busy | commit | commitCheck | sign | read | readData | checking
deriving DecidableEq, Repr

/-- A custodian card port (R322 to R346). -/
structure Port where
  enable  : Bool := true
  vcard   : Bool := false
  maxSpeed : Nat := 2
  width4  : Bool := true
  present : Bool := false
  powered : Bool := false
  phase   : Nat := 0
  speed   : Nat := 0
  wide    : Bool := false
  result  : Nat := 0
  changed : Bool := false
  reason  : Nat := 0
  crcErrors : Nat := 0
  timeouts : Nat := 0
  removals : Nat := 0
  step    : CardStep := .idle
  /-- The lines CLK, CMD and D[3:0] are driven low: while PWR_EN is low, and until the first clocks after it (R324, R340). -/
  linesLow : Bool := true
  /-- Times the present command has been sent again, and the present block or COMMIT; a STATUS after a timeout is out (R337). -/
  again   : Nat := 0
  redo    : Nat := 0
  probing : Bool := false
  waits   : Nat := 0
  /-- Mode attempt of R336, and the card's state as last reported. -/
  attempt : Nat := 0
  cardSt  : Nat := 0
  /-- Reset Answer, and VCARD, MAX_SPEED and WIDTH4 as in force since power-up (R346). -/
  answer  : Bytes := []
  vNow    : Bool := false
  speedNow : Nat := 2
  wideNow : Bool := true
  enrol   : Option Nat := none
  role    : Nat := 0
  session : Nat := 0
  block   : Bytes := []
  eph     : Bytes := []
  resp    : Bytes := []
deriving DecidableEq, Repr
/-- Life-cycle states (R347). -/
inductive Lcs where
  | blank | test | provision | field | ret | scrap | invalid
deriving DecidableEq, Repr
/-- OTP (R349), kept through everything: the Crown's words 0 to 7, the intent bytes of TEST to SCRAP, token digest slots 1 to 5,
PACKAGE_ID, ORIGIN, K and polarity with their marker, DR_d of each die, the package root that W_d wraps on each die, and dies
whose OTP is filled (R361). -/
structure Otp where
  words   : List Nat := List.replicate 8 0
  intents : List Nat := [0, 0, 0, 0, 0]
  slots   : List Bytes := List.replicate 5 (List.replicate 48 0)
  packageId : Bytes := List.replicate 16 0
  origin  : Nat := 0
  k       : Nat := 0
  falling : Bool := false
  marker  : Bool := false
  dr      : List (Option Bytes) := List.replicate 8 none
  w       : List (Option Bytes) := List.replicate 8 none
  filled  : List Nat := []
deriving DecidableEq, Repr

/-- One programming of OTP: an intent byte, a life-cycle word, W_d of a die, the rest of a die's OTP (R356); a word of a token digest slot (R353);
the words of the epoch values and their marker (R362). -/
inductive OtpStep where
  | intent (target : Nat)
  | word (i v : Nat)
  | wipeW (die : Nat)
  | fill (die : Nat)
  | slotWord (slot i : Nat) (v : Bytes)
  | originLow (v : Nat)
  | originHigh (v : Nat)
  | kWord (k : Nat) (falling : Bool)
  | marker
deriving DecidableEq, Repr

/-- A command that programs OTP words: the programmings left, and failures of the first (R353, R362). -/
structure Burn where
  job   : Nat
  fails : Nat := 0
  todo  : List OtpStep := []
deriving DecidableEq, Repr

/-- A transition that has passed R355. -/
structure Trans where
  job    : Nat
  target : Nat
  from_  : Nat
  imaged : Bool := false
  fails  : Nat := 0
  todo   : List OtpStep := []
deriving DecidableEq, Repr

/-- Life-cycle and debug state that a package reset clears (R371). -/
structure Life where
  resetRequired : Bool := false
  unlocked  : Bool := false
  otpFault  : Bool := false
  trans     : Option Trans := none
  burn      : Option Burn := none
  /-- Key commands answer LOCKED after a KW_INV grant (R368). -/
  keysShut  : Bool := false
  enables   : Nat := 15
  granted   : Nat := 0
  grantOn   : Bool := false
  /-- The pending challenge and the reading at which it was issued (R365, R367). -/
  challenge : Option (Bytes × Nat) := none
deriving DecidableEq, Repr
/-- A lining-log entry (R387): NUMBER, CODE, CLASS byte, STAMP (none when LINING_ONLY), DIE, DETAIL, lining count, COPIED. -/
structure LiningEntry where
  num    : Nat
  code   : Nat
  cls    : Nat
  stamp  : Option Stamp
  die    : Nat
  detail : Nat
  count  : Nat
  copied : Bool := false
deriving DecidableEq, Repr

/-- One copy of the carry record (R390): its VERSION, the PR that authenticates it, the carry set of R357 and the tamper configuration. -/
structure Carry where
  ver     : Nat
  pr      : Bytes
  rosters : List Roster
  auths   : List Authority
  epc     : EpcParams
  period  : Option Nat
  psn     : Nat
  signedTo : Nat
  classes : List Nat
  enable  : Nat
  high    : Nat
deriving DecidableEq, Repr

/-- A monitor instance under test: the command that asked for it, none at start-up; code, die and instance (R391). -/
structure MonTest where
  job  : Option Nat
  code : Nat
  die  : Nat
  inst : Nat
deriving DecidableEq, Repr

/-- Tamper state outside the lining domain (R372 to R395): the log array in OTP, the configuration of codes 0x01 to 0x11, what
alarms (code, die), what is tested, the microsecond of the latest entry (R379) and the two carry copies in flash. -/
structure Tamper where
  log      : List Bytes := []
  classes  : List Nat := [3, 3, 2, 2, 1, 1, 3, 2, 2, 2, 3, 2, 2, 2, 2, 2, 3]
  enable   : Nat := 15
  high     : Nat := 0
  alarming : List (Nat × Nat) := []
  tests    : List MonTest := []
  groupUs  : Option Nat := none
  liningLost : Bool := false
  carry    : List Carry := []
deriving DecidableEq, Repr

/-- A firmware bank in flash (R433 to R436): its state, SVN, whether its signature verifies, the reason of R435 for which it is
refused, 0 where it is well formed, and its image bytes. -/
structure FwBank where
  st     : Nat := 0
  svn    : Nat := 0
  signed : Bool := false
  bad    : Nat := 0
  image  : Bytes := []
deriving DecidableEq, Repr

/-- A firmware component: banks A and B, the active bank, a pending activation, the committed minimum SVN in OTP, and the bank that
runs since start-up, none when the component did not start. -/
structure FwComp where
  a       : FwBank := { st := 1 }
  b       : FwBank := {}
  active  : Nat := 0
  pending : Bool := false
  minSvn  : Nat := 0
  run     : Option Nat := none
deriving DecidableEq, Repr

/-- A PLDM update (R428, R435): binding, transfer size, state (1 learning, 2 ready, 3 downloading, 4 an
erase waits for the end of HOLD, 5 an activation waits for it), component, size and data so far. -/
structure Update where
  viaVdm : Bool
  block  : Nat
  st     : Nat := 1
  comp   : Nat := 0
  size   : Nat := 0
  data   : Bytes := []
deriving DecidableEq, Repr

/-- Firmware state: the Hatter, the key world, the service world; FALLBACK; an update in progress. -/
structure Fw where
  comps    : List FwComp := [{}, {}, {}]
  fallback : Bool := false
  upd      : Option Update := none
deriving DecidableEq, Repr

/-- An MCTP message being assembled on a binding (R425). -/
structure Assembly where
  tag  : Nat
  seq  : Nat
  at_  : Nat
  body : Bytes
deriving DecidableEq, Repr

/-- An SPDM connection of a binding (R429): 0 none, 1 version, 2 capabilities, 3 algorithms; its transcript, and that of the
measurements asked for. -/
structure SpdmConn where
  st   : Nat := 0
  vca  : Bytes := []
  auth : Bytes := []
  meas : Bytes := []
deriving DecidableEq, Repr

/-- The Hatter (R420 to R431): FN_MCTP, its endpoint IDs, assemblies, connections, PLDM terminus and event receiver, sensor readings
with the limits crossed (sensor × 2 + level), and platform events waiting for a poll. -/
structure Hatter where
  up        : Bool := true
  smbusAddr : Nat := 0x4C
  smbusOn   : Bool := true
  speed     : Nat := 1
  vdmOn     : Bool := true
  eidVdm    : Nat := 0
  eidSmb    : Nat := 0
  asmVdm    : Option Assembly := none
  asmSmb    : Option Assembly := none
  message   : Bytes := []
  tid       : Nat := 0
  recvMode  : Nat := 0
  recvVdm   : Bool := false
  recvEid   : Nat := 0
  events    : List Bytes := []
  readings  : KMap Int := []
  crossed   : List Nat := []
  spdmVdm   : SpdmConn := {}
  spdmSmb   : SpdmConn := {}
deriving DecidableEq, Repr

/-- The snapshot schedule of R443: the boundary T from which it counts, WRITTEN and snapshots taken. -/
structure Snap where
  on      : Bool := false
  log2    : Nat := 4
  period  : Nat := 1
  base    : Nat := 0
  index   : Nat := 0
  from_   : Nat := 0
  written : Nat := 0
  taken   : Nat := 0
deriving DecidableEq, Repr

/-- Power state (R452 to R474): main supplies off, rails that keep the package in HOLD, HOLD statistics, idle delay, RETAIN and wake,
a reset that PWR_RESET has asked for, PERST# asserted, a supply reset still to be recorded. -/
structure Power where
  off      : Bool := false
  rails    : List (Nat × Nat) := []
  holdRail : Nat := 0
  holdDie  : Nat := 0
  holdAt   : Nat := 0
  lowest   : Nat := 0
  holds    : Nat := 0
  longest  : Nat := 0
  idleUs   : Nat := 100
  retainAt : Nat := 0
  wakeCause : Nat := 0
  flrs     : List Nat := []
  resetAt  : Option Nat := none
  perst    : Bool := true
  supply   : Option (Nat × Nat) := none
  /-- Start-up step 7 has begun its monitor tests. -/
  booting  : Bool := false
deriving DecidableEq, Repr
/-- The lining domain (R385): kept while VLINING is up, through every package reset. -/
structure Lining where
  /-- Device-clock reading at which the lining counter was 0 (32,768 Hz, R386). -/
  zeroAt    : Nat := 0
  /-- Sync pair: lining count with the TAI SECONDS and NS it stands for. -/
  sync      : Option (Nat × Nat × Nat) := none
  /-- LK (R288), and the image counter (R299). -/
  lk        : Option Bytes := none
  imgCount  : Nat := 0
  /-- COUNT of R365 and UNLOCK_PENDING of R363. -/
  dbgCount  : Nat := 0
  unlockPending : Bool := false
  /-- CROWN_FAULT (R52, R385). -/
  crownFault : Bool := false
  /-- VLINING is in range; the domain came out of its own power-on reset and no start-up has noted it yet (R381, R453). -/
  up        : Bool := true
  fresh     : Bool := true
  /-- Ticks counted in lining-only operation, when the device clock does not run (log entry 1). -/
  extra     : Nat := 0
  lockLatch : Bool := false
  /-- LOCK_CAUSE and ERASED (R402). -/
  lockCause : Nat := 0
  erased    : Bool := false
  /-- Latches of R382: code, die, class applied; and those of the present lining-only period (R388). -/
  latches   : List (Nat × Nat × Nat) := []
  aloneLatches : List Nat := []
  /-- The lining log, oldest first, and its next NUMBER (R387). -/
  log       : List LiningEntry := []
  logNext   : Nat := 0
  unlogged  : Nat := 0
  overflow  : Nat := 0
  /-- Lining count at which the crystal failed; record 0x0A09 is still to be written (R455). -/
  xtalAt    : Option Nat := none
  xtalNote  : Bool := false
  /-- CAUSE and COUNT of PWR_RESET_CAUSE (R467, R474). -/
  cause     : Nat := 0
  resets    : Nat := 1
  /-- LK is held inverted (R465), and the LFSR seed of the lid mesh (R374). -/
  lkInv     : Bool := false
  mesh      : Bytes := [0, 0, 0, 0]
  /-- VERSION counter of the carry record (R390). -/
  carryCount : Nat := 0
deriving DecidableEq, Repr

/-- The machine. -/
structure State where
  part      : Part := .xz94
  grade     : Grade := .c
  rev       : Nat := 1
  time      : TimeState := {}
  ecfg      : EpochCfg := {}
  epc       : EpcParams := {}
  authorities : List Authority := []
  fns       : KMap FnState := []
  vfEnable  : Bool := false
  numVfs    : Nat := 0
  /-- The SR-IOV System Page Size is 64 KiB (R94). -/
  page64    : Bool := false
  tenants   : KMap Tenant := []
  jobs      : KMap Job := []
  nextJob   : Nat := 0
  /-- Number of the next creation of a ring (R109). -/
  nextCreation : Nat := 0
  rrAdmin   : Nat := 0
  rrService : Nat := 0
  rrWork    : Nat := 0
  /-- The work ring being visited and the takes left in the visit (R139). -/
  visit     : Option (Nat × Nat) := none
  /-- The microsecond of the latest takes, the takes in it, and those from admin rings and service queues (R136). -/
  takeUs    : Nat := 0
  takeCount : Nat := 0
  takeSvc   : Nat := 0
  dies      : List Die := []
  dieChanged : Bool := false
  crownFault : Bool := false
  fence     : List FenceTarget := []
  /-- FN_EVENT (R97): DIE, TIME_TRUST, RESET_DONE, LOCK, RING_STOPPED. -/
  fnEvent   : List Bool := [false, false, false, false, false]
  badOffset : Nat := 0
  badCount  : Nat := 0
  /-- The five read-only pairs' latches (R476): EPC_ORIGIN, EPC_EPOCH, SEAL_PSN_NEXT, SEAL_PSN_CEIL, LDG_APPENDED. -/
  latches   : List Nat := [0, 0, 0, 0, 0]
  linkWidth : Nat := 0
  linkSpeed : Nat := 0
  linkFatal : Bool := false
  evBuf     : List EvRec := []
  evFlash   : List FlashRec := []
  evNext    : Nat := 0
  evSuppressed : Nat := 0
  /-- Bursts being counted instead of stored: code, die, count (R397). -/
  evBursts  : List (Nat × Nat × Nat) := []
  /-- A write to the PF admin registers took effect: the next ENABLE writes a fresh index block (R147). -/
  pfFresh   : Bool := false
  /-- SEAL_PSN_NEXT and SEAL_PSN_CEIL (R161, R183). -/
  psnNext   : Nat := 0
  psnCeil   : Nat := 0
  psnWriting : Bool := false
  ledgers   : KMap Ledger := []
  pkg       : Ledger := {}
  /-- Tenant records that became final in the current epoch (R195). -/
  pkgFinal  : List Record := []
  pages     : List JPage := []
  pageNo    : Nat := 0
  /-- Running digest over closed pages (R214). -/
  pd        : Bytes := List.replicate 48 0
  epochIdx  : List EpochIdx := []
  /-- The root store: latest 4,096 records (R204). -/
  rootStore : List Record := []
  lrings    : List LRing := []
  signQ     : List Batch := []
  /-- Number of the next batch that closes (R198). -/
  batchNo   : Nat := 0
  /-- Leaves that may be appended, in the order in which they became eligible (R187). -/
  elig      : List Elig := []
  /-- The Crown's ingress: batches of JOB_IDs (R191). -/
  ingress   : List (List Nat) := []
  appended  : Nat := 0
  jsBase    : Nat := 0
  jsLog2    : Nat := 0
  jsActive  : Bool := false
  jsBad     : Bool := false
  storeFault : Bool := false
  storeStall : Bool := false
  quiesced  : Bool := false
  ckptOverdue : Bool := false
  /-- Device-clock reading of the latest completed checkpoint (R217). -/
  ckptAt    : Nat := 0
  /-- The checkpoint being written. -/
  ckptReq   : Option Ckpt := none
  /-- A CLEAN checkpoint must be rewritten before the first append (R217). -/
  ckptDirty : Bool := false
  lastCkptSec : Nat := 0
  /-- Draws, pending and resolved, by DRAW_ID (R241, R253). -/
  draws     : List Draw := []
  /-- P of the reseed schedule where an image or a command gave one, and T0 (R233). -/
  rngPeriod : Option Nat := none
  rngT0     : Nat := 0
  vault     : Vault := {}
  /-- The two flash copies of the image, newest first (R299). -/
  images    : List Image := []
  ports     : List Port := [{}, {}, {}, {}]
  /-- The life-cycle state decoded at start-up step 4 (R351). -/
  lcs       : Lcs := .blank
  otp       : Otp := {}
  life      : Life := {}
  lining    : Lining := {}
  /-- TMP_STATUS.LOCKED: the device is in LOCK (R378). -/
  locked    : Bool := false
  tamper    : Tamper := {}
  fw        : Fw := {}
  hatter    : Hatter := {}
  snap      : Snap := {}
  pwr       : Power := {}
  /-- PWR_STARTUP.STEP (R474): 11 when start-up is complete. -/
  startStep : Nat := 3
  /-- PWR_STATUS.STATE (R474): 0 ACTIVE. -/
  pwrState  : Nat := 0
  /-- PWR_STATUS.HOLD (R457). -/
  hold      : Bool := false
  /-- Free bytes consumed so far (log entry 4). -/
  free      : Nat := 0
  out       : List Out := []
  pending   : List Instr := []
deriving DecidableEq, Repr

/-- The PF instance of R100: bound to tenant 0, with the PF defaults. -/
def pfReset : FnState :=
  { present := true
    g := { workRings := 16, serviceQs := 32, complRings := 16, vectors := 64, outstanding := 4096, weightBudget := 4080 }
    queues := [(0x40, { st := .disabled, log2 := 6, cq := 16 })]
    cqs := [(16, { log2 := 6 })] }

/-- A die at package reset: 16 MAC cores, 6 lanes and 8 tree hashers, none retired (R29). A brim die comes into service with the end of
Band bring-up: until then LIVE_MASK reads 0x01 (R22). -/
def dieReset : Die :=
  { cores := List.replicate 16 {}, lanes := List.replicate 6 {}, hashers := List.replicate 8 {} }

/-- The dies of a part at package reset: the Crown in service, the brim dies not yet. -/
def diesReset (n : Nat) : List Die := { dieReset with live := true } :: List.replicate (n - 1) dieReset

/-- The machine right after the power-on package reset (R478; log entries 2 and 3). -/
def State.reset : State :=
  { fns := [(0, pfReset)]
    tenants := [(0, { granted := true, g := { narrow := 4096, wide := 128, close := 64, drbgs := 4 } })]
    dies := diesReset 4 }

end Sys2Proof.Machine
end

