-- ==== Sys2Proof/Machine/Ops.lean ====
section
/-! DEFINITION. Named operations over the state: maps, bytes, accessors, the clock, Stamps and trust (R54 to R74),
the event recorder's front end (R396, R397), package events (R97) and interrupt messages (R116, R117). -/

namespace Sys2Proof.Machine

/-! ## Sparse maps -/

/-- The value at a key. -/
def mget {α : Type} : KMap α → Nat → Option α
  | [], _ => none
  | (a, v) :: m, k => if a = k then some v else mget m k

/-- Sets the value at a key; keys stay rising. -/
def mset {α : Type} : KMap α → Nat → α → KMap α
  | [], k, v => [(k, v)]
  | (a, w) :: m, k, v =>
    if k < a then (k, v) :: (a, w) :: m else if k = a then (k, v) :: m else (a, w) :: mset m k v

/-- Removes a key. -/
def mdel {α : Type} : KMap α → Nat → KMap α
  | [], _ => []
  | (a, v) :: m, k => if a = k then mdel m k else (a, v) :: mdel m k

/-- Applies a function to every value. -/
def mmap {α : Type} (f : Nat → α → α) : KMap α → KMap α
  | [] => []
  | (a, v) :: m => (a, f a v) :: mmap f m

/-- Replaces the element at a position. -/
def lset {α : Type} : List α → Nat → α → List α
  | [], _, _ => []
  | _ :: l, 0, v => v :: l
  | x :: l, n + 1, v => x :: lset l n v

/-! ## Bytes (R5, R6) -/

/-- Little-endian number of a run of bytes. -/
def leNat : Bytes → Nat
  | [] => 0
  | b :: bs => b.toNat + 256 * leNat bs

/-- The n low bytes of a number, least significant first. -/
def leBytes : Nat → Nat → Bytes
  | 0, _ => []
  | n + 1, v => byte v :: leBytes n (v / 256)

/-- Big-endian number of a run of bytes. -/
def beNat (bs : Bytes) : Nat := leNat bs.reverse

/-- The n low bytes of a number, most significant first. -/
def beBytes (n v : Nat) : Bytes := (leBytes n v).reverse

/-- n zero bytes. -/
def zeros (n : Nat) : Bytes := List.replicate n 0

/-- len bytes from an offset; short where the run ends. -/
def slice (bs : Bytes) (off len : Nat) : Bytes := (bs.drop off).take len

/-- Little-endian field of a block. -/
def field (bs : Bytes) (off len : Nat) : Nat := leNat (slice bs off len)

/-- Exactly n bytes: cut or padded with zeros. -/
def fit (n : Nat) (bs : Bytes) : Bytes := (bs.take n) ++ zeros (n - bs.length)

/-- 2^n where the bit is set. -/
def bit (b : Bool) (n : Nat) : Nat := if b then 2 ^ n else 0

/-- Bits [lo + w − 1 : lo] of a number. -/
def bits (v lo w : Nat) : Nat := v / 2 ^ lo % 2 ^ w

/-- 48 big-endian bytes of a SHA-384 digest. -/
def digest384 (m : Bytes) : Bytes := beBytes 48 (Config.sha384 m).toNat

/-- Saturating sum. -/
def satAdd (a n top : Nat) : Nat := min (a + n) top

/-- Ceiling of a quotient. -/
def cdiv (a b : Nat) : Nat := (a + b - 1) / b

/-! ## Accessors -/

/-- Dies of the part (R1). -/
def dieCount (s : State) : Nat :=
  match s.part with
  | .xz92 => 2
  | .xz94 => 4
  | .xz98 => 8

/-- The die in front of a brim die (R21). -/
def upstream (s : State) (d : Nat) : Nat :=
  if s.part = .xz98 ∧ 4 ≤ d then (if d < 6 then 1 else 2) else 0

/-- A die, or an absent one. -/
def getDie (s : State) (d : Nat) : Die := s.dies.getD d {}

/-- Changes one die; nothing where the part does not have it. -/
def modDie (d : Nat) (f : Die → Die) (s : State) : State := { s with dies := lset s.dies d (f (getDie s d)) }

/-- Indices of the dies in service. -/
def liveDies (s : State) : List Nat := (List.range s.dies.length).filter fun d => (getDie s d).live

/-- Rule bank in force on a die (R35). -/
def bankOf (s : State) (d : Nat) : Bank := (getDie s d).bank

/-- The Crown's rule bank. -/
def crownBank (s : State) : Bank := bankOf s 0

/-- A function, or an empty one. -/
def getFn (s : State) (n : Nat) : FnState := (mget s.fns n).getD {}

/-- Changes one function. -/
def modFn (n : Nat) (f : FnState → FnState) (s : State) : State := { s with fns := mset s.fns n (f (getFn s n)) }

/-- A queue of a function, or the absent queue. -/
def FnState.queue (f : FnState) (r : Nat) : Queue := (mget f.queues r).getD {}

/-- A completion ring of a function, or an empty one. -/
def FnState.cq (f : FnState) (c : Nat) : Cq := (mget f.cqs c).getD {}

/-- A submission queue. -/
def getQ (s : State) (q : QRef) : Queue := (getFn s q.fn).queue q.ring

/-- Changes one submission queue. -/
def modQ (q : QRef) (f : Queue → Queue) (s : State) : State :=
  modFn q.fn (fun n => { n with queues := mset n.queues q.ring (f (n.queue q.ring)) }) s

/-- Changes one completion ring. -/
def modCq (fn c : Nat) (f : Cq → Cq) (s : State) : State :=
  modFn fn (fun n => { n with cqs := mset n.cqs c (f (n.cq c)) }) s

/-- A tenant, or one without grants. -/
def getTenant (s : State) (t : Nat) : Tenant := (mget s.tenants t).getD {}

/-- Changes one tenant. -/
def modTenant (t : Nat) (f : Tenant → Tenant) (s : State) : State :=
  { s with tenants := mset s.tenants t (f (getTenant s t)) }

/-- A taken job, or an empty one. -/
def getJob (s : State) (j : Nat) : Job := (mget s.jobs j).getD {}

/-- Changes one taken job; nothing where it does not exist. -/
def modJob (j : Nat) (f : Job → Job) (s : State) : State :=
  match mget s.jobs j with
  | none => s
  | some x => { s with jobs := mset s.jobs j (f x) }

/-- Sends something out. -/
def emit (o : Out) (s : State) : State := { s with out := s.out ++ [o] }

/-- Tenant of a function. -/
def tenantOf (s : State) (fn : Nat) : Nat := (getFn s fn).tenant

/-- n free bytes, and the state with them consumed (log entry 4). -/
def freeBytes (n : Nat) (s : State) : Bytes × State :=
  ((List.range n).map fun i => Config.freeByte (s.free + i), { s with free := s.free + n })

/-! ## The clock, Stamps and trust (R54 to R74) -/

/-- Time has been acquired (R73). -/
def acquired (s : State) : Bool := !s.time.reasons.notAcquired

/-- Number of the rollover at or before a reading, counted from the edge of R73 step 3. -/
def rollOf (s : State) (t : Nat) : Nat := (t - s.time.base.getD 0) / 1000000000

/-- Nanosecond counter at a reading (R55). -/
def nsOf (s : State) (t : Nat) : Nat := (t - s.time.base.getD 0) % 1000000000

/-- TAI second at a reading (R73). -/
def secOf (s : State) (t : Nat) : Nat := s.time.labelSec + rollOf s t - s.time.labelRoll

/-- Reading of the boundary at which an epoch begins (R71). -/
def boundaryAt (s : State) (e : Nat) : Nat :=
  let sec := s.ecfg.origin + e / s.ecfg.k
  let ns := e % s.ecfg.k * (1000000000 / s.ecfg.k)
  s.time.base.getD 0 + (sec + s.time.labelRoll - s.time.labelSec) * 1000000000 + ns

/-- The epoch that contains a time (R71). A second before ORIGIN is in no epoch of the rule; the number stays 0 until ORIGIN (DESIGN CHOICE,
log entry 63). -/
def epochAt (s : State) (sec ns : Nat) : Nat := (sec - s.ecfg.origin) * s.ecfg.k + ns * s.ecfg.k / 1000000000

/-- P of R64: the largest phase error of the last two accepted edges, and the residual offset while slewing. -/
def phaseBound (s : State) : Nat :=
  let p := max s.time.phi1.natAbs s.time.phi2.natAbs
  if s.time.slewing then max p s.time.residual else p

/-- S of R64. -/
def stabilityPpb (s : State) : Nat := if s.time.reasons.tclkFault then 20000000 else s.epc.stability

/-- The package uncertainty U before saturation (R64). -/
def uncertainty (s : State) : Nat :=
  s.epc.refUnc + phaseBound s + 50 + 8 + cdiv (stabilityPpb s * (s.time.now - s.time.lastEdge)) 1000000000

/-- EPC_STATUS.REASONS as a number (R68). -/
def Reasons.num (r : Reasons) : Nat :=
  bit r.notAcquired 0 + bit r.uncLimit 1 + bit r.beaconStale 2 + bit r.tclkFault 3 + bit r.ppsContradict 4
    + bit r.authorityAlarm 5 + bit r.labelMismatch 6 + bit r.epochRegress 7

/-- STATE is LOCKED or HOLDOVER. -/
def timeRuns (s : State) : Bool := s.time.st = .locked || s.time.st = .holdover

/-- Package trust (R66). -/
def pkgTrusted (s : State) : Bool :=
  timeRuns s && decide (uncertainty s ≤ s.epc.trustLimit) && decide (s.time.reasons.num = 0)

/-- Trust of a beacon-only function (R67). -/
def beaconTrusted (s : State) : Bool :=
  let r := s.time.reasons
  timeRuns s && !(r.notAcquired || r.labelMismatch || r.epochRegress || r.authorityAlarm)
    && s.time.labelled && decide (s.time.now ≤ s.time.freshAt + 2000000000)
    && decide (uncertainty s + s.epc.floor ≤ s.epc.limit)

/-- FN_SPLIT of a function as a die's bank holds it, LEDGER included (R43, R111). -/
def splitOf (s : State) (b : Bank) (fn : Nat) : Nat :=
  (mget b.split fn).getD 0 + 4 * (mget b.ledgerPol (tenantOf s fn)).getD 0

/-- Split policy of one engine function: 0 SEAL, 1 LEDGER, 2 DRAW, 3 SIGN, 4 TIME (R43). -/
def policy (s : State) (b : Bank) (fn which : Nat) : Nat := bits (splitOf s b fn) (2 * which) 2

/-- A function takes beacon-only Stamps (R65). -/
def beaconOnly (s : State) (b : Bank) (fn : Nat) : Bool := policy s b fn 4 = 3

/-- Time trust as a function sees it (R66, R67). -/
def fnTrusted (s : State) (b : Bank) (fn : Nat) : Bool :=
  if beaconOnly s b fn then beaconTrusted s else pkgTrusted s

/-- The Stamp of this instant with the given beacon-only choice and trust (R63 to R65). -/
def mkStamp (s : State) (only trusted : Bool) : Stamp :=
  if s.time.reasons.notAcquired then {} else
  let u := uncertainty s + (if only then s.epc.floor else 0)
  { seconds := secOf s s.time.now
    ns := nsOf s s.time.now
    unc := min u 0xFFFFFFFF
    flags := bit trusted 0 + bit (decide (s.time.st = .holdover)) 1 + bit s.time.slewing 2 + bit only 3
      + bit s.time.leapPending 4 + bit s.time.leapNegative 5 + bit (decide (0xFFFFFFFF < u)) 6 }

/-- The Stamp of this instant as a function sees it, under a die's bank. -/
def fnStamp (s : State) (b : Bank) (fn : Nat) : Stamp := mkStamp s (beaconOnly s b fn) (fnTrusted s b fn)

/-- The package's own Stamp of this instant. -/
def pkgStamp (s : State) : Stamp := mkStamp s false (pkgTrusted s)

/-- The 16 bytes of a Stamp (R63). -/
def Stamp.bytes (t : Stamp) : Bytes := leBytes 6 t.seconds ++ leBytes 4 t.ns ++ leBytes 4 t.unc ++ leBytes 2 t.flags

/-- A Stamp from its 16 bytes. -/
def stampOf (b : Bytes) : Stamp := ⟨field b 0 6, field b 6 4, field b 10 4, field b 14 2⟩

/-- The close test of R80. -/
def closeOk (t : Stamp) (sec ns : Nat) : Bool :=
  !(t.flags.testBit 6) && decide (t.seconds * 1000000000 + t.ns + t.unc < sec * 1000000000 + ns)

/-- The lining counter at this instant (32,768 Hz). -/
def liningCount (s : State) : Nat := (s.time.now - s.lining.zeroAt) * 32768 / 1000000000 + s.lining.extra

/-- SECONDS and NS of a lining Stamp taken at a lining count, in ns; 0 without a sync pair (R386). -/
def liningNs (s : State) (count : Nat) : Nat :=
  match s.lining.sync with
  | none => 0
  | some (c, sec, ns) => sec * 1000000000 + ns + (count - c) * 1000000000 / 32768

/-- The lining Stamp of a lining count (R386); after a crystal failure the growth term is 5 % (R455). -/
def liningStamp (s : State) (count : Nat) : Stamp :=
  match s.lining.sync with
  | none => { flags := 0x40 }
  | some (c, _, _) =>
    let t := liningNs s count
    let u := 30518 + cdiv ((count - c) * 1000000000 / 32768) (if s.lining.xtalAt.any (· ≤ count) then 20 else 10000)
    { seconds := t / 1000000000, ns := t % 1000000000, unc := min u 0xFFFFFFFF
      flags := bit (decide (0xFFFFFFFF < u)) 6 }

/-! ## The event recorder's buffer (R396, R397) -/

/-- TIME of an event record (R396). -/
def evTime (s : State) : Nat :=
  if acquired s then secOf s s.time.now * 1000000000 + nsOf s s.time.now else liningNs s (liningCount s)

/-- Adds one record to the buffer, or counts it, by the rules of R397. -/
def pushEvent (r : EvRec) (s : State) : State :=
  let room := if r.cls = 2 ∨ r.cls = 3 then 2048 else 1792
  if 1536 < s.evBuf.length ∧ (r.cls = 0 ∨ r.cls = 1) ∧ (s.evBuf.any fun x => x.code = r.code ∧ x.die = r.die) then
    let old := (s.evBursts.find? fun b => b.1 = r.code ∧ b.2.1 = r.die).map (·.2.2)
    { s with evBursts := (s.evBursts.filter fun b => ¬(b.1 = r.code ∧ b.2.1 = r.die)) ++ [(r.code, r.die, old.getD 0 + 1)] }
  else if s.evBuf.length < room then { s with evBuf := s.evBuf ++ [r] }
  else { s with evSuppressed := satAdd s.evSuppressed 1 0xFFFF }

/-- Records an event of a class on a die; data beyond 8 bytes goes into a continued record (R396). -/
def recEventAt (die cls code : Nat) (data : Bytes) (s : State) : State :=
  let more := decide (8 < data.length)
  let r : EvRec := { time := evTime s, code := code, die := die, trusted := pkgTrusted s, cont := more, cls := cls, data := fit 8 data }
  let s1 := pushEvent r s
  if more then pushEvent { r with cont := false, data := fit 8 (data.drop 8) } s1 else s1

/-- Records an event of class 0 on the Crown. -/
def recEvent (code : Nat) (data : Bytes) (s : State) : State := recEventAt 0 0 code data s

/-! ## Counters (R439, R440) -/

/-- Adds to a counter, which saturates (R439). -/
def Counter.add (c : Counter) (n : Nat) : Counter :=
  if 0xFFFFFFFFFFFF ≤ c.value + n then { c with value := 0xFFFFFFFFFFFF, sat := true } else { c with value := c.value + n }

/-- Counts n of an event of a function on a die. -/
def countOn (die ev fn n : Nat) (s : State) : State :=
  modDie die (fun d => { d with cnt := mmap (fun _ c => if c.ev = ev ∧ (c.filter = none ∨ c.filter = some fn) then c.add n else c) d.cnt }) s

/-! ## Sampling (R444, R445) -/

/-- The 32 bytes of a sampling record. -/
def sampleBytes (tag op flags fn ring die status addr latency epoch job : Nat) : Bytes :=
  leBytes 2 tag ++ [byte op, byte flags] ++ leBytes 2 fn ++ leBytes 2 ring ++ [byte die, byte status, 0, 0] ++ leBytes 4 addr
    ++ leBytes 4 (min latency 0xFFFFFFFF) ++ leBytes 6 epoch ++ zeros 2 ++ leBytes 4 job

/-- A record enters the sampling buffer of a die; a full one drops it, and the first drop of a fill is recorded. -/
def pushSample (die fn : Nat) (b : Bytes) (s : State) : State :=
  let x := (getDie s die).sampler
  if !(getDie s die).live then s
  else if x.recs.length < 4096 then modDie die (fun d => { d with sampler := { d.sampler with recs := d.sampler.recs ++ [⟨fn, b⟩] } }) s
  else
    let s1 := modDie die (fun d => { d with sampler := { d.sampler with full := true, dropped := satAdd d.sampler.dropped 1 0xFFFF } }) s
    if x.full then s1 else recEventAt die 0 0x0C08 (byte die :: zeros 7) s1

/-- An admitted job of a die counts towards JOB_PERIOD; whether it is the one that is sampled (R444). -/
def sampleJob (die fn : Nat) (s : State) : Bool × State :=
  let x := (getDie s die).sampler
  if x.mode.testBit 0 ∧ (x.fn = 0xFFFF ∨ x.fn = fn) then
    let hit := decide (x.jobPer ≤ x.seen + 1)
    (hit, modDie die (fun d => { d with sampler := { d.sampler with seen := if hit then 0 else x.seen + 1 } }) s)
  else (false, s)

/-! ## The PF BAR (R463, R470, R479) -/

/-- Writes to a block window of the map act: from the end of start-up step 4, in PWR_STATUS.STATE 0, not in SCRAP. -/
def barOpen (s : State) : Bool := 5 ≤ s.startStep && s.pwrState = 0 && s.lcs != .scrap

/-- The function exists: the PF, or a VF while VF Enable is set (R114). -/
def fnExists (s : State) (fn : Nat) : Bool := fn = 0 || (s.vfEnable && fn ≤ s.numVfs)

/-- A write to a window of a function's BAR acts: the map is open, Memory Space Enable is 1 (R118), and INVALID serves the window (R479). -/
def windowOpen (s : State) (fn : Nat) (inInvalid : Bool) : Bool :=
  barOpen s && fnExists s fn && (getFn s fn).mse && (inInvalid || s.lcs != .invalid)

/-- A write to a function's own window acts; in INVALID only the PF's does. -/
def fnOpen (s : State) (fn : Nat) : Bool := windowOpen s fn (decide (fn = 0))

/-! ## Interrupts and package events (R97, R116, R117) -/

/-- Inserts a number into a rising list without repeats. -/
def insertNat : List Nat → Nat → List Nat
  | [], n => [n]
  | a :: l, n => if n < a then n :: a :: l else if n = a then a :: l else a :: insertNat l n

/-- A vector of a function is masked. -/
def maskedVec (f : FnState) (v : Nat) : Bool := f.msix.fnMask || ((mget f.msix.table v).getD {}).masked

/-- A function makes no memory request: Bus Master Enable is 0 or the link has failed fatally (R118, R119). -/
def busOff (s : State) (fn : Nat) : Bool := !(getFn s fn).bme || s.linkFatal

/-- Signals a vector: masked sets pending, D3hot holds, otherwise one message (R116, R117; log entry 9 for Bus Master Enable 0). -/
def signal (fn v : Nat) (s : State) : State :=
  let f := getFn s fn
  if !f.msix.enable then s
  else if maskedVec f v then modFn fn (fun n => { n with msix := { n.msix with pending := insertNat n.msix.pending v } }) s
  else if f.d3hot || busOff s fn then modFn fn (fun n => { n with msix := { n.msix with held := insertNat n.msix.held v } }) s
  else countOn 0 0x83 fn 1 (emit (.msix fn v) s)

/-- An uncorrectable error is reported through AER, whose header log keeps the first one, and recorded with the function and the address (R91, R119). -/
def aerError (fn cls addr : Nat) (s : State) : State :=
  let s1 := emit (.aer fn cls) (recEvent 0x0204 (leBytes 2 fn ++ zeros 6 ++ leBytes 8 addr) s)
  modFn fn (fun f => { f with aerFirst := if f.aerFirst = none then some (cls, addr) else f.aerFirst }) s1

/-- Sets a bit of FN_EVENT; PF vector 0 is signalled when it was 0 (R97). -/
def raiseFnEvent (i : Nat) (s : State) : State :=
  if s.fnEvent.getD i false then s else signal 0 0 { s with fnEvent := lset s.fnEvent i true }

/-- Brings UNC_LIMIT and the reported trust up to date; a change of TRUSTED is recorded, sets FN_EVENT [1], and each one signals PF vector 0
(R68), also where FN_EVENT [1] is still 1 (log entry 46). -/
def refreshTrust (s : State) : State :=
  let lim := acquired s && decide (s.epc.trustLimit < uncertainty s)
  let s1 := { s with time := { s.time with reasons := { s.time.reasons with uncLimit := lim } } }
  let tr := pkgTrusted s1
  if tr = s1.time.trustShown then s1 else
    let s2 := recEvent 0x0102 ([byte (bit tr 0), byte s1.time.reasons.num, 0, 0] ++ leBytes 4 (min (uncertainty s1) 0xFFFFFFFF)) s1
    signal 0 0 { s2 with time := { s2.time with trustShown := tr }, fnEvent := lset s2.fnEvent 1 true }

/-- Some tenant still has a root of the epoch that is not final. -/
def epochOpen (s : State) (e : Nat) : Bool := e = s.time.epoch || s.ledgers.any fun l => l.2.pend.any (·.epoch = e)

/-- A page's place may be reused: no store, closed, and every root of its epoch final (R215). -/
def reclaimable (s : State) (p : JPage) : Bool := !s.jsActive && p.closed && !epochOpen s p.epoch

/-- Pages that occupy SRAM. -/
def sramPages (s : State) : List JPage := s.pages.filter (·.sram)

/-- Entries in SRAM pages that are not reclaimable (LDG_JOURNAL_USED, R221). -/
def journalUsed (s : State) : Nat :=
  (((sramPages s).filter fun p => !reclaimable s p).map fun p => if p.closed then 32 else p.entries.length).sum

/-- Occupancies of the threshold events (R440). -/
def occupancy (s : State) (die ev : Nat) : Nat :=
  let d := getDie s die
  if ev = 0x40 then d.ringG.length
  else if ev = 0x41 then d.ringP.length
  else if ev = 0x42 then d.macQ.length
  else if ev = 0x43 then d.rq.length
  else if ev = 0x44 then d.collector.length
  else if ev = 0xC0 then s.ingress.length
  else if ev = 0xC1 then journalUsed s
  else 0

/-- Advances the cycle-driven counters of a die by n cycles (R439, R440). -/
def countCycles (s : State) (die n : Nat) (d : Die) : Die :=
  { d with cnt := mmap (fun _ c =>
      if c.ev = 1 then c.add n
      else if (0x40 ≤ c.ev ∧ c.ev < 0x80 ∨ 0xC0 ≤ c.ev) ∧ c.thr < occupancy s die c.ev then c.add n else c) d.cnt }

/-- The reading that an event presented at t takes: never earlier than the last one, and before the next epoch boundary
once time is acquired, because EPOCH_BOUNDARY is an event of its own (log entry 1). -/
def clampTo (s : State) (t : Nat) : Nat :=
  let n := max s.time.now t
  if acquired s then max s.time.now (min n (boundaryAt s (s.time.epoch + 1) - 1)) else n

/-- Moves the device clock to a reading. -/
def setNow (n : Nat) (s : State) : State :=
  let cyc := n * 5 / 4 - s.time.now * 5 / 4
  let s1 := { s with dies := s.dies.mapIdx fun i (d : Die) => if d.cnt = [] then d else countCycles s i cyc d }
  { s1 with time := { s1.time with now := n } }

/-- One record for each second in which an edge fell out of its window, with the count (R54). -/
def flushOow (s : State) : State :=
  if 0 < s.time.oowCount ∧ s.time.oowSecond < rollOf s s.time.now then
    recEvent 0x0101 (leBytes 2 s.time.oowCount ++ zeros 6) { s with time := { s.time with oowCount := 0 } }
  else s

/-- Time passes until the instant of an event (log entry 1). -/
def tick (t : Nat) (s : State) : State := refreshTrust (flushOow (setNow (clampTo s t) s))

end Sys2Proof.Machine
end

