-- ==== Sys2Proof/Machine/Curves.lean ====
section
/-! DEFINITION. Numbers and curves of the Reckoner: algorithm lengths (R262), curve blocks (R263), point arithmetic and the checks of R264.
The domain parameters of P-256, P-384 and P-521 are those of FIPS 186-5, which R260 cites. -/

namespace Sys2Proof.Machine

/-- b ^ e mod m over the given number of exponent bits. -/
def powMod (m : Nat) : Nat → Nat → Nat → Nat
  | 0, _, _ => 1 % m
  | f + 1, b, e =>
    let h := powMod m f (b * b % m) (e / 2)
    if e % 2 = 1 then b * h % m else h

/-- Inverse modulo a prime. -/
def invMod (p a : Nat) : Nat := powMod p 700 (a % p) (p - 2)

/-- Bit length. -/
def bitlen (n : Nat) : Nat := if n = 0 then 0 else Nat.log2 n + 1

/-- Domain parameters of a short Weierstrass curve. -/
structure Curve where
  p : Nat
  a : Nat
  b : Nat
  gx : Nat
  gy : Nat
  n : Nat
  h : Nat
deriving DecidableEq, Repr

/-- P-256 (FIPS 186-5). -/
def curveP256 : Curve :=
  let p := 2 ^ 256 - 2 ^ 224 + 2 ^ 192 + 2 ^ 96 - 1
  { p := p, a := p - 3, b := 0x5ac635d8aa3a93e7b3ebbd55769886bc651d06b0cc53b0f63bce3c3e27d2604b
    gx := 0x6b17d1f2e12c4247f8bce6e563a440f277037d812deb33a0f4a13945d898c296
    gy := 0x4fe342e2fe1a7f9b8ee7eb4a7c0f9e162bce33576b315ececbb6406837bf51f5
    n := 0xffffffff00000000ffffffffffffffffbce6faada7179e84f3b9cac2fc632551, h := 1 }

/-- P-384 (FIPS 186-5). -/
def curveP384 : Curve :=
  let p := 2 ^ 384 - 2 ^ 128 - 2 ^ 96 + 2 ^ 32 - 1
  { p := p, a := p - 3
    b := 0xb3312fa7e23ee7e4988e056be3f82d19181d9c6efe8141120314088f5013875ac656398d8a2ed19d2a85c8edd3ec2aef
    gx := 0xaa87ca22be8b05378eb1c71ef320ad746e1d3b628ba79b9859f741e082542a385502f25dbf55296c3a545e3872760ab7
    gy := 0x3617de4a96262c6f5d9e98bf9292dc29f8f41dbd289a147ce9da3113b5f0b8c00a60b1ce1d7e819d7a431d7c90ea0e5f
    n := 0xffffffffffffffffffffffffffffffffffffffffffffffffc7634d81f4372ddf581a0db248b0a77aecec196accc52973, h := 1 }

/-- P-521 (FIPS 186-5). -/
def curveP521 : Curve :=
  let p := 2 ^ 521 - 1
  { p := p, a := p - 3
    b := 0x0051953eb9618e1c9a1f929a21a0b68540eea2da725b99b315f3b8b489918ef109e156193951ec7e937b1652c0bd3bb1bf073573df883d2c34f1ef451fd46b503f00
    gx := 0x00c6858e06b70404e9cd9e3ecb662395b4429c648139053fb521f828af606b4d3dbaa14b5e77efe75928fe1dc127a2ffa8de3348b3c1856a429bf97e7e31c2e5bd66
    gy := 0x011839296a789a3bc0045c8a5fb42c7d1bd998f54449579b446817afbd17273e662c97ee72995ef42640c550b9013fad0761353c7086a272c24088be94769fd16650
    n := 0x01fffffffffffffffffffffffffffffffffffffffffffffffffffffffffffffffffa51868783bf2f966b7fcc0148f709a5d03bb5c9b8899c47aebb6fb71e91386409, h := 1 }

/-- BITS of a curve block (R263). -/
def blockBits (c : Bytes) : Nat := field c 2 2

/-- A curve block as domain parameters (R263). -/
def blockCurve (c : Bytes) : Curve :=
  { p := field c 16 80, a := field c 96 80, b := field c 176 80, gx := field c 256 80, gy := field c 336 80, n := field c 416 80, h := field c 1 1 }

/-- The curve of an algorithm code; codes 0x20 to 0x2F take the given block. -/
def curveOf (alg : Nat) (c : Bytes) : Option Curve :=
  if alg = 1 then some curveP256 else if alg = 2 then some curveP384 else if alg = 3 then some curveP521
  else if 0x20 ≤ alg ∧ alg ≤ 0x2F then some (blockCurve c) else none

/-- Lp of R262. -/
def fieldLen (c : Curve) : Nat := cdiv (bitlen c.p) 8
/-- Ln of R262. -/
def orderLen (c : Curve) : Nat := cdiv (bitlen c.n) 8

/-- A point; none is the point at infinity. -/
abbrev Pt := Option (Nat × Nat)

/-- The point lies on the curve. -/
def onCurve (c : Curve) (x y : Nat) : Bool := y * y % c.p = (x * x * x + c.a * x + c.b) % c.p

/-- Sum of two points of a curve. -/
def ptAdd (c : Curve) : Pt → Pt → Pt
  | none, q => q
  | some a, none => some a
  | some (x1, y1), some (x2, y2) =>
    if x1 = x2 ∧ (y1 + y2) % c.p = 0 then none else
    let l := if x1 = x2 then (3 * x1 * x1 + c.a) * invMod c.p (2 * y1) % c.p
             else (y2 + c.p - y1) * invMod c.p (x2 + c.p - x1) % c.p
    let x3 := (l * l + 2 * c.p - x1 - x2) % c.p
    some (x3, (l * (x1 + c.p - x3) + c.p - y1) % c.p)

/-- k times a point, over the given number of bits of k. -/
def ptMul (c : Curve) : Nat → Nat → Pt → Pt
  | 0, _, _ => none
  | f + 1, k, q =>
    let h := ptMul c f (k / 2) (ptAdd c q q)
    if k % 2 = 1 then ptAdd c q h else h

/-! ## Edwards curves (RFC 8032, which R260 cites) -/

/-- A twisted Edwards curve a·x² + y² = 1 + d·x²·y²: cofactor h, order L of the base point, bytes of an encoded point. -/
structure Edwards where
  p : Nat
  a : Nat
  d : Nat
  h : Nat
  L : Nat
  bytes : Nat
deriving DecidableEq, Repr

/-- Ed25519: a = −1, d = −121665/121666. -/
def ed25519 : Edwards :=
  let p := 2 ^ 255 - 19
  { p := p, a := p - 1, d := (p - 121665) * invMod p 121666 % p, h := 8, L := 2 ^ 252 + 27742317777372353535851937790883648493, bytes := 32 }

/-- Ed448: a = 1, d = −39081. -/
def ed448 : Edwards :=
  let p := 2 ^ 448 - 2 ^ 224 - 1
  { p := p, a := 1, d := p - 39081, h := 4
    L := 2 ^ 446 - 13818066809895115352007386748515426880336692474882178609894547503885, bytes := 57 }

/-- The curve of codes 0x04 and 0x05. -/
def edOf (alg : Nat) : Edwards := if alg = 4 then ed25519 else ed448

/-- y of an encoded point: the bytes without the sign bit of x, little-endian. -/
def edY (c : Edwards) (b : Bytes) : Nat := leNat (b.take c.bytes) % 2 ^ (8 * c.bytes - 1)

/-- The sign bit of an encoded point. -/
def edSign (c : Edwards) (b : Bytes) : Nat := leNat (b.take c.bytes) / 2 ^ (8 * c.bytes - 1)

/-- A square root modulo p of a square: p is 5 modulo 8 for Ed25519 and 3 modulo 4 for Ed448. -/
def edSqrt (c : Edwards) (x : Nat) : Nat :=
  if c.p % 4 = 3 then powMod c.p 700 x ((c.p + 1) / 4) else
  let r := powMod c.p 700 x ((c.p + 3) / 8)
  if r * r % c.p = x then r else r * powMod c.p 700 2 ((c.p - 1) / 4) % c.p

/-- x recovered from an encoded point with y below p: a square root of (1 − y²)/(a − d·y²) with the parity of the sign bit; none where
there is no root, or x is 0 with sign bit 1. -/
def edX (c : Edwards) (b : Bytes) : Option Nat :=
  let y2 := edY c b * edY c b % c.p
  let x2 := (1 + c.p - y2) * invMod c.p (c.a + c.p * c.p - c.d * y2) % c.p
  let x := edSqrt c x2
  if x * x % c.p ≠ x2 then none
  else if x = 0 ∧ edSign c b = 1 then none
  else some (if x % 2 = edSign c b then x else c.p - x)

/-- Twice a point. -/
def edDouble (c : Edwards) (q : Nat × Nat) : Nat × Nat :=
  let xx := q.1 * q.1 % c.p
  let yy := q.2 * q.2 % c.p
  let k := c.d * xx % c.p * yy % c.p
  (2 * q.1 * q.2 % c.p * invMod c.p (1 + k) % c.p, (yy + c.p * c.p - c.a * xx) % c.p * invMod c.p (1 + c.p - k) % c.p)

/-- h·Q is the neutral element: the point has small order. -/
def edSmall (c : Edwards) (q : Nat × Nat) : Bool :=
  let r := if c.h = 8 then edDouble c (edDouble c (edDouble c q)) else edDouble c (edDouble c q)
  r.1 = 0 && r.2 = 1 % c.p

/-! ## Lengths (R262) -/

/-- Public key length; the RSA modulus length in bytes is given. -/
def pubLen (alg rsa : Nat) (c : Bytes) : Nat :=
  if alg = 1 then 65 else if alg = 2 then 97 else if alg = 3 then 133 else if alg = 4 then 32 else if alg = 5 then 57
  else if alg = 6 then rsa + 4 else 1 + 2 * fieldLen (blockCurve c)

/-- Signature length. -/
def sigLenOf (alg rsa : Nat) (c : Bytes) : Nat :=
  if alg = 1 then 64 else if alg = 2 then 96 else if alg = 3 then 132 else if alg = 4 then 64 else if alg = 5 then 114
  else if alg = 6 then rsa else 2 * orderLen (blockCurve c)

/-- Edwards algorithms. -/
def edAlg (alg : Nat) : Bool := alg = 4 || alg = 5

/-- Representative length: the digest of HASH, or PH. -/
def repLen (alg hash : Nat) : Nat := if edAlg alg then 64 else if hash = 1 then 32 else if hash = 2 then 48 else 64

/-- The representative of a message: the digest of HASH, or PH (R262). -/
def representative (alg hash : Nat) (m : Bytes) : Bytes :=
  let h := if alg = 4 then 3 else if alg = 5 then 4 else hash
  (beBytes 64 (Config.hashOf h m).toNat).take (repLen alg hash)

/-- An algorithm code of R260. -/
def wideAlg (alg : Nat) : Bool := (1 ≤ alg && alg ≤ 6) || (0x20 ≤ alg && alg ≤ 0x2F)

/-- Curve-table codes. -/
def tableAlg (alg : Nat) : Bool := 0x20 ≤ alg && alg ≤ 0x2F

/-! ## Curve checks (R264) -/

/-- One Miller–Rabin round for an odd n with base a: whether n passes. -/
def mrRound (n a : Nat) : Bool :=
  let rec twos : Nat → Nat → Nat × Nat
    | 0, d => (0, d)
    | f + 1, d => if d % 2 = 0 then let r := twos f (d / 2); (r.1 + 1, r.2) else (0, d)
  let r := twos 640 (n - 1)
  let x := powMod n 640 (a % n) r.2
  x = 1 || (List.range r.1).any fun i => powMod n 640 x (2 ^ i) = n - 1

/-- 64 Miller–Rabin rounds with bases from 80 bytes each. -/
def isPrime (n : Nat) (bases : List Bytes) : Bool :=
  decide (n = 2 ∨ n = 3) || (decide (3 < n) && decide (n % 2 = 1) && bases.all fun b => mrRound n (2 + leNat b % (n - 3)))

/-- The checks of R264 in its order: INFO of the first that fails. The bases are those of the tests of p, then of n. -/
def curveCheck (blk : Bytes) (bp bn : List Bytes) : Option Nat :=
  let c := blockCurve blk
  let w := blockBits blk
  if !(field blk 0 1 = 1 && 1 ≤ c.h && c.h ≤ 8 && 192 ≤ w && w ≤ 640 && bitlen c.p = w && c.p % 2 = 1) then some 0xB8
  else if !isPrime c.p bp then some 0xB9
  else if !(c.a < c.p && c.b < c.p && c.gx < c.p && c.gy < c.p) then some 0xBA
  else if (4 * c.a ^ 3 + 27 * c.b ^ 2) % c.p = 0 then some 0xBB
  else if !onCurve c c.gx c.gy then some 0xBC
  else if !(isPrime c.n bn && 160 ≤ bitlen c.n && ptMul c 641 c.n (some (c.gx, c.gy)) = none) then some 0xBD
  else if 4 * c.p < ((c.h * c.n : Int) - (c.p + 1)).natAbs ^ 2 then some 0xBE
  else if c.n = c.p then some 0xBF
  else if (List.range 20).any (fun j => powMod c.n 5 c.p (j + 1) = 1 % c.n) then some 0xC0
  else none

end Sys2Proof.Machine
end

