-- ==== Sys2Proof/Machine/Seeds.lean ====
section
/-! DEFINITION. Seeds and DRBGs of a die: the entropy FIFO, CTR_DRBG, and the requests of the internal, function and draw DRBGs
(R222, R228, R231, R232, R234). -/

namespace Sys2Proof.Machine

/-! ## The FIFO (R222, R228) -/

/-- A bow is ACTIVE and the known-answer tests passed. -/
def entropyUp (d : Die) : Bool := d.bows.any (·.st = 3) && !d.katFail

/-- RNG_STATUS_Dn.FIFO: content in 16-byte units (R256). -/
def fifoUnits (d : Die) : Nat := d.fifo.length / 16

/-- A 384-bit seed can be taken. -/
def seedThere (d : Die) : Bool := entropyUp d && decide (48 ≤ d.fifo.length)

/-- Takes a 384-bit seed from the FIFO of a die. -/
def takeSeed (die : Nat) (s : State) : Option (Bytes × State) :=
  if seedThere (getDie s die) then
    some ((getDie s die).fifo.take 48, modDie die (fun d => { d with fifo := d.fifo.drop 48 }) (countOn die 0x0D 0 1 s))
  else none

/-! ## CTR_DRBG (R231, R232) -/

/-- An ASCII string without a terminator. -/
def ascii (l : String) : Bytes := l.toList.map fun c => byte c.toNat

/-- Instantiation from a seed, a 128-bit nonce of the die's counter and a personalisation string (R231). -/
def drbgNew (die : Nat) (seed pers : Bytes) (s : State) : Drbg × State :=
  ({ v := Config.drbgInit seed (leBytes 16 (getDie s die).nonces) pers }, modDie die (fun d => { d with nonces := d.nonces + 1 }) s)

/-- Reseed: the count of requests starts again. -/
def Drbg.reseed (g : Drbg) (seed : Bytes) : Drbg := { v := Config.drbgReseed g.v seed }

/-- One generate request of n bytes with additional input. -/
def Drbg.generate (g : Drbg) (n : Nat) (addl : Bytes) : Bytes × Drbg :=
  let r := Config.drbgGenerate g.v n addl
  (fit n r.1, { v := r.2, requests := g.requests + 1 })

/-- n bytes by as many requests as they need, each of up to 65,536 bytes; the first argument bounds their number. -/
def Drbg.stream : Nat → Drbg → Nat → Bytes × Drbg
  | 0, g, _ => ([], g)
  | f + 1, g, n =>
    if n = 0 then ([], g) else
    let a := g.generate (min n 65536) []
    let b := Drbg.stream f a.2 (n - 65536)
    (a.1 ++ b.1, b.2)

/-- The next request first reseeds (R232). -/
def Drbg.due (g : Drbg) : Bool := 1048576 ≤ g.requests

/-! ## Internal DRBGs: 0 KEYGEN, 1 NONCE, 2 BLIND -/

/-- An internal DRBG of a die. -/
def getInt (s : State) (die k : Nat) : Drbg := (mget (getDie s die).intInst k).getD {}

/-- Changes an internal DRBG. -/
def setInt (die k : Nat) (g : Drbg) (s : State) : State := modDie die (fun d => { d with intInst := mset d.intInst k g }) s

/-- A request cannot be served yet, and waits: the DRBG is not instantiated, or needs a reseed for which there is no seed (R230, R234). -/
def internalShort (s : State) (die k : Nat) : Bool := !(getDie s die).rngReady || ((getInt s die k).due && !seedThere (getDie s die))

/-- One request of n bytes to an internal DRBG, which is reseeded first at 2^20 (R232); a caller waits while `internalShort`. -/
def internalGen (die k n : Nat) (addl : Bytes) (s : State) : Bytes × State :=
  let s1 := if (getInt s die k).due then
      (match takeSeed die s with
        | some r => setInt die k ((getInt s die k).reseed r.1) r.2
        | none => s)
    else s
  let r := (getInt s1 die k).generate n addl
  (r.1, setInt die k r.2 s1)

/-- Bytes that the Crown itself needs: from an internal DRBG, or from the conditioned noise while that cannot serve (log entry 78). -/
def crownBytes (k n : Nat) (s : State) : Bytes × State := if internalShort s 0 k then freeBytes n s else internalGen 0 k n [] s

/-! ## The DRBGs of functions -/

/-- The DRBG of a function on a die. -/
def getFnDrbg (s : State) (die fn : Nat) : Drbg := (mget (getDie s die).fnInst fn).getD {}

/-- Changes the DRBG of a function. -/
def setFnDrbg (die fn : Nat) (g : Drbg) (s : State) : State := modDie die (fun d => { d with fnInst := mset d.fnInst fn g }) s

/-- The state in which a function's DRBG serves a request: reseeded first with prediction resistance or at 2^20; none while it must wait for
its seed (R232, R234). -/
def fnSeeded (die fn : Nat) (pr : Bool) (s : State) : Option State :=
  if pr || (getFnDrbg s die fn).due then (takeSeed die s).map fun r => setFnDrbg die fn ((getFnDrbg s die fn).reseed r.1) r.2
  else some s

/-- One request of n bytes to the DRBG of a function. -/
def fnGen (die fn n : Nat) (addl : Bytes) (s : State) : Bytes × State :=
  let r := (getFnDrbg s die fn).generate n addl
  (r.1, setFnDrbg die fn r.2 s)

/-! ## Draw DRBGs (R231, R239) -/

/-- The lowest place of a die's 32 that no draw DRBG has. -/
def freePlace (d : Die) : Option Nat := (List.range 32).find? fun i => !(d.drawDrbgs.any (·.index = i))

/-- Personalisation string of a draw DRBG. -/
def drawPers (die : Nat) (x : DrawDrbg) : Bytes := ascii "XZDRAW" ++ [byte die, byte x.index] ++ leBytes 2 x.tenant

/-- Draw DRBGs of a READY die that are not instantiated yet are instantiated while there are seeds. -/
def seedDraws : Nat → Nat → State → State
  | 0, _, s => s
  | f + 1, die, s =>
    if !(getDie s die).rngReady then s else
    match (getDie s die).drawDrbgs.find? (!·.ready) with
    | none => s
    | some x =>
      match takeSeed die s with
      | none => s
      | some r =>
        let g := drbgNew die r.1 (drawPers die x) r.2
        seedDraws f die (modDie die (fun d => { d with
          drawDrbgs := d.drawDrbgs.map fun y => if y.index = x.index then { y with ready := true, drbg := g.1 } else y }) g.2)

/-! ## Jobs that wait for entropy (R234) -/

/-- A job begins to wait for entropy, or goes on waiting. -/
def awaitEntropy (id : Nat) (s : State) : State :=
  modJob id (fun y => { y with phase := .wait 10, waitT := if y.phase = .wait 10 then y.waitT else s.time.now }) s

/-- What an operation of the Crown does once an internal DRBG that it needs can serve it. -/
def withInternal (k id : Nat) (f : State → State) (s : State) : State := if internalShort s 0 k then awaitEntropy id s else f s

/-- The same for an operation that may need no internal DRBG. -/
def withRng (k : Option Nat) (id : Nat) (f : State → State) (s : State) : State :=
  match k with
  | some n => withInternal n id f s
  | none => f s

end Sys2Proof.Machine
end

