-- ==== Sys2Proof/Machine/Flits.lean ====
section
/-! DEFINITION. Band links: topology, the layout of a flit, the send queues of a port and its retry buffer (R21, R23 to R28, R31).
Which message types and payloads the device's own messages use is not in the spec (log entry 57). -/

namespace Sys2Proof.Machine

/-! ## Topology (R21) -/

/-- The die at the other end of a port: Crown port p leads to die p + 1; a brim die's port 0 leads upstream, and on the XZ98 the
ports 1 and 2 of relays 1 and 2 lead to their leaves. -/
def portPeer (s : State) (die port : Nat) : Option Nat :=
  if die = 0 then (if port < 3 ∧ port + 1 < s.dies.length then some (port + 1) else none)
  else if s.dies.length ≤ die then none
  else if port = 0 then some (upstream s die)
  else if s.part = .xz98 ∧ die < 3 ∧ port < 3 then some (2 * die + 1 + port)
  else none

/-- The brim die that a port's failure cuts off. -/
def cutOff (s : State) (die port : Nat) : Option Nat := if die ≠ 0 ∧ port = 0 then some die else portPeer s die port

/-- Leaves behind a relay. -/
def leavesOf (s : State) (die : Nat) : List Nat := if s.part = .xz98 ∧ (die = 1 ∨ die = 2) then [2 * die + 2, 2 * die + 3] else []

/-- The port on which a die sends towards another one. -/
def portTo (s : State) (die dst : Nat) : Nat :=
  if die = 0 then (if upstream s dst = 0 then dst else upstream s dst) - 1
  else if (leavesOf s die).contains dst then dst - (2 * die + 1)
  else 0

/-- A port of a die. -/
def getBand (s : State) (die port : Nat) : BandPort := (getDie s die).ports.getD port {}

/-- Changes one port. -/
def modBand (die port : Nat) (f : BandPort → BandPort) (s : State) : State :=
  modDie die (fun d => { d with ports := lset d.ports port (f (d.ports.getD port {})) }) s

/-- The port carries flits: in use, not down, and not isolated by a fence of the die behind it. -/
def portUp (s : State) (die port : Nat) : Bool :=
  (portPeer s die port).isSome && !(getBand s die port).down && (match cutOff s die port with
    | some d => die ≠ upstream s d || (getDie s d).fenced.isNone
    | none => false)

/-! ## Layout (R24, R31) -/

/-- One bit into CRC-32C, reflected. -/
def crc32Bit (c : Nat) : Nat := if c % 2 = 1 then (c / 2) ^^^ 0x82F63B78 else c / 2

/-- CRC-32C (R24). -/
def crc32c (bs : Bytes) : Nat :=
  (bs.foldl (fun c b => (List.range 8).foldl (fun c _ => crc32Bit c) (c ^^^ b.toNat)) 0xFFFFFFFF) ^^^ 0xFFFFFFFF

/-- A word of 64 data bits with the 16 check bits of its place (R31). -/
def codeWord (place : Nat) (w : Bytes) : Bytes := w ++ leBytes 2 (Config.checkBits place (BitVec.ofNat 64 (leNat w))).toNat

/-- The body of a flit: 24 code words of 80 bits (R24). -/
def flitBody (payload : Bytes) : Bytes := (List.range 24).flatMap fun i => codeWord i (slice (fit 192 payload) (8 * i) 8)

/-- The 256 bytes of a flit with a sequence number, sent by a port that acknowledges what it has received (R24). -/
def Flit.bytes (f : Flit) (p : BandPort) (seq : Nat) : Bytes :=
  let m := leBytes 2 seq ++ leBytes 2 (p.rxSeq + bit p.nak 12) ++ [byte f.cls, byte (f.dst + 8 * f.src), byte f.body.length, byte f.typ]
    ++ leBytes 4 f.arg ++ flitBody f.body
  m ++ leBytes 4 (crc32c m)

/-- The header fields of a flit that has arrived: class, destination, source, message type, MSGARG and payload. -/
def flitOf (b : Bytes) : Flit :=
  { cls := field b 4 1 % 4, dst := field b 5 1 % 8, src := field b 5 1 / 8 % 8, typ := field b 7 1, arg := field b 8 4
    body := ((List.range 24).flatMap fun i => slice b (12 + 10 * i) 8).take (field b 6 1) }

/-- Length and CRC of a flit agree. -/
def flitOk (f : Bytes) : Bool := f.length = 256 && crc32c (f.take 252) = field f 252 4

/-! ## Sending (R25 to R28) -/

/-- Sends a flit with the next sequence number and keeps it in the retry buffer of 128 flits. -/
def transmit (die port : Nat) (f : Flit) (s : State) : State :=
  let p := getBand s die port
  let seq := (p.txSeq + 1) % 4096
  let kept := p.retry ++ [(seq, f)]
  countOn die 0x0A 0 1 (emit (.flit die port (f.bytes p seq))
    (modBand die port (fun p => { p with txSeq := seq, lastTx := s.time.now, retry := kept.drop (kept.length - 128) }) s))

/-- Sends every waiting flit of a port that carries flits: urgent ones first, then control, then data (R28). -/
def drainPort (die port : Nat) (s : State) : State :=
  let p := getBand s die port
  if !portUp s die port || p.training then s
  else (p.urgent ++ p.control ++ p.data).foldl (fun s f => transmit die port f s)
    (modBand die port (fun p => { p with urgent := [], control := [], data := [] }) s)

/-- A flit enters the queue of its class and is sent as the port allows. -/
def sendFlit (die port : Nat) (f : Flit) (s : State) : State :=
  drainPort die port (modBand die port (fun p =>
    if f.cls = 0 then { p with urgent := p.urgent ++ [f] }
    else if f.cls = 1 then { p with control := p.control ++ [f] }
    else { p with data := p.data ++ [f] }) s)

/-- Sends the flits that are not acknowledged once more, oldest first, under their sequence numbers (R25, R26). -/
def replay (die port : Nat) (s : State) : State :=
  let p := getBand s die port
  p.retry.foldl (fun s f => countOn die 0x0A 0 1 (emit (.flit die port (f.2.bytes p f.1)) s))
    (modBand die port (fun p => { p with lastTx := s.time.now }) s)

/-- Flits up to an acknowledged sequence number leave the retry buffer. -/
def ackedUpTo (retry : List (Nat × Flit)) (a : Nat) : List (Nat × Flit) :=
  if retry.any (·.1 = a) then (retry.dropWhile (·.1 ≠ a)).drop 1 else retry

/-- A flit without payload of the Crown to another die: message kind of log entry 57, class and argument. -/
def crownFlit (kind cls arg dst : Nat) : Flit := { cls := cls, dst := dst, typ := (Config.flitType kind).toNat, arg := arg % 4294967296 }

/-- The Crown tells a die something. -/
def tellDie (kind cls arg dst : Nat) (s : State) : State :=
  if dst = 0 then s else sendFlit 0 (portTo s 0 dst) (crownFlit kind cls arg dst) s

/-- The Crown sends one urgent flit to every brim die in service (R28): 1 ERASE, 2 LOCK, 3 die fence, 4 HOLD, 5 CONFIRM. -/
def urgentAll (kind arg : Nat) (s : State) : State := (liveDies s).foldl (fun s d => tellDie kind 0 arg d s) s

end Sys2Proof.Machine
end

