-- ==== Sys2Proof/Machine/Operands.lean ====
section
/-! DEFINITION. The operand forms: the descriptor layout of R13, its reserved bytes (R9), TARGET (R75) and the fragment table (R14, R130). -/

namespace Sys2Proof

open Sys2Proof.Machine

/-- A little-endian field of a descriptor. -/
def Desc.f (d : Desc) (off len : Nat) : Nat := field d.bytes off len

/-- OPCODE. -/
def Desc.op (d : Desc) : Nat := d.f 0 1

/-- FLAGS. -/
def Desc.flags (d : Desc) : Nat := d.f 1 1

/-- INDIRECT: SRC names a fragment table. -/
def Desc.indirect (d : Desc) : Bool := d.flags.testBit 0

/-- FENCE: the descriptor is a ring barrier (R131). -/
def Desc.barrier (d : Desc) : Bool := d.flags.testBit 1

/-- NOTIFY: the completion is signalled at once. -/
def Desc.notify (d : Desc) : Bool := d.flags.testBit 2

/-- HOST_SPLIT (R44). -/
def Desc.hostSplit (d : Desc) : Bool := d.flags.testBit 3

/-- TAG. -/
def Desc.tag (d : Desc) : Nat := d.f 2 2

/-- KEY_HANDLE. -/
def Desc.handle (d : Desc) : Nat := d.f 4 4

/-- SRC. -/
def Desc.srcAddr (d : Desc) : Nat := d.f 8 8

/-- SRC length: bytes, or fragment entries when INDIRECT = 1. -/
def Desc.srcLen (d : Desc) : Nat := d.f 16 4

/-- AUX. -/
def Desc.aux (d : Desc) : Nat := d.f 20 4

/-- DST. -/
def Desc.dst (d : Desc) : Nat := d.f 24 8

/-- TARGET of a fenced command (R75). -/
def Desc.targetField (d : Desc) : Nat := d.f 56 6

/-- The descriptor with another opcode. -/
def Desc.withOp (d : Desc) (op : Nat) : Desc := ⟨fit 64 (byte op :: d.bytes.drop 1)⟩

end Sys2Proof

namespace Sys2Proof.Machine

/-- Bytes from a to b inclusive, as offsets. -/
def span (a b : Nat) : List Nat := (List.range (b + 1 - a)).map (· + a)

/-- The first of the given offsets at which a block holds a nonzero byte (R9). -/
def firstNonzero (b : Bytes) (offs : List Nat) : Option Nat := offs.find? fun i => field b i 1 ≠ 0

/-- FLAGS [7:4] are reserved on every descriptor (R13). -/
def flagsReserved (d : Desc) : Option Nat := if d.flags / 16 = 0 then none else some 1

/-- The first reserved byte that is not 0: FLAGS [7:4], then the given offsets, which include those of KEY_HANDLE, SRC,
SRC length, AUX and DST when the operation does not take them (R9, R15). -/
def reservedBad (d : Desc) (offs : List Nat) : Option Nat :=
  match flagsReserved d with
  | some i => some i
  | none => firstNonzero d.bytes offs

/-- Offsets of KEY_HANDLE. -/
def offHandle : List Nat := span 4 7
/-- Offsets of SRC and SRC length. -/
def offSrc : List Nat := span 8 19
/-- Offsets of AUX. -/
def offAux : List Nat := span 20 23
/-- Offsets of DST. -/
def offDst : List Nat := span 24 31

/-! ## Fragment tables (R14, R130) -/

/-- Entry i of a fragment table. -/
def fragEntry (t : Bytes) (i : Nat) : Bytes := slice t (16 * i) 16

/-- Lengths of the fragments of a table of n entries. -/
def fragLens (t : Bytes) (n : Nat) : List Nat := (List.range n).map fun i => field (fragEntry t i) 8 4

/-- Largest source of a job: 16 MiB (R14). -/
def maxSource : Nat := 16777216

/-- Offset within its entry of the first nonzero reserved byte of a table. -/
def fragReserved (t : Bytes) (n : Nat) : Option Nat :=
  ((List.range n).filterMap fun i => firstNonzero (fragEntry t i) (span 12 15)).head?

end Sys2Proof.Machine
end

