-- ==== Sys2Proof/Machine/Flags.lean ====
section
/-! DEFINITION. Status codes and their order (R17, R18, R504), the TARGET rule of fenced commands (R75), and the common
admission statuses: LOCKED (R348, R378), start-up (R471) and untrusted time (R69). -/

namespace Sys2Proof.Machine

/-! ## Status codes (R17) -/

def stOk : Nat := 0x00
def stFlagged : Nat := 0x01
def stInput : Nat := 0x10
def stLength : Nat := 0x11
def stStale : Nat := 0x12
def stUsage : Nat := 0x13
def stUntrusted : Nat := 0x21
def stNotReady : Nat := 0x22
def stLocked : Nat := 0x23
def stClosed : Nat := 0x24
def stEntropy : Nat := 0x25
def stQuota : Nat := 0x30
def stOverrun : Nat := 0x31
def stRetry : Nat := 0x40
def stFatal : Nat := 0x41
def stAborted : Nat := 0x50
def stSquashed : Nat := 0x51

/-- A status that lets output be written: family 0x0x (R19). -/
def okStatus (st : Nat) : Bool := st < 0x10

/-- A failed check: STATUS and INFO. -/
structure Fail where
  st   : Nat
  info : Nat
deriving DecidableEq, Repr

/-- Position of a status in the order of R18. -/
def rank (st : Nat) : Nat :=
  if st = stLocked then 0 else if st = stLength then 1 else if st = stInput then 2 else if st = stStale then 3
  else if st = stUsage then 4 else if st = stQuota then 5 else if st = stNotReady then 6
  else if st = stUntrusted then 7 else if st = stClosed then 8 else if st = stEntropy then 9 else 10

/-- A check that fails where the condition holds. -/
def failIf (c : Bool) (st info : Nat) : List Fail := if c then [⟨st, info⟩] else []

/-- INPUT_INVALID with an offset, where there is one. -/
def failAt (o : Option Nat) : List Fail :=
  match o with
  | some i => [⟨stInput, i⟩]
  | none => []

/-- The first failure in the order of R18; among equal statuses the earliest in the list (R504). -/
def firstFail : List Fail → Option Fail
  | [] => none
  | f :: fs =>
    match firstFail fs with
    | none => some f
    | some g => if rank g.st < rank f.st then some g else some f

/-! ## Queue kinds and opcodes (R11, R12) -/

/-- Kind of a queue by its ring number: 0 work, 1 service, 2 admin (R120). -/
def queueKind (ring : Nat) : Nat := if ring < 0x20 then 0 else if ring < 0x40 then 1 else 2

/-- Opcodes that R11 and the chapters define. -/
def definedOp (op : Nat) : Bool :=
  [0x00, 0x10, 0x11, 0x12, 0x13, 0x20, 0x21, 0x22, 0x30, 0x31, 0x32, 0x40, 0x50, 0xB0, 0xB1, 0xB2, 0xB4, 0xB5].contains op
    || (0x80 ≤ op && op ≤ 0xAE && op != 0xA3) || (0xB8 ≤ op && op ≤ 0xBD) || (0xC0 ≤ op && op ≤ 0xCD && op != 0xC7)

/-- The opcode is accepted on this kind of queue (R12). -/
def opAccepted (op ring : Nat) : Bool :=
  definedOp op && (if op < 0x80 then queueKind ring = 0 else if op < 0xC0 then queueKind ring = 1 else queueKind ring = 2)

/-- SIGN, VERIFY and ECDH use internal ring P (R140). -/
def reckonerOp (op : Nat) : Bool := op = 0x30 || op = 0x31 || op = 0x32

/-- Work opcodes that run on the Crown (R40). -/
def crownOp (op : Nat) : Bool := op = 0x40 || op = 0x50

/-! ## TARGET (R75) -/

/-- TARGET against the admission epoch. -/
def targetFail (tgt e : Nat) : List Fail :=
  failIf (decide (0 < tgt ∧ tgt < e + 2)) stInput 0xFD ++ failIf (decide (e + 4294967296 < tgt)) stInput 0xFC

/-- T of a legal TARGET. -/
def targetOf (tgt e : Nat) : Nat := if tgt = 0 then e + 2 else tgt

end Sys2Proof.Machine
end

