-- ==== Sys2Proof/Machine/Rings.lean ====
section
/-! DEFINITION. Submission queues and completion rings: completions, take order, posting, moderation, doorbells, invalidation,
states and shut-down (R120 to R158). -/

namespace Sys2Proof.Machine

/-! ## Indices and IDLE -/

/-- Difference of two free-running 16-bit indices (R122). -/
def idxDist (a b : Nat) : Nat := (a + 65536 - b % 65536) % 65536

/-- Entries of a queue (R121). -/
def Queue.size (q : Queue) : Nat := 2 ^ q.log2

/-- Address of a submission entry (R121). -/
def Queue.entryAddr (q : Queue) (i : Nat) : Nat := q.base + i % q.size * 64

/-- Address of an entry of a completion ring (R121). -/
def Cq.entryAddr (c : Cq) (i : Nat) : Nat := c.base + i % 2 ^ c.log2 * 32

/-- Posted entries (R122). -/
def Queue.posted (q : Queue) : Nat := idxDist q.tail q.head

/-- Unreserved places of a completion ring (R138). -/
def Cq.room (c : Cq) : Nat := 2 ^ c.log2 - idxDist c.producer c.head - c.reserved

/-- A job was taken from this creation of this queue. -/
def Job.ofQueue (j : Job) (fn ring gen : Nat) : Bool := j.fn = fn && j.ring = ring && j.gen = gen

/-- A job of the queue is still outstanding: its completion has not been posted. -/
def queueBusy (s : State) (q : QRef) : Bool :=
  s.jobs.any fun j => j.2.ofQueue q.fn q.ring (getFn s q.fn).gen

/-- A stop or fetch-failure completion of the queue is owed or not yet written. -/
def stopPending (s : State) (q : QRef) : Bool :=
  let f := getFn s q.fn
  let x := f.queue q.ring
  x.owed.isSome || (f.cq x.cq).ready.any fun c => c.job = none && c.ring = q.ring

/-- IDLE (R150). -/
def idle (s : State) (q : QRef) : Bool :=
  (getQ s q).st != .running && !queueBusy s q && !stopPending s q

/-- RING of a job that the device makes for itself: a draw record to sign (R244, R280). -/
def ownRing : Nat := 0xFFFF

/-- OUTSTANDING: jobs of the instance taken and not yet completed (R101, R123). -/
def outstanding (s : State) (fn : Nat) : Nat :=
  (s.jobs.filter fun j => j.2.fn = fn ∧ j.2.gen = (getFn s fn).gen ∧ j.2.ring ≠ ownRing).length

/-! ## From a finished job to its completion ring (R151) -/

/-- Puts a completion into the list of those ready to be written. -/
def pushReady (fn cq : Nat) (c : Completion) (s : State) : State :=
  modCq fn cq (fun r => { r with ready := r.ready ++ [c] }) s

/-- A stop completion (R127) or a fetch-failure completion (R128). -/
def owedCompletion (ring : Nat) : OwedStop → Completion
  | .overrun info t tail head =>
    { status := stOverrun, info := info, head := head, ring := ring, notify := true
      result := leBytes 2 t ++ leBytes 2 tail ++ zeros 4 }
  | .fetchFail head => { status := stInput, info := 0xF9, head := head, ring := ring, notify := true, result := zeros 8 }

/-- Moves an owed stop completion to the completion ring once every earlier completion of the queue has been released
and a place is free (R127, R128, R158). -/
def settleOwed (q : QRef) (s : State) : State :=
  let x := getQ s q
  match x.owed with
  | none => s
  | some o =>
    if x.takes = [] ∧ 0 < ((getFn s q.fn).cq x.cq).room then
      pushReady q.fn x.cq (owedCompletion q.ring o)
        (modCq q.fn x.cq (fun c => { c with reserved := c.reserved + 1 }) (modQ q (fun y => { y with owed := none }) s))
    else s

/-- The job has finished. -/
def jobDone (s : State) (j : Nat) : Bool :=
  match mget s.jobs j with
  | some x => x.phase = .done
  | none => true

/-- Finished jobs at the front of a take list (work rings), and what stays. -/
def popFront (s : State) : List Nat → List Nat × List Nat
  | [] => ([], [])
  | j :: js => if jobDone s j then let r := popFront s js; (j :: r.1, r.2) else ([], j :: js)

/-- Releases finished jobs of a queue to its completion ring: in take order from a work ring, in the order of finishing
from a service queue or an admin ring (R151). -/
def releaseQueue (q : QRef) (s : State) : State :=
  let x := getQ s q
  let r := if queueKind q.ring = 0 then popFront s x.takes
           else (x.takes.filter (jobDone s), x.takes.filter fun j => !jobDone s j)
  let s1 := modQ q (fun y => { y with takes := r.2 }) s
  let s2 := r.1.foldl (fun s j => match mget s.jobs j with
    | some w => pushReady q.fn x.cq w.c s
    | none => s) s1
  settleOwed q s2

/-- The job's instance generation is stale: nothing of it reaches the host (R112). -/
def stale (s : State) (x : Job) : Bool := x.gen != (getFn s x.fn).gen

/-- The completion of a job (R16, R19). -/
def mkCompletion (x : Job) (id st info : Nat) (result out : Bytes) : Completion :=
  { x.c with
    tag := x.d.tag, status := st, info := if st = stOk then 0 else info
    head := (x.idx + 1) % 65536, ring := x.ring
    seq := if okStatus st then x.c.seq else 0
    epoch := if okStatus st then x.c.epoch else none
    die := x.die
    flags := bit x.flagged 0 + bit x.hostRun 1 + bit x.moved 2
    result := fit 8 result, notify := x.d.notify, job := some id
    dst := x.d.dst, out := if okStatus st then out else []
    sample := if x.sampled then some (x.d.op, x.takenAt, x.epoch) else none }

/-- The sampling record of a job whose completion is written, or discarded, now (R445). -/
def jobSample (fn tag op ring die status takenAt epoch job : Nat) (discarded : Bool) (s : State) : State :=
  pushSample die fn (sampleBytes tag op (bit discarded 3) fn ring die status 0 (s.time.now - takenAt) epoch job) s

/-- The draw instance that a job holds is free again (R239). -/
def freeInst (id : Nat) (s : State) : State :=
  { s with dies := s.dies.map fun d => { d with drawDrbgs := d.drawDrbgs.map fun x => if x.busy = some id then { x with busy := none } else x } }

/-- Finishes a job with a status, Result bytes and DST output (R16, R19, R42); it holds no draw instance from then on. A job of a stale generation leaves without a trace at the host. -/
def finishJob (id st info : Nat) (result out : Bytes) (s : State) : State :=
  match mget s.jobs id with
  | none => s
  | some x =>
    let s1 := countOn x.die (if okStatus st then 3 else 4) x.fn 1 (freeInst id s)
    if stale s1 x then
      let s2 := if x.sampled then jobSample x.fn x.d.tag x.d.op x.ring x.die st x.takenAt x.epoch id true s1 else s1
      { s2 with jobs := mdel s2.jobs id }
    else releaseQueue ⟨x.fn, x.ring⟩
      { s1 with jobs := mset s1.jobs id { x with phase := .done, c := mkCompletion x id st info result out } }

/-- Finishes a job with a failed check. -/
def failJob (id : Nat) (f : Fail) (s : State) : State := finishJob id f.st f.info [] [] s

/-- Finishes a job with OK. -/
def okJob (id : Nat) (result out : Bytes) (s : State) : State := finishJob id stOk 0 result out s

/-- A fault replaces the result of a failed admission whose completion has not been posted (R18). -/
def replaceResult (id st : Nat) (s : State) : State :=
  match mget s.jobs id with
  | none => s
  | some x =>
    if x.phase = .done ∧ x.refused then
      let c := { x.c with status := st, info := 0 }
      modCq x.fn (getQ s ⟨x.fn, x.ring⟩).cq (fun r => { r with ready := r.ready.map fun y => if y.job = some id then c else y })
        { s with jobs := mset s.jobs id { x with c := c } }
    else s

/-- Drops a job that gets no completion (R112). -/
def dropJob (id : Nat) (s : State) : State :=
  match mget s.jobs id with
  | none => s
  | some _ => { s with jobs := mdel s.jobs id }

/-! ## Writing completions (R152, R155) -/

/-- The 32 bytes of a completion (R16). -/
def Completion.bytes (c : Completion) (epoch : Nat) : Bytes :=
  leBytes 2 c.tag ++ [byte c.status, byte c.info] ++ leBytes 2 c.head ++ leBytes 2 c.ring ++ leBytes 8 c.seq
    ++ leBytes 6 epoch ++ [byte c.die, byte c.flags] ++ fit 8 c.result

/-- The index block (R152). -/
def indexBlock (producer gen posted epoch : Nat) : Bytes :=
  leBytes 2 producer ++ zeros 2 ++ leBytes 4 gen ++ leBytes 8 posted ++ leBytes 6 epoch ++ zeros 42

/-- EPOCH of a completion written now (R16). -/
def Completion.epochAt (c : Completion) (s : State) : Nat := c.epoch.getD s.time.epoch

/-- One completion entry, after the DST writes of its job (R42); the moderation timer starts when UNSIGNALLED is 0 (R155). -/
def postOne (fn cq : Nat) (c : Completion) (s : State) : State :=
  let r := (getFn s fn).cq cq
  let s1 := if c.out = [] then s else emit (.write fn c.dst c.out true) s
  let s2 := emit (.write fn (r.entryAddr r.producer) (c.bytes (c.epochAt s))) s1
  let s3 := modCq fn cq (fun r => { r with
      producer := (r.producer + 1) % 65536, posted := r.posted + 1, reserved := r.reserved - 1
      timer := if r.unsig = 0 ∧ r.timerUs ≠ 0 ∧ r.vector ≠ 0xFF then some (s.time.now + r.timerUs * 1000) else r.timer
      unsig := satAdd r.unsig 1 255 }) s2
  let s5 := countOn 0 0x82 fn 1 s3
  let s4 := match c.sample with
    | some (op, takenAt, e) => jobSample fn c.tag op c.ring c.die c.status takenAt e (c.job.getD 0) false s5
    | none => s5
  match c.job with
  | some j => { s4 with jobs := mdel s4.jobs j }
  | none => s4

/-- Writes the index block of a completion ring (R152). -/
def writeIndex (fn cq epoch : Nat) (s : State) : State :=
  let r := (getFn s fn).cq cq
  emit (.write fn r.indexBase (indexBlock r.producer (getFn s fn).gen r.posted epoch)) s

/-- Writes an index block that covers no completion, or holds it while the function makes no memory request (R118, R146). The spec defines
EPOCH by the latest completion covered; here it is the present epoch (DESIGN CHOICE, log entry 67). -/
def indexOut (fn cq : Nat) (s : State) : State :=
  if busOff s fn then modCq fn cq (fun r => { r with idxDue := some s.time.epoch }) s else writeIndex fn cq s.time.epoch s

/-- Writes an index block that has been held. -/
def heldIndex (fn cq : Nat) (s : State) : State :=
  match ((getFn s fn).cq cq).idxDue with
  | some e => writeIndex fn cq e (modCq fn cq (fun r => { r with idxDue := none }) s)
  | none => s

/-- Sends the message of a completion ring: UNSIGNALLED becomes 0 and the timer stops (R155). -/
def sendCq (fn cq : Nat) (s : State) : State :=
  let r := (getFn s fn).cq cq
  let s1 := modCq fn cq (fun r => { r with unsig := 0, timer := none }) s
  if r.vector = 0xFF then s1 else signal fn r.vector s1

/-- Whether a batch just written calls for a message (R155). -/
def messageDue (r : Cq) (batch : List Completion) : Bool :=
  r.vector ≠ 0xFF && (r.count ≤ r.unsig || r.timerUs = 0 || batch.any (·.notify))

/-- Writes every ready completion of a ring as one batch (R152), after an index block that has been held. Nothing is written while Bus
Master Enable is 0 (R118). -/
def postCq (fn cq : Nat) (s0 : State) : State :=
  if busOff s0 fn then s0 else
  let s := heldIndex fn cq s0
  let r := (getFn s fn).cq cq
  match r.ready.getLast? with
  | none => s
  | some last =>
    let s1 := modCq fn cq (fun r => { r with ready := [] }) s
    let s2 := r.ready.foldl (fun s c => postOne fn cq c s) s1
    let s3 := writeIndex fn cq (last.epochAt s) s2
    if messageDue ((getFn s3 fn).cq cq) r.ready then sendCq fn cq s3 else s3

/-- Posts every completion ring of a function. -/
def postFn (fn : Nat) (s : State) : State := (getFn s fn).cqs.foldl (fun s c => postCq fn c.1 s) s

/-! ## Stops (R126) -/

/-- A queue stops: no further entry, copies discarded, hold released, the stop signalled and recorded (R126). -/
def ringStop (q : QRef) (cause : Nat) (owed : OwedStop) (tail : List Byte) (s : State) : State :=
  let x := getQ s q
  let s1 := modQ q (fun y => { y with st := .stopped, cause := cause, copies := [], failAt := none, hold := none, owed := some owed }) s
  let s2 := signal q.fn 0 s1
  let s3 := raiseFnEvent 4 s2
  let s4 := recEvent 0x0201 (leBytes 2 q.fn ++ leBytes 2 q.ring ++ leBytes 2 x.head ++ leBytes 2 x.tail ++ tail) s3
  settleOwed q s4

/-! ## Doorbells (R125) -/

/-- What a doorbell with tail t does, by the rows of R125 in order. DONE, which R124 lets the next doorbell clear, stays as it is under rows
1 to 5, which take no new tail (DESIGN CHOICE, log entry 68). -/
def doorbell (q : QRef) (t : Nat) (s : State) : State :=
  let f := getFn s q.fn
  let x := f.queue q.ring
  let t := t % 65536
  let b := idxDist t x.head
  let a := x.posted
  let s0 := countOn 0 0x80 q.fn 1 s
  if f.resetting || !f.present then s0
  else if x.st = .absent then s0
  else if x.st = .stopped then modQ q (fun y => { y with dropped := true }) s0
  else if x.size < b then ringStop q 1 (.overrun 1 t x.tail x.head) (leBytes 2 t) s0
  else if b < a then ringStop q 2 (.overrun 2 t x.tail x.head) (leBytes 2 t) s0
  else modQ q (fun y => { y with tail := t, hold := none, done := false }) s0

/-! ## Invalidation (R134, R135) -/

/-- RING_INVALIDATE with FROM (R134). -/
def invalidate (q : QRef) (from_ : Nat) (s : State) : State :=
  let x := getQ s q
  if x.st = .absent then s else
  let fr := from_ % 65536
  let late := decide (x.posted < idxDist fr x.head)
  let pos := if late then x.head else fr
  let hold := match x.hold with
    | some h => if idxDist h x.head ≤ idxDist pos x.head then h else pos
    | none => pos
  modQ q (fun y => { y with
    copies := y.copies.take (if late then 0 else idxDist fr y.head)
    failAt := y.failAt.filter fun i => !late && idxDist i y.head < idxDist fr y.head
    hold := some hold, holdSince := if y.hold = none then s.time.now else y.holdSince
    holdNoted := y.hold.isSome && y.holdNoted
    headAt := y.head, done := true, late := late }) s

/-- The hold has lasted 1 s: HOLD_LONG is set and one event is recorded for the hold (R135). -/
def holdTimeout (q : QRef) (s : State) : State :=
  let x := getQ s q
  if x.hold.isSome ∧ !x.holdNoted ∧ x.holdSince + 1000000000 ≤ s.time.now then
    recEvent 0x0202 (leBytes 2 q.fn ++ leBytes 2 q.ring ++ zeros 4) (modQ q (fun y => { y with holdLong := true, holdNoted := true }) s)
  else s

/-! ## Enable and disable (R148, R149) -/

/-- The PF admin registers hold legal values (R147). -/
def pfAdminLegal (s : State) : Bool :=
  let q := getQ s ⟨0, 0x40⟩
  let c := (getFn s 0).cq 16
  decide (6 ≤ q.log2 ∧ q.log2 ≤ 15 ∧ 6 ≤ c.log2 ∧ c.log2 ≤ 15)
    && decide (q.base % 64 = 0 ∧ c.base % 64 = 0 ∧ c.indexBase % 64 = 0)

/-- ENABLE = 1 (R148): ignored unless DISABLED with IDLE = 1, and for the PF admin ring while its registers are illegal (R147). -/
def enableRing (q : QRef) (s : State) : State :=
  if (getQ s q).st = .disabled ∧ idle s q ∧ (q = ⟨0, 0x40⟩ → pfAdminLegal s) then
    let s1 := modQ q (fun y => { y with st := .running }) s
    if q = ⟨0, 0x40⟩ ∧ s.pfFresh then indexOut 0 16 { s1 with pfFresh := false } else s1
  else s

/-- No die dispatcher and no firmware world has been handed the job: it is in an internal ring, waits on the Crown for a draw instance
(11, 12), or waits for its world to restart (50, 51). -/
def Job.unhanded (j : Job) : Bool :=
  j.phase = .ring || j.phase = .wait 11 || j.phase = .wait 12 || j.phase = .wait 50 || j.phase = .wait 51

/-- Results of a function that wait in Crown result staging: finished jobs whose completion is not written, and owed completions (R118). -/
def stagedResults (s : State) (fn : Nat) : Nat :=
  (s.jobs.filter fun j => j.2.fn = fn ∧ j.2.gen = (getFn s fn).gen ∧ j.2.phase = .done).length
    + ((getFn s fn).cqs.map fun c => (c.2.ready.filter (·.job = none)).length).sum

/-- Engines wait for a function whose staged results reach its OUTSTANDING count while it makes no memory request (R118). -/
def enginesWait (s : State) (fn : Nat) : Bool := busOff s fn && (getFn s fn).g.outstanding ≤ stagedResults s fn

/-- Jobs of a queue that no die and no firmware world has been handed (R149). -/
def unhanded (s : State) (q : QRef) : List Nat :=
  (s.jobs.filter fun j => j.2.ofQueue q.fn q.ring (getFn s q.fn).gen && j.2.unhanded).map (·.1)

/-- Squashes a job in an internal ring with MARK = 1: it completes with SQUASHED (R142, R149). -/
def squash (j : Nat) (s : State) : State :=
  finishJob j stSquashed 0 [] [] (modJob j (fun x => { x with mark := 1 }) s)

/-- ENABLE = 0 (R148, R149). -/
def disableRing (q : QRef) (s : State) : State :=
  let x := getQ s q
  match x.st with
  | .running =>
    let s1 := modQ q (fun y => { y with st := .disabled, copies := [], failAt := none, hold := none }) s
    (unhanded s1 q).foldl (fun s j => squash j s) s1
  | .stopped => modQ q (fun y => { y with st := .disabled, tail := y.head, copies := [] }) s
  | _ => s

/-! ## Completion-ring registers (R153 to R157) -/

/-- Queues that complete into a ring. -/
def attached (s : State) (fn cq : Nat) : List Nat :=
  ((getFn s fn).queues.filter fun q => q.2.st ≠ .absent ∧ q.2.cq = cq).map (·.1)

/-- RING_CQ_HEAD (R153). A place that comes free may let an owed stop completion in (R158). -/
def cqHead (fn cq h : Nat) (s : State) : State :=
  let r := (getFn s fn).cq cq
  if (mget (getFn s fn).cqs cq).isNone then s
  else if idxDist r.producer r.head < idxDist (h % 65536) r.head then modCq fn cq (fun r => { r with badHead := true }) s
  else (attached s fn cq).foldl (fun s ring => settleOwed ⟨fn, ring⟩ s) (modCq fn cq (fun r => { r with head := h % 65536 }) s)

/-- RING_CQ_MOD (R154, R157). -/
def cqMod (fn cq v : Nat) (s : State) : State :=
  if (mget (getFn s fn).cqs cq).isNone ∨ bits v 16 8 = 0 then s else
  let s1 := modCq fn cq (fun r => { r with timerUs := bits v 0 10, count := bits v 16 8 }) s
  let r := (getFn s1 fn).cq cq
  if r.vector ≠ 0xFF ∧ r.count < r.unsig then sendCq fn cq s1 else s1

/-- Expiry of a moderation timer (R155, R156). -/
def cqTimer (fn cq : Nat) (s : State) : State :=
  match ((getFn s fn).cq cq).timer with
  | some e => if e ≤ s.time.now then sendCq fn cq s else s
  | none => s

/-- RING_POLL_Dn: the interval travels to the die as a control-class flit (R143). -/
def pollWrite (die v : Nat) (s : State) : State :=
  if die < s.dies.length ∧ 1 ≤ bits v 0 8 ∧ bits v 0 8 ≤ 200 ∧ v < 4294967296 ∧ (getDie s die).fenced = none then
    modDie die (fun d => { d with pollIv := bits v 0 8 }) (tellDie 6 1 (bits v 0 8) die s)
  else s

/-! ## PF admin registers (R147) -/

/-- Sets the low or high word of a 64-bit value. -/
def setWord (v : Nat) (hi : Bool) (w : Nat) : Nat :=
  if hi then v % 4294967296 + w % 4294967296 * 4294967296 else v / 4294967296 * 4294967296 + w % 4294967296

/-- One 32-bit write to a PF admin register at its offset in the RING window; acts only while the ring is DISABLED with IDLE = 1. -/
def pfAdminWord (off v : Nat) (s : State) : State :=
  let q : QRef := ⟨0, 0x40⟩
  if (getQ s q).st = .disabled ∧ idle s q then
    let s1 := modQ q (fun y => { y with
      head := 0, tail := 0
      base := if off = 0 then setWord y.base false v else if off = 4 then setWord y.base true v else y.base
      log2 := if off = 0x18 then bits v 0 4 else y.log2 }) s
    let s2 := modCq 0 16 (fun c => { c with
      producer := 0, head := 0, posted := 0
      base := if off = 8 then setWord c.base false v else if off = 0xC then setWord c.base true v else c.base
      indexBase := if off = 0x10 then setWord c.indexBase false v else if off = 0x14 then setWord c.indexBase true v else c.indexBase
      log2 := if off = 0x18 then bits v 4 4 else c.log2
      vector := if off = 0x18 then bits v 8 6 else c.vector }) s1
    { s2 with pfFresh := true }
  else s

/-! ## Prefetch (R129, R133) -/

/-- The distance from HEAD to an index below which entries are served, or all posted entries. -/
def Queue.below (x : Queue) (lim : Option Nat) : Nat :=
  match lim with
  | some i => min x.posted (idxDist i x.head)
  | none => x.posted

/-- Entries that the Crown may still read: below TAIL, below a hold, below an entry whose read has failed, and up to 8 copies (R133, R134). -/
def prefetchRoom (x : Queue) : Nat := min 8 (min (x.below x.hold) (x.below x.failAt)) - x.copies.length

/-- Descriptors arrive in one read from index `first` on, which does not wrap past the end of the queue (R129); only those that continue the
copies are kept. -/
def arrive (q : QRef) (first : Nat) (ds : List Desc) (s : State) : State :=
  let x := getQ s q
  if x.st = .running ∧ first % 65536 = (x.head + x.copies.length) % 65536 ∧ !busOff s q.fn ∧ !(getFn s q.fn).d3hot then
    modQ q (fun y => { y with copies := y.copies
      ++ (ds.take (min (prefetchRoom x) (x.size - first % x.size))).map (fun d => (⟨fit 64 d.bytes⟩ : Desc)) }) s
  else s

/-- The entry at HEAD could not be read: it counts as taken and the queue stops (R128). Its record 0x0201 has HEAD past that entry and, as no
doorbell value exists, no continued record (DESIGN CHOICE, log entry 69). -/
def fetchStop (q : QRef) (s : State) : State :=
  let x := getQ s q
  if x.st = .running ∧ x.failAt = some x.head then
    ringStop q 3 (.fetchFail ((x.head + 1) % 65536)) [] (modQ q (fun y => { y with head := (y.head + 1) % 65536 }) s)
  else s

/-- The read of an entry that the Crown prefetches fails (R119, R128): the error is reported at once, and the queue stops at that entry, as
soon as the entries before it have been taken (log entry 26). -/
def fetchFail (q : QRef) (idx : Nat) (s : State) : State :=
  let x := getQ s q
  let d := idxDist idx x.head
  if x.st = .running ∧ x.copies.length ≤ d ∧ d < x.copies.length + prefetchRoom x then
    fetchStop q (modQ q (fun y => { y with failAt := some (idx % 65536) }) (aerError q.fn 1 (x.entryAddr idx) s))
  else s

/-! ## The commands -/

/-- RING_DOORBELL (R125). -/
def execRingDoorbell (t : Nat) (q : QRef) (tail : Nat) (s : State) : Host.Outcome State Fault Refusal :=
  let s1 := tick t s
  .next (if fnOpen s1 q.fn then doorbell q tail s1 else s1)

/-- RING_INVALIDATE (R134). -/
def execRingInvalidate (t : Nat) (q : QRef) (from_ : Nat) (s : State) : Host.Outcome State Fault Refusal :=
  let s1 := tick t s
  .next (if fnOpen s1 q.fn then invalidate q from_ s1 else s1)

/-- RING_ENABLE (R148). -/
def execRingEnable (t : Nat) (q : QRef) (s : State) : Host.Outcome State Fault Refusal :=
  let s1 := tick t s
  .next (if fnOpen s1 q.fn then enableRing q s1 else s1)

/-- RING_DISABLE (R149). -/
def execRingDisable (t : Nat) (q : QRef) (s : State) : Host.Outcome State Fault Refusal :=
  let s1 := tick t s
  .next (if fnOpen s1 q.fn then disableRing q s1 else s1)

/-- RING_CQ_HEAD (R153). -/
def execRingCqHead (t fn c head : Nat) (s : State) : Host.Outcome State Fault Refusal :=
  let s1 := tick t s
  .next (if fnOpen s1 fn then cqHead fn c head s1 else s1)

/-- RING_CQ_MOD (R157). -/
def execRingCqMod (t fn c value : Nat) (s : State) : Host.Outcome State Fault Refusal :=
  let s1 := tick t s
  .next (if fnOpen s1 fn then cqMod fn c value s1 else s1)

/-- RING_POLL_WRITE (R143). -/
def execRingPollWrite (t die value : Nat) (s : State) : Host.Outcome State Fault Refusal :=
  let s1 := tick t s
  .next (if windowOpen s1 0 true then pollWrite die value s1 else s1)

/-- DESCRIPTOR_ARRIVAL (R133). -/
def execDescriptorArrival (t : Nat) (q : QRef) (first : Nat) (ds : List Desc) (s : State) : Host.Outcome State Fault Refusal :=
  .next (arrive q first ds (tick t s))

/-- DESCRIPTOR_FETCH_FAIL (R128). What the device does is the same for every way in which the read fails (R119). -/
def execDescriptorFetchFail (t : Nat) (q : QRef) (idx : Nat) (_err : ReadError) (s : State) : Host.Outcome State Fault Refusal :=
  .next (fetchFail q idx (tick t s))

/-- COMPLETION_POST (R152). -/
def execCompletionPost (t fn c : Nat) (s : State) : Host.Outcome State Fault Refusal :=
  .next (postCq fn c (tick t s))

/-- CQ_TIMER_EXPIRY (R156). -/
def execCqTimerExpiry (t fn c : Nat) (s : State) : Host.Outcome State Fault Refusal :=
  .next (cqTimer fn c (tick t s))

/-- INV_HOLD_TIMEOUT (R135). -/
def execInvHoldTimeout (t : Nat) (q : QRef) (s : State) : Host.Outcome State Fault Refusal :=
  .next (holdTimeout q (tick t s))

end Sys2Proof.Machine
end

