-- ==== Sys2Proof/Machine/Jobs.lean ====
section
/-! DEFINITION. What is common to every operation: the shape of an operation's meaning, the admission checks in the order of R18
and R504, LOCK (R378), start-up (R471), untrusted time (R69), and the way from admission over the fragment table and the source
to the operation itself (R35, R130, R141). -/

namespace Sys2Proof.Machine

/-- The meaning of one opcode. -/
structure OpSem where
  /-- Accepted only on a PF service queue or the PF admin ring (R504 order 2). -/
  pfOnly : Desc → Bool
  /-- Offset of the first reserved byte that is not 0 (R504 order 3). -/
  resv   : Desc → Option Nat
  /-- Fenced: TARGET is checked (R504 order 4) and time must be acquired (R69). -/
  fenced : Desc → Bool
  /-- Names a key, or is a key command (R471). -/
  keyed  : Desc → Bool
  /-- Reads a source through SRC. -/
  src    : Bool
  /-- Length checks, given the total source length (status LENGTH). -/
  len    : Job → Nat → List Fail
  /-- The operation's own checks (R504 order 5 and the later statuses of R18). -/
  own    : State → Job → List Fail
  /-- The operation, once its source is held. -/
  go     : Nat → State → State
  /-- The end of its engine work. -/
  fin    : Nat → State → State

/-! ## LOCK and life cycle (R348, R360, R378) -/

/-- Jobs that run in LOCK (R378). Of the quorum commands, those for the Security Officer (0) and the Auditor (2) run. -/
def lockExempt (d : Desc) : Bool :=
  let op := d.op
  op = 0x00 || (0xC0 ≤ op && op ≤ 0xCD) || op = 0x91 || op = 0x93 || op = 0x98 || op = 0xA4 || op = 0xA0 || op = 0xA1
    || op = 0x8D || ((op = 0x8C || op = 0x8E) && (d.f 32 1 = 0 || d.f 32 1 = 2)) || op = 0xBD
    || (op = 0xB8 && d.f 32 1 = 6) || op = 0xA9 || op = 0xAA || op = 0xAB || op = 0xAC

/-- The word pattern of each valid state (R350), by LCS code. -/
def lcsPattern (code : Nat) : List Nat :=
  if code = 6 then List.replicate 8 0xFFFFFFFF else
  [if 2 ≤ code then 0x5A5A5A5A else 0, if 3 ≤ code then 0xC3C3C3C3 else 0, if 4 ≤ code then 0x0FF00FF0 else 0, if 5 ≤ code then 0x3C3C3C3C else 0, 0, 0, 0, 0]

/-- Every bit set in the words is in the pattern. -/
def within (words pat : List Nat) : Bool := (List.zipWith (fun w p => decide ((w ||| p) = p)) words pat).all id

/-- INTENT_TARGET (R360). -/
def intentTarget (s : State) : Nat :=
  if s.lcs ≠ .invalid then 0 else
  (((span 2 6).filter fun c => s.otp.intents.getD (c - 2) 0 ≠ 0 && within s.otp.words (lcsPattern c)).getLast?).getD 0

/-- Jobs that run in INVALID (R360). -/
def invalidExempt (d : Desc) (x : Job) : Bool :=
  d.op = 0x00 || (0xC8 ≤ d.op && d.op ≤ 0xCD && x.fn = 0) || d.op = 0xB8

/-- The life-cycle state forbids engine work (R348). -/
def lcsForbids (s : State) : Bool := s.lcs = .scrap || s.lcs = .invalid

/-- LOCKED by LOCK or by the life-cycle state. -/
def lockedFail (s : State) (x : Job) : List Fail :=
  failIf (lcsForbids s && !invalidExempt x.d x) stLocked 0
    ++ failIf (s.life.keysShut && ((0x80 ≤ x.d.op && x.d.op ≤ 0x8B) || x.d.op = 0x97)) stLocked 0
    ++ failIf ((s.life.resetRequired || s.life.trans.isSome) && x.d.op != 0) stLocked 1
    ++ failIf (s.locked && !lockExempt x.d && !(s.lcs = .invalid && x.d.op = 0xB8 && x.d.f 32 1 = intentTarget s)) stLocked 0

/-! ## Start-up (R471) -/

/-- NOP and the PF admin queue commands run from the end of step 4; so does what INVALID serves (R360). -/
def startExempt (s : State) (x : Job) : Bool := s.lcs = .invalid || x.d.op = 0 || (0xC8 ≤ x.d.op && x.d.op ≤ 0xCD && x.fn = 0)

/-- Some die in service has its entropy READY. -/
def anyReady (s : State) : Bool := (liveDies s).any fun d => (getDie s d).rngReady

/-- Statuses of the start-up table of R471, TIME_UNTRUSTED aside. -/
def startupFail (s : State) (x : Job) (sem : OpSem) : List Fail :=
  if startExempt s x then []
  else if s.startStep ≤ 8 then [⟨stNotReady, 1⟩]
  else failIf (sem.keyed x.d && ((s.lcs = .provision && (s.otp.w.headD none).isNone) || (getTenant s x.tenant).salt.isNone)) stNotReady
      (if s.lcs = .provision && (s.otp.w.headD none).isNone then 3 else 1)
    ++ failIf (decide (s.startStep = 9) && (s.lcs = .blank || s.lcs = .test || s.lcs = .ret) && sem.keyed x.d) stNotReady 1

/-- TIME_UNTRUSTED of a fenced command before acquisition (R69); EPC_CONFIGURE is the exception of R87. -/
def fenceTimeFail (s : State) (x : Job) (sem : OpSem) : List Fail :=
  failIf (sem.fenced x.d && s.time.reasons.notAcquired && x.d.op != 0x94) stUntrusted 1

/-! ## Admission checks (R18, R504) -/

/-- Length checks common to every operation: the fragment count (R14) or the 16 MiB limit. -/
def commonLen (d : Desc) : List Fail :=
  if d.indirect then failIf (decide (d.srcLen < 1 ∨ 64 < d.srcLen)) stLength 0
  else failIf (decide (maxSource < d.srcLen)) stLength 0

/-- HOST_SPLIT is a choice of DRAW, SHUFFLE and SIGN only (R45); those three, VERIFY and ECDH check it in their own order (R285). -/
def splitFail (d : Desc) : List Fail :=
  failIf (d.hostSplit && !([0x20, 0x21, 0x30, 0x31, 0x32].contains d.op)) stInput 0xFE

/-- A check of the key that a job names, which waits for the key store: until it is restored the job is NOT_READY instead (R175, R301). -/
def keyCheck (f : Fail) : Bool := f.st = stStale || f.st = stUsage

/-- The operation's own checks; those of a named key only once the key store serves it. -/
def ownFails (sem : OpSem) (s : State) (x : Job) : List Fail :=
  if x.d.handle ≠ 0 ∧ startupFail s x sem ≠ [] then (sem.own s x).filter fun f => !keyCheck f else sem.own s x

/-- Every failed admission check, INPUT_INVALID in the order of R504. -/
def admissionFails (sem : OpSem) (s : State) (x : Job) : List Fail :=
  lockedFail s x
    ++ (if sem.src then commonLen x.d else []) ++ (if sem.src && x.d.indirect then [] else sem.len x x.d.srcLen)
    ++ failIf (sem.pfOnly x.d && x.fn != 0) stInput 0xFB
    ++ failAt (match flagsReserved x.d with
        | some i => some i
        | none => sem.resv x.d)
    ++ (if sem.fenced x.d then failAt (firstNonzero x.d.bytes (span 62 63)) ++ (if x.d.op = 0x94 ∧ s.time.reasons.notAcquired then failIf (x.d.targetField ≠ 0) stInput 0xFD else targetFail x.d.targetField x.epoch) else [])
    ++ splitFail x.d ++ ownFails sem s x
    ++ failIf (sem.src && x.d.indirect && decide (x.d.srcAddr % 16 ≠ 0)) stInput 0xF8
    ++ startupFail s x sem ++ fenceTimeFail s x sem

/-- The first failure of an admission; an opcode that its queue does not accept fails with INFO 0xFF and nothing else but LOCKED (R12). -/
def admission (sem : OpSem) (s : State) (x : Job) : Option Fail :=
  if opAccepted x.d.op x.ring then firstFail (admissionFails sem s x)
  else firstFail (lockedFail s x ++ [⟨stInput, 0xFF⟩])

/-! ## From admission to the operation -/

/-- The operation starts, or its fragment table or source is read first. A source that arrived, or whose read failed, before the admission is
not read again (R170). -/
def startSource (sem : OpSem) (id : Nat) (s : State) : State :=
  let x := getJob s id
  if x.d.srcLen = 0 ∨ !sem.src then sem.go id s
  else if x.srcBad then finishJob id stInput 0xFA [] [] s
  else if x.arrived.isSome then sem.go id (countOn x.die 5 x.fn x.d.srcLen (modJob id (fun x => { x with srcLen := x.d.srcLen }) s))
  else if x.d.indirect then modJob id (fun x => { x with phase := .table }) s
  else modJob id (fun x => { x with phase := .source, srcLen := x.d.srcLen }) s

/-- The block of the curve table that a descriptor's key, or its ALG parameter, names (R266). -/
def curveNamed (b : Bank) (tenant : Nat) (d : Desc) : Bytes :=
  let alg := match mget b.slots (d.handle % 65536) with
    | some k => if d.handle = 0 then d.f 36 1 else k.alg
    | none => d.f 36 1
  if 0x20 ≤ alg ∧ alg ≤ 0x2F then (mget b.curves (tenant * 16 + (alg - 0x20))).getD [] else []

/-- An admission ends IDLE: the gated engines of the die run again (R461). -/
def wakeDie (die : Nat) (s : State) : State :=
  if (getDie s die).idle then modDie die (fun d => { d with
    idle := false, mandrel := { d.mandrel with req := d.mandrel.req / 8 * 8, held := d.mandrel.held / 8 * 8, gated := d.mandrel.gated / 8 * 8 } }) s
  else s

/-- A job as its admission at this instant sees it, on its die: Stamp, epoch and bank are read here, and the split policy, the key slot and
the close that it names are fixed (R35, R36). -/
def admittedJob (s : State) (x : Job) : Job :=
  let b := bankOf s x.die
  { x with
    stamp := fnStamp s b x.fn, epoch := s.time.epoch, split := splitOf s b x.fn, admAt := s.time.now
    auths := if x.d.op = 0x90 then s.authorities else []
    key := mget b.slots (x.d.handle % 65536)
    curve := curveNamed b (tenantOf s x.fn) x.d
    closeAt := (((mget b.close (tenantOf s x.fn)).getD []).find? (·.game = x.d.f 32 2)).map fun e => (e.seconds, e.ns) }

/-- Split policy of one engine function as the job's admission read it (R36, R43). -/
def Job.policy (x : Job) (which : Nat) : Nat := bits x.split (2 * which) 2

/-- The job takes beacon-only Stamps (R65). -/
def Job.onlyBeacon (x : Job) : Bool := x.policy 4 = 3

/-- The Stamp of this instant as the job's function sees it, under the policy of the job's admission. -/
def jobStamp (s : State) (x : Job) : Stamp := mkStamp s x.onlyBeacon (if x.onlyBeacon then beaconTrusted s else pkgTrusted s)

/-- Trust of time as the job's function sees it. -/
def jobTrusted (s : State) (x : Job) : Bool := if x.onlyBeacon then beaconTrusted s else pkgTrusted s

/-- The state in which the checks of an admission run: the die wakes, the job is counted and perhaps sampled, and it has what its
admission fixes. -/
def admitState (id : Nat) (s : State) : State :=
  match mget s.jobs id with
  | none => s
  | some x =>
    let hit := sampleJob x.die x.fn (wakeDie x.die s)
    let y := { admittedJob s x with phase := .engine, sampled := hit.1, admNo := (getDie s x.die).admCount }
    countOn x.die 2 x.fn 1 (modDie x.die (fun d => { d with admCount := d.admCount + 1 }) { hit.2 with jobs := mset hit.2.jobs id y })

/-- A job fails an admission check. -/
def refuseJob (id : Nat) (f : Fail) (s : State) : State := failJob id f (modJob id (fun x => { x with refused := true }) s)

/-- Admission of a job at this instant: it fails with its first failed check, or starts. -/
def admitJob (sem : OpSem) (id : Nat) (s : State) : State :=
  match mget s.jobs id with
  | none => s
  | some x =>
    match admission sem (admitState id s) (admittedJob s x) with
    | some f => refuseJob id f (admitState id s)
    | none => startSource sem id (admitState id s)

/-- The failed checks of a fragment table (R14, R130), then the length checks that need the total. -/
def fragFails (sem : OpSem) (x : Job) (t : Bytes) : List Fail :=
  let n := x.d.srcLen
  let lens := fragLens t n
  failIf (lens.any (· = 0) || decide (maxSource < lens.sum)) stLength 0
    ++ sem.len x lens.sum ++ failAt (fragReserved t n)

/-- The fragment table of a job arrives (R130). -/
def fragArrive (sem : OpSem) (id : Nat) (t : Bytes) (s : State) : State :=
  match mget s.jobs id with
  | none => s
  | some x =>
    if x.phase = .table then
      match firstFail (fragFails sem x t) with
      | some f => refuseJob id f s
      | none => modJob id (fun x => { x with phase := .source, frags := t, srcLen := (fragLens t x.d.srcLen).sum }) s
    else s

/-- The Crown reads the source of a job whose entry still waits for its admission: one buffer, of an operation that has a source (R170). A
fragment table is read after the admission, whose checks come before those of its entries (R130). -/
def readsEarly (sem : OpSem) (x : Job) : Bool := x.phase = .ring && sem.src && !x.d.indirect && x.d.srcLen ≠ 0 && x.arrived.isNone && !x.srcBad

/-- The source of a job has arrived whole (R141), with the Stamp of this instant as its function sees it (R170). -/
def sourceArrive (sem : OpSem) (id : Nat) (src : Bytes) (s : State) : State :=
  match mget s.jobs id with
  | none => s
  | some x =>
    if x.phase = .source then
      sem.go id (countOn x.die 5 x.fn x.srcLen
        (modJob id (fun y => { y with phase := .engine, src := fit y.srcLen src, arrived := some (jobStamp s y) }) s))
    else if readsEarly sem x then
      modJob id (fun y => { y with src := fit y.d.srcLen src, arrived := some (fnStamp s (bankOf s y.die) y.fn) }) s
    else s

/-- A source or fragment-table read fails (R119): INPUT_INVALID, INFO 0xFA, once the job is admitted, and an uncorrectable error is recorded. -/
def sourceFail (sem : OpSem) (id addr : Nat) (s : State) : State :=
  match mget s.jobs id with
  | none => s
  | some x =>
    if x.phase = .source ∨ x.phase = .table then
      finishJob id stInput 0xFA [] [] (aerError x.fn 1 addr s)
    else if readsEarly sem x then modJob id (fun y => { y with srcBad := true }) (aerError x.fn 1 addr s)
    else s

/-- Units of a kind: 0 MAC cores, 1 Reckoner lanes, 2 tree hashers. -/
def Die.units (d : Die) (kind : Nat) : List Unit := if kind = 0 then d.cores else if kind = 1 then d.lanes else d.hashers

/-- A unit may serve a job of a source length that a fault has taken from unit `bar`: in service, another unit than that one, and for the
MAC cores 12 to 15 a source of up to 4,096 bytes (R46, R176). -/
def unitFits (kind len : Nat) (bar : Option Nat) (i : Nat) (u : Unit) : Bool :=
  !u.retired && bar ≠ some i && (kind ≠ 0 || i < 12 || len ≤ 4096)

/-- Some unit of the kind on the die can serve the job (R47). -/
def healthy (d : Die) (kind len : Nat) (bar : Option Nat) : Bool :=
  (List.range (d.units kind).length).any fun i => unitFits kind len bar i ((d.units kind).getD i {})

/-- Source length of a descriptor as far as it is known at its take: 0 of a fragment table. -/
def takeLen (d : Desc) : Nat := if d.indirect then 0 else d.srcLen

/-- A MAC core or a lane runs the job, where its operation needs one: MAC operations and Reckoner operations (R176, R280). -/
def onEngine (s : State) (id : Nat) (x : Job) : Bool :=
  let d := getDie s x.die
  if 0x10 ≤ x.d.op ∧ x.d.op ≤ 0x13 then d.cores.any (·.job = some id)
  else if reckonerOp x.d.op then d.lanes.any (·.job = some id)
  else !d.macQ.contains id && !d.rq.contains id

/-- The engine work of a job ends; a job that still waits for an engine has none to end. -/
def engineEnd (sem : OpSem) (id : Nat) (s : State) : State :=
  match mget s.jobs id with
  | none => s
  | some x => if x.phase = .engine ∧ onEngine s id x then sem.fin id s else s

/-! ## Taking an entry (R123, R137) -/

/-- A taken entry waits as a barrier for every earlier completion of its queue (R131). -/
def barrierHolds (s : State) (q : QRef) (d : Desc) : Bool := d.barrier && (queueBusy s q || stopPending s q)

/-- The package serves queues: no Crown fault (R52), and not in RETAIN or a transition to or from it (R463). -/
def serving (s : State) : Bool := !s.crownFault && s.pwrState = 0

/-- Free places of the internal rings: 511 of 512 entries, since equal indices mean empty (R140, R141; log entry 12). -/
def ringRoom (d : Die) (op : Nat) : Bool := (if reckonerOp op then d.ringP.length else d.ringG.length) < 511

/-- Eligibility of a queue whose next entry is d, the internal ring aside (R137). -/
def eligible (s : State) (q : QRef) (d : Desc) : Bool :=
  let f := getFn s q.fn
  let x := f.queue q.ring
  serving s && x.st = .running && 0 < x.posted && (match x.hold with
      | some h => h != x.head
      | none => true)
    && !barrierHolds s q d && outstanding s q.fn < f.g.outstanding && 0 < (f.cq x.cq).room
    && x.failAt != some x.head && !f.d3hot && !busOff s q.fn && !f.resetting && f.present

/-- The take itself: HEAD advances, the copy is consumed, a place is reserved and the job exists, not yet placed (R123, R138). -/
def takeEntry (q : QRef) (d : Desc) (s : State) : Nat × State :=
  let f := getFn s q.fn
  let x := f.queue q.ring
  let id := s.nextJob
  let job : Job := { fn := q.fn, tenant := f.tenant, ring := q.ring, gen := f.gen, idx := x.head, creation := x.creation, d := ⟨fit 64 d.bytes⟩, takenAt := s.time.now, phase := .wait 0, srcLen := if d.indirect then 0 else d.srcLen }
  let s1 := modQ q (fun y => { y with head := (y.head + 1) % 65536, copies := y.copies.drop 1, takes := y.takes ++ [id] }) s
  let s2 := modCq q.fn x.cq (fun c => { c with reserved := c.reserved + 1 }) s1
  (id, fetchStop q (countOn 0 0x81 q.fn 1 { s2 with jobs := mset s2.jobs id job, nextJob := id + 1 }))

end Sys2Proof.Machine
end

