-- ==== Sys2Proof/Machine/Fence.lean ====
section
/-! DEFINITION. Rule banks and fences: what a change does to a bank, the fence schedule, staging and confirmation (R37, R75, R76). -/

namespace Sys2Proof.Machine

/-! ## What a change does -/

/-- A close table without a game. -/
def closeWithout (l : List CloseEntry) (g : Nat) : List CloseEntry := l.filter (·.game ≠ g)

/-- A close table with an entry set in the place of an old one, or at its end. -/
def closePut (l : List CloseEntry) (e : CloseEntry) : List CloseEntry :=
  if l.any (·.game = e.game) then l.map fun x => if x.game = e.game then e else x else l ++ [e]

/-- The selected fields of a split policy (R111): bit i of MASK selects field i. -/
def splitMerge (old new mask : Nat) : Nat :=
  ((List.range 5).map fun i => 4 ^ i * (if mask.testBit i then bits new (2 * i) 2 else bits old (2 * i) 2)).sum

/-- A change on a rule bank (R37). Changes of package-wide state leave the bank alone. -/
def applyBank (b : Bank) : Change → Bank
  | .closeSet t e => { b with close := mset b.close t (closePut ((mget b.close t).getD []) e) }
  | .closeRetire t g => { b with close := mset b.close t (closeWithout ((mget b.close t).getD []) g) }
  | .splitSet fn p m => { b with split := mset b.split fn (splitMerge ((mget b.split fn).getD 0) p (m % 2 + m / 4 * 4)) }
  | .ledgerPol t p => { b with ledgerPol := mset b.ledgerPol t p }
  | .shareRing .. => b
  | .shareInst .. => b
  | .epcParams .. => b
  | .ledgerCfg .. => b
  | .reseed _ => b
  | .authority .. => b
  | .retire .. => b
  | .tmp .. => b
  | .cnt .. => b
  | .snap .. => b
  | .sample .. => b
  | .key slot k _ => { b with slots := mset b.slots slot k }
  | .curve t n c => { b with curves := if c = [] then mdel b.curves (t * 16 + n) else mset b.curves (t * 16 + n) c }

/-- EPC_CONFIGURE values: bit i of MASK selects a field (R87). -/
def epcMerge (old new : EpcParams) (mask : Nat) : EpcParams :=
  { trustLimit := if mask.testBit 0 then new.trustLimit else old.trustLimit
    stability := if mask.testBit 1 then new.stability else old.stability
    refUnc := if mask.testBit 2 then new.refUnc else old.refUnc
    grace := if mask.testBit 3 then new.grace else old.grace
    floor := if mask.testBit 4 then new.floor else old.floor
    limit := if mask.testBit 5 then new.limit else old.limit }

/-- A share change on a function (R109, R110): a ring-level change acts only on the creation that it names; the pool increase that was
reserved is part of OUTSTANDING from then on, or returns where the instance is gone (R115). -/
def applyShare (f : FnState) (fn : Nat) : Change → FnState
  | .shareRing n r burst w c =>
    let q := f.queue r
    if n = fn ∧ q.st ≠ .absent ∧ q.creation = c then
      { f with queues := mset f.queues r { q with burst := if burst = 0 then q.burst else burst, weight := if w = 0 then q.weight else w } }
    else f
  | .shareInst n o b res =>
    if n = fn then
      { f with
        g := if f.present then { f.g with outstanding := if o = 0 then f.g.outstanding else o, weightBudget := if b = 0 then f.g.weightBudget else b } else f.g
        reservedOut := f.reservedOut - res }
    else f
  | _ => f

/-- LDG_CONFIGURE values: bit i of MASK selects a field (R197). -/
def ledgerMerge (l : Ledger) (mask key batch deadline : Nat) : Ledger :=
  { l with
    key := if mask.testBit 0 then key else l.key
    batch := if mask.testBit 1 then batch else l.batch
    deadline := if mask.testBit 2 then deadline else l.deadline }

/-- A change on package-wide state, applied when the Crown swaps its bank (R77 item 1). -/
def applyPkg (s : State) : Change → State
  | .shareRing n r b w c => { s with fns := mmap (fun k f => applyShare f k (.shareRing n r b w c)) s.fns }
  | .shareInst n o b r => { s with fns := mmap (fun k f => applyShare f k (.shareInst n o b r)) s.fns }
  | .epcParams m p => { s with epc := epcMerge s.epc p m }
  | .closeSet .. => s
  | .closeRetire .. => s
  | .splitSet .. => s
  | .ledgerPol .. => s
  | .curve .. => s
  | .key .. => s
  | .retire t _ => modTenant t (fun x => { x with retiring := some s.time.epoch }) s
  | .authority install aki key _ =>
    { s with authorities := if install then s.authorities ++ [{ aki := aki, key := key }] else s.authorities.filter (·.aki ≠ aki) }
  | .tmp code cls en high =>
    let b := if 0x0D ≤ code ∧ code ≤ 0x10 then 2 ^ (code - 0x0D) else 0
    { s with tamper := { s.tamper with
        classes := lset s.tamper.classes (code - 1) cls
        enable := if en then s.tamper.enable ||| b else s.tamper.enable - (s.tamper.enable &&& b)
        high := if high then s.tamper.high ||| b else s.tamper.high - (s.tamper.high &&& b) } }
  | .cnt dies n ev filter thr clear =>
    { s with dies := s.dies.mapIdx fun i (d : Die) => if dies.contains i ∧ d.live then
        let c := (mget d.cnt n).getD {}
        { d with cnt := mset d.cnt n { c with ev := ev, filter := filter, thr := thr, value := if clear then 0 else c.value, sat := !clear && c.sat } }
      else d }
  | .snap on log2 period base index =>
    { s with snap := { s.snap with on := on, log2 := log2, period := period, base := base, index := index, from_ := s.time.epoch, written := 0, taken := 0 } }
  | .sample dies mode jobPer fwPer fn =>
    { s with dies := s.dies.mapIdx fun i (d : Die) => if dies.contains i ∧ d.live then
        { d with sampler := { d.sampler with mode := mode, jobPer := jobPer, fwPer := fwPer, fn := fn, seen := 0 } } else d }
  | .reseed p => { s with rngPeriod := some p, rngT0 := s.time.epoch }
  | .ledgerCfg t m k b d =>
    if t = 0xFFFF then { s with pkg := ledgerMerge s.pkg m k b d }
    else { s with ledgers := mset s.ledgers t (ledgerMerge ((mget s.ledgers t).getD {}) m k b d) }

/-! ## The state as it will stand at T (R82, R109) -/

/-- Pending changes up to a target, in acceptance order within each target. -/
def changesTo (s : State) (tgt : Nat) : List Change :=
  (s.fence.filter (·.target ≤ tgt)).flatMap fun f => f.changes.map (·.2)

/-- The Crown's bank as it will stand at a target. -/
def bankAt (s : State) (tgt : Nat) : Bank := (changesTo s tgt).foldl applyBank (crownBank s)

/-- A function as it will stand at a target. -/
def fnAt (s : State) (tgt fn : Nat) : FnState := (changesTo s tgt).foldl (fun f c => applyShare f fn c) (getFn s fn)

/-- Targets pending, from a target on. -/
def pendingTargets (s : State) : List Nat := s.fence.map (·.target)

/-! ## The schedule (R76) -/

/-- Adds changes to the target of a schedule, in acceptance order; a target already staged is staged again with them. -/
def addTarget (l : List FenceTarget) (tgt : Nat) (cs : List (Nat × Change)) : List FenceTarget :=
  match l with
  | [] => [{ target := tgt, changes := cs }]
  | f :: fs =>
    if tgt < f.target then { target := tgt, changes := cs } :: f :: fs
    else if tgt = f.target then { f with changes := f.changes ++ cs, acks := [], staged := false } :: fs
    else f :: addTarget fs tgt cs

/-- Staging of the earliest target begins once the epoch has reached T − 2 (R76). -/
def stagingStart (s : State) : State :=
  match s.fence with
  | f :: fs => if !f.staging && f.target ≤ s.time.epoch + 2 then { s with fence := { f with staging := true } :: fs } else s
  | [] => s

/-- A 65th distinct target is refused (R76). -/
def fenceFull (s : State) (tgt : Nat) : Bool := 64 ≤ s.fence.length && !(s.fence.any (·.target = tgt))

/-- The Crown key world accepts the changes of a job for target T: the job waits until they are staged (R37 step 1, R76). A command whose
function has been reset since its take is withdrawn instead (R113). -/
def acceptFenced (id tgt : Nat) (cs : List Change) (s : State) : State :=
  if stale s (getJob s id) then finishJob id stRetry 0 [] [] s
  else if fenceFull s tgt then finishJob id stQuota 0 [] [] s
  else stagingStart (modJob id (fun x => { x with phase := .fence, target := tgt })
    { s with fence := addTarget s.fence tgt (cs.map fun c => (id, c)) })

/-- Jobs whose changes wait to be staged for a target. -/
def fenceWaiters (s : State) (tgt : Nat) : List Nat :=
  (s.jobs.filter fun j => j.2.phase = .fence ∧ j.2.target = tgt).map (·.1)

/-! ## Quorum (R310, R312, R314) -/

/-- INTENT of a command with its source bytes (R314). -/
def intentOf (x : Job) : Bytes :=
  digest384 ([0x10] ++ leBytes 1 x.d.op ++ leBytes 2 x.fn ++ leBytes 4 x.d.handle ++ leBytes 4 x.d.aux ++ slice x.d.bytes 32 32
    ++ digest384 x.src)

/-- The quorum of a role is open for this command. -/
def quorumOpenFor (s : State) (x : Job) (role : Nat) : Bool :=
  let q := s.vault.sessions.getD role {}
  q.st = 2 && q.intent = intentOf x

/-- The quorums that a fenced command needs (R302, R87). -/
def fencedRoles (s : State) (x : Job) : List Nat :=
  if x.d.op = 0xA8 then (if s.lcs = .provision ∨ s.lcs = .field ∨ s.lcs = .ret then [0] else [])
  else if x.d.op = 0x94 then (if s.lcs = .provision ∨ s.lcs = .field then [3] else [])
  else if x.d.op = 0x89 then [1] else if x.d.op = 0x8A then [0] else if x.d.op = 0x96 then [3] else []

/-- Sets the session of a role. -/
def putSession (role : Nat) (q : Session) (s : State) : State :=
  { s with vault := { s.vault with sessions := lset s.vault.sessions role q } }

/-- The sessions that approved a command end when it completes with OK; components are wiped (R314). -/
def consume (roles : List Nat) (s : State) : State := roles.foldl (fun s r => putSession r {} s) s

/-- The pool increase of an INSTANCE_SHARE is reserved, for a function that is there (R109). -/
def reserve (c : Change) (s : State) : State :=
  match c with
  | .shareInst fn _ _ r => modFn fn (fun f => { f with reservedOut := f.reservedOut + r }) s
  | _ => s

/-- What a withdrawn change had reserved returns (R109). -/
def unreserve (c : Change) (s : State) : State :=
  match c with
  | .shareInst fn _ _ r => modFn fn (fun f => { f with reservedOut := f.reservedOut - r }) s
  | _ => s

/-- The changes that a job has in the schedule. -/
def changesOf (s : State) (id : Nat) : List Change := s.fence.flatMap fun f => (f.changes.filter (·.1 = id)).map (·.2)

/-- A staged command completes with OK and T in Result bytes 24–29 (R37 step 3, R75); a pool increase is reserved as it completes (R109). -/
def fenceDone (id : Nat) (s : State) : State :=
  let x := getJob s id
  okJob id (leBytes 6 x.target ++ zeros 2) x.data ((changesOf s id).foldl (fun s c => reserve c s) (consume (fencedRoles s x) s))

/-- A change leaves the schedule without having been applied: what its completed command had reserved returns. -/
def unapplied (c : Nat × Change) (s : State) : State :=
  if (mget s.jobs c.1).any (·.phase = .fence) then s else unreserve c.2 s

/-- Every live die has acknowledged the target. -/
def allAcked (s : State) (f : FenceTarget) : Bool := (liveDies s).all fun d => f.acks.contains d

/-- Completes the commands of the staging target once every live die has acknowledged it (R37 step 3). -/
def settleStaging (s : State) : State :=
  match s.fence with
  | f :: fs =>
    if f.staging && !f.staged && allAcked s f then
      (fenceWaiters s f.target).foldl (fun s j => fenceDone j s) { s with fence := { f with staged := true } :: fs }
    else s
  | [] => s

/-- The change is one of the key store, which the key world of a die writes (R405). -/
def Change.ofKeys : Change → Bool
  | .key .. => true
  | _ => false

/-- The world that writes the changes of a die runs: the key world on the Crown; on a brim die the key world for key-store changes and
the service world for the others (R405, R410, R411). -/
def mayStage (s : State) (die : Nat) (f : FenceTarget) : Bool :=
  let m := (getDie s die).mandrel
  if die = 0 then m.kw.st = 0
  else f.changes.all fun c => if c.2.ofKeys then m.kw.st = 0 else m.sw.st = 0

/-- A die writes the change into STAGED and acknowledges it (R37 step 2). -/
def stagingAck (die tgt : Nat) (s : State) : State :=
  match s.fence with
  | f :: fs =>
    if f.staging && f.target = tgt && (getDie s die).live && mayStage s die f then
      let s1 := modDie die (fun d => { d with staged := some { target := tgt, confirmed := false, changes := f.changes } }) s
      settleStaging { s1 with fence := { f with acks := insertNat f.acks die } :: fs }
    else s
  | [] => s

/-- CONFIRM(target) reaches a die (R37 step 4). -/
def confirmFlit (die tgt : Nat) (s : State) : State :=
  match s.fence with
  | f :: _ =>
    if f.confirmed && f.target = tgt then
      modDie die (fun d => { d with staged := match d.staged with
        | some g => if g.target = tgt then some { g with confirmed := true } else some g
        | none => none }) s
    else s
  | [] => s

/-- The bank swap of a die at boundary B: a confirmed STAGED bank is merged into CURRENT, an unconfirmed one is dropped (R37). -/
def swapDie (b : Nat) (d : Die) : Die :=
  match d.staged with
  | some g =>
    if g.target = b then
      { d with bank := if g.confirmed then (g.changes.map (·.2)).foldl applyBank d.bank else d.bank, staged := none }
    else d
  | none => d

/-- No image is written in BLANK and TEST (R505). -/
def imageless (s : State) : Bool := s.lcs = .blank || s.lcs = .test

/-- The persistent image holds the change as a pending one until it has taken effect (R299). -/
def Change.imaged : Change → Bool
  | .key .. => true
  | .authority .. => true
  | .retire .. => true
  | _ => false

/-- A command whose change is withdrawn completes with FAULT_RETRY: one whose change stands in the image only after a further image write,
which removes it there (R37, R299). -/
def retryFenced (inImage : Bool) (id : Nat) (s : State) : State :=
  if inImage && !imageless s && s.lining.lk.isSome then modJob id (fun x => { x with phase := .wait 25, waitT := s.time.now }) s
  else finishJob id stRetry 0 [] [] s

/-- Some pending change of the job stands in the image. -/
def pendsImaged (s : State) (id : Nat) : Bool := s.fence.any fun f => f.changes.any fun c => c.1 = id && c.2.imaged

/-- Jobs whose changes have just been withdrawn complete; `s0` is the state that still had the changes. -/
def retryAll (ids : List Nat) (s0 s : State) : State := ids.foldl (fun s j => retryFenced (pendsImaged s0 j) j s) s

/-- The bank swap of the package at boundary B: every live die swaps, package-wide changes take effect with the Crown's swap,
and commands whose change was never staged are withdrawn with FAULT_RETRY (R37). -/
def bankSwap (b : Nat) (s : State) : State :=
  let crown : List Change := match (getDie s 0).staged with
    | some g => if g.target = b ∧ g.confirmed then g.changes.map (·.2) else []
    | none => []
  let s1 := { s with dies := s.dies.map fun d => if d.live then { swapDie b d with epoch := b } else d }
  let lost := if crown = [] then (s1.fence.filter (·.target ≤ b)).flatMap (·.changes) else []
  let s2 := lost.foldl (fun s c => unapplied c s) (crown.foldl applyPkg s1)
  let s3 := retryAll (fenceWaiters s2 b) s s2
  { s3 with fence := s3.fence.filter (b < ·.target) }

/-- Removes the changes that meet a test from the schedule and from every die's STAGED; a target without changes is dropped. -/
def dropChanges (hit : FenceTarget → Nat × Change → Bool) (s : State) : State :=
  let s1 := s.fence.foldl (fun s f => (f.changes.filter (hit f)).foldl (fun s c => unapplied c s) s) s
  { s1 with
    fence := s1.fence.filterMap fun (f : FenceTarget) =>
      let keep := f.changes.filter fun c => !hit f c
      if keep = [] then none else some { f with changes := keep }
    dies := s1.dies.map fun (d : Die) => match d.staged, s1.fence.find? (fun f => d.staged.any (·.target = f.target)) with
      | some g, some f =>
        let keep := g.changes.filter fun c => !hit f c
        { d with staged := if keep = [] then none else some { g with changes := keep } }
      | _, _ => d }

/-- Withdraws every change of a target from every die; its commands complete with FAULT_RETRY (R37). -/
def withdrawTarget (tgt : Nat) (s : State) : State :=
  retryAll (fenceWaiters s tgt) s (dropChanges (fun f _ => f.target = tgt) s)

/-- Withdraws the changes of jobs, which complete with FAULT_RETRY. -/
def withdrawJobs (ids : List Nat) (s : State) : State :=
  retryAll ids s (dropChanges (fun _ c => ids.contains c.1) s)

/-- A restart of the Crown's key world withdraws the changes of every command that has not completed yet, unless they are confirmed; its
command completes with FAULT_RETRY (R37). -/
def withdrawUnstaged (s : State) : State :=
  withdrawJobs ((s.fence.filter fun f => !f.confirmed).flatMap fun f => fenceWaiters s f.target) s

/-- STAGING_ACK (R37). -/
def execStagingAck (t die target : Nat) (s : State) : Host.Outcome State Fault Refusal :=
  .next (stagingAck die target (tick t s))

/-- CONFIRM_FLIT (R37). -/
def execConfirmFlit (t die target : Nat) (s : State) : Host.Outcome State Fault Refusal :=
  .next (confirmFlit die target (tick t s))

end Sys2Proof.Machine
end

