-- ==== Sys2Proof/Machine/Time.lean ====
section
/-! DEFINITION. Time inputs and acquisition: the PPS edge, the TCLK and PLL events, the beacon's effect, and the timers of time (R54 to R74). -/

namespace Sys2Proof.Machine

/-- Changes the timescale. -/
def modTime (f : TimeState → TimeState) (s : State) : State := { s with time := f s.time }

/-- Rollover nearest to a reading: r is nearest in [r − 500 ms, r + 500 ms) (R60). -/
def nearestRoll (s : State) (t : Nat) : Nat := (t - s.time.base.getD 0 + 500000000) / 1000000000

/-- Phase error of an edge against the nearest predicted rollover (R56). -/
def phase (s : State) (t : Nat) : Int :=
  ((t - s.time.base.getD 0 : Nat) : Int) - (nearestRoll s t * 1000000000 : Nat)

/-- An edge falls within the acceptance window of ±2 µs (R54). -/
def inWindow (s : State) (t : Nat) : Bool := (phase s t).natAbs ≤ 2000

/-- An edge is accepted: φ is kept, and the device is LOCKED once the second is labelled (R54, R57). -/
def acceptEdge (t : Nat) (s : State) : State :=
  modTime (fun m => { m with
    phi2 := m.phi1, phi1 := phase s t, lastEdge := t, lastWindow := some (nearestRoll s t)
    st := if m.reasons.notAcquired then m.st else .locked
    slewing := false, residual := 0, cand := []
    contraLocked := m.contraLocked || m.reasons.ppsContradict }) s

/-- An edge out of its window is counted (R54). -/
def missEdge (t : Nat) (s : State) : State :=
  modTime (fun m => { m with outOfWindow := satAdd m.outOfWindow 1 0xFFFF, oowSecond := rollOf s t, oowCount := m.oowCount + 1 }) s

/-- An edge falls 1 s ± 2 µs after an earlier one; while slewing, the counter has moved by up to 100 µs in that second (R57; log entry 1). -/
def secondAfter (s : State) (a b : Nat) : Bool :=
  let slew : Int := if s.time.slewing then min s.time.residual 100000 else 0
  let want : Int := 1000000000 - (if 0 ≤ phase s b then slew else -slew)
  (((b - a : Nat) : Int) - want).natAbs ≤ 2000

/-- HOLDOVER: an edge outside the window feeds the candidate; the third forms it and slewing begins (R57). -/
def holdoverMiss (t : Nat) (s : State) : State :=
  let cand := match s.time.cand.getLast? with
    | some a => if secondAfter s a t then s.time.cand ++ [t] else if s.time.slewing then s.time.cand else [t]
    | none => [t]
  let s1 := modTime (fun m => { m with cand := cand }) (missEdge t s)
  if s.time.slewing then
    if cand.getLast? = some t then modTime (fun m => { m with residual := (phase s t).natAbs }) s1 else s1
  else if 3 ≤ cand.length then
    let d := (phase s t).natAbs
    let contra := decide (uncertainty s < d)
    modTime (fun m => { m with
      slewing := true, residual := d
      contraLocked := m.contraLocked && !contra
      reasons := { m.reasons with ppsContradict := m.reasons.ppsContradict || contra } }) s1
  else s1

/-- A filtered active edge once the PLL is locked: the first one within its window is accepted, in HOLDOVER and while slewing too; in
HOLDOVER one outside its window feeds the candidate (R54, R57, R73 steps 3 and 4). -/
def activeEdge (t : Nat) (s : State) : State :=
  match s.time.base with
  | none => modTime (fun m => { m with base := some t, lastEdge := t, lastWindow := some 0 }) s
  | some b =>
    if !s.time.edgePair then
      if (((t - b : Nat) : Int) - 1000000000).natAbs ≤ 2000 then acceptEdge t (modTime (fun m => { m with edgePair := true }) s)
      else modTime (fun m => { m with base := some t, lastEdge := t, lastWindow := some 0 }) s
    else
      let fresh := s.time.lastWindow != some (nearestRoll s t)
      if inWindow s t && fresh then acceptEdge t s
      else if s.time.st = .holdover && !inWindow s t then holdoverMiss t s
      else missEdge t s

/-- An edge of EPOCH_PPS, with the time its active level holds (R54). -/
def ppsEdge (width : Nat) (rising : Bool) (s : State) : State :=
  if rising = s.ecfg.falling then s
  else if width < 100 then modTime (fun m => { m with narrow := satAdd m.narrow 1 0xFFFF }) s
  else if s.time.st = .unset then s
  else activeEdge s.time.now s

/-- No edge accepted for 1.2 s: HOLDOVER (R54). -/
def ppsTimeout (s : State) : State :=
  if s.time.st = .locked ∧ s.time.lastEdge + 1200000000 ≤ s.time.now then modTime (fun m => { m with st := .holdover, cand := [] }) s else s

/-- A TCLK check fails (R55, R68). -/
def tclkFault (s : State) : State :=
  modTime (fun m => { m with pllLocked := false, reasons := { m.reasons with tclkFault := true } }) s

/-- The recovery of R55 completes. -/
def tclkRecover (s : State) : State :=
  modTime (fun m => { m with pllLocked := true, reasons := { m.reasons with tclkFault := false } }) s

/-- The PLL locks: acquisition step 2 (R73). -/
def pllLock (s : State) : State :=
  if s.startStep = 10 ∧ s.time.st = .unset then modTime (fun m => { m with st := .acquiring, pllLocked := true }) s
  else modTime (fun m => { m with pllLocked := true }) s

/-- No verified beacon for BEACON_GRACE seconds (R68). -/
def beaconGrace (s : State) : State :=
  if acquired s ∧ s.time.freshAt + s.epc.grace * 1000000000 ≤ s.time.now then
    modTime (fun m => { m with reasons := { m.reasons with beaconStale := true } }) s
  else s

/-- Acquisition is not complete 10 s after t0, and every 60 s from then on (R73). -/
def acqOverdue (s : State) : State :=
  if s.startStep = 10 ∧ !acquired s ∧ s.time.acqDue ≤ s.time.now then
    recEvent 0x0103 (leBytes 4 ((s.time.now - s.time.acqStart) / 1000000000) ++ zeros 4)
      (modTime (fun m => { m with acqDue := m.acqDue + 60000000000 }) s)
  else s

/-- A timing word reaches a live die: it counts the Crown's epoch (R39). -/
def timingWord (die epoch : Nat) (s : State) : State :=
  if (getDie s die).live ∧ epoch = s.time.epoch then modDie die (fun d => { d with epoch := epoch }) s else s

/-! ## The beacon (R58 to R62, R73 step 5, R74) -/

/-- LEAP, TAI_UTC and TAI_SEC of a beacon. -/
def beaconLeap (b : Bytes) : Nat := bits (field b 1 1) 0 2
/-- TAI_SEC of a beacon. -/
def beaconSec (b : Bytes) : Nat := field b 4 6

/-- Reserved beacon bits are not all 0 (R58). -/
def beaconReserved (b : Bytes) : Bool := field b 1 1 / 4 ≠ 0 || field b 10 2 ≠ 0 || field b 24 8 ≠ 0

/-- Check 9 of R61 fails: the second differs from the device's second at this rollover. -/
def beaconMismatch (s : State) (b : Bytes) (t : Nat) : Bool :=
  acquired s && beaconSec b + s.time.labelRoll != s.time.labelSec + nearestRoll s t

/-- A verified beacon admitted at reading t labels its rollover, refreshes freshness and carries LEAP; the first one completes
acquisition (R61, R62, R68, R73, R74). Freshness and BEACON_GRACE count from the admission, and AUTHORITY_ID is kept and shown nowhere: both
are the model's choices (DESIGN CHOICE, log entries 61 and 62). -/
def applyBeacon (b : Bytes) (t : Nat) (s : State) : State :=
  let leap := beaconLeap b
  let first := !acquired s
  let s1 := modTime (fun m => { m with
    labelled := true, labelRoll := nearestRoll s t, labelSec := beaconSec b, taiUtc := field b 2 2
    labels := insertNat m.labels (nearestRoll s t), authorityId := field b 20 4, freshAt := max m.freshAt t
    leapPending := if leap = 0 then false else if leap = 3 then m.leapPending else true
    leapNegative := if leap = 0 then false else m.leapNegative || decide (leap = 2)
    st := if first then .locked else m.st
    contraLocked := false
    reasons := { m.reasons with
      notAcquired := false, beaconStale := false
      ppsContradict := m.reasons.ppsContradict && !m.contraLocked
      authorityAlarm := decide (leap = 3) } }) s
  if first then
    let e := epochAt s1 (secOf s1 s1.time.now) (nsOf s1 s1.time.now)
    let regress := decide (e < s.time.signedTo ∨ beaconSec b < s.ecfg.origin)
    modTime (fun m => { m with epoch := e, reasons := { m.reasons with epochRegress := regress } }) s1
  else s1

/-! ## The commands -/

/-- PPS_EDGE (R54). -/
def execPpsEdge (t width : Nat) (rising : Bool) (s : State) : Host.Outcome State Fault Refusal :=
  .next (refreshTrust (ppsEdge width rising (tick t s)))

/-- PPS_TIMEOUT (R54). -/
def execPpsTimeout (t : Nat) (s : State) : Host.Outcome State Fault Refusal := .next (refreshTrust (ppsTimeout (tick t s)))

/-- TCLK_FAULT (R55). -/
def execTclkFault (t : Nat) (s : State) : Host.Outcome State Fault Refusal := .next (refreshTrust (tclkFault (tick t s)))

/-- TCLK_RECOVERY (R55). -/
def execTclkRecovery (t : Nat) (s : State) : Host.Outcome State Fault Refusal := .next (refreshTrust (tclkRecover (tick t s)))

/-- PLL_LOCK (R73). -/
def execPllLock (t : Nat) (s : State) : Host.Outcome State Fault Refusal := .next (pllLock (tick t s))

/-- BEACON_GRACE_EXPIRY (R68). -/
def execBeaconGraceExpiry (t : Nat) (s : State) : Host.Outcome State Fault Refusal := .next (refreshTrust (beaconGrace (tick t s)))

/-- UNC_LIMIT_REACHED (R68): the clock's advance itself brings UNC_LIMIT and TRUSTED up to date. -/
def execUncLimitReached (t : Nat) (s : State) : Host.Outcome State Fault Refusal := .next (refreshTrust (tick t s))

/-- ACQUISITION_OVERDUE (R73). -/
def execAcquisitionOverdue (t : Nat) (s : State) : Host.Outcome State Fault Refusal := .next (acqOverdue (tick t s))

/-- TIMING_WORD (R39). -/
def execTimingWord (t die epoch : Nat) (s : State) : Host.Outcome State Fault Refusal := .next (timingWord die epoch (tick t s))

end Sys2Proof.Machine
end

