-- ==== Sys2Proof/Machine/Functions.lean ====
section
/-! DEFINITION. Functions, instances and tenants: the pool, the admin commands of R102 and R145, instance reset and FLR,
interrupts and function power states, link errors (chapter 03; R145, R146). -/

namespace Sys2Proof.Machine

/-! ## The pool (R100) -/

/-- Grants of destroyed instances that a job dispatched under them still holds (R106). -/
def FnState.pastGrants (s : State) (f : FnState) : List (List Nat × Grants) := f.past.filter fun p => p.1.any fun j => (mget s.jobs j).isSome

/-- Instance grants taken from the pool: of every instance, and of destroyed ones until the last job dispatched under them has finished (R106). -/
def grantsTaken (s : State) : List Grants :=
  s.fns.flatMap fun f => (if f.2.present then [f.2.g] else []) ++ (f.2.pastGrants s).map (·.2)

/-- What the pool has left of an instance resource. -/
def poolLeft (s : State) (total : Nat) (g : Grants → Nat) : Nat := total - ((grantsTaken s).map g).sum

/-- What the pool has left of a tenant resource. -/
def tenantLeft (s : State) (total : Nat) (g : TenantGrants → Nat) : Nat := total - (s.tenants.map fun t => g t.2.g).sum

/-- OUTSTANDING left, increases reserved for staged changes counted (R109). -/
def outstandingLeft (s : State) : Nat := poolLeft s 131072 (·.outstanding) - (s.fns.map (·.2.reservedOut)).sum

/-- Draw DRBG instances left: 32 on each die in service (R100). -/
def drbgLeft (s : State) : Nat := tenantLeft s (32 * (liveDies s).length) (·.drbgs)

/-- Slots taken by creations that are not in force yet: pending at a target, or of a command that waits for its image write. -/
def slotsComing (s : State) : List (Nat × KeySlot) :=
  (s.fence.flatMap fun f => f.changes.filterMap fun c => match c.2 with
    | .key n k _ => if k.st = 2 ∧ ((mget (crownBank s).slots n).getD {}).st ≠ 2 then some (n, k) else none
    | _ => none)
    ++ (s.jobs.filterMap fun j => if j.2.phase = .wait 20 ∧ ((mget (crownBank s).slots ((j.2.slot.getD (0, {})).1)).getD {}).st ≠ 2 then j.2.slot else none)

/-- Slots in use or coming (R292). -/
def slotsHeld (s : State) : List (Nat × KeySlot) := (crownBank s).slots.filter (fun k => k.2.st = 2) ++ slotsComing s

/-- Narrow slots that a tenant's keys hold: one for every key (R292). -/
def narrowUsed (s : State) (t : Nat) : Nat := ((slotsHeld s).filter fun k => k.2.tenant = t).length

/-- Wide slots that a tenant's keys hold: SPAN for every wide key (R292). -/
def wideUsed (s : State) (t : Nat) : Nat := (((slotsHeld s).filter fun k => k.2.tenant = t ∧ k.2.wide).map fun k => k.2.span).sum

/-- Entries of a tenant's close table. -/
def closeUsed (s : State) (t : Nat) : Nat := ((mget (crownBank s).close t).getD []).length

/-- Draw DRBG instances of a tenant that execute a draw (R108). -/
def drbgBusy (s : State) (t : Nat) : Nat :=
  (s.dies.map fun d => (d.drawDrbgs.filter fun x => x.tenant = t ∧ x.busy.isSome).length).sum

/-- The live die with the fewest assigned draw instances, lowest index first (R239). -/
def fewestDrbg (s : State) : Option Nat :=
  (liveDies s).foldl (fun best d => match best with
    | none => some d
    | some b => if (getDie s d).drawDrbgs.length < (getDie s b).drawDrbgs.length then some d else some b) none

/-- Assigns n draw instances of a tenant, each instantiated with its tenant in the string as soon as its die has a seed for it (R231, R239). -/
def assignDrbgs (t : Nat) : Nat → State → State
  | 0, s => s
  | n + 1, s =>
    match fewestDrbg s with
    | none => s
    | some d =>
      match freePlace (getDie s d) with
      | some i => assignDrbgs t n (seedDraws 32 d (modDie d (fun x => { x with drawDrbgs := x.drawDrbgs ++ [{ tenant := t, index := i }] }) s))
      | none => s

/-- Removes the last idle instance of a tenant from a list. -/
def dropIdle (t : Nat) (l : List DrawDrbg) : List DrawDrbg :=
  let rec go : List DrawDrbg → List DrawDrbg
    | [] => []
    | x :: xs => if x.tenant = t ∧ x.busy = none then xs else x :: go xs
  (go l.reverse).reverse

/-- The die that holds the most instances of a tenant with an idle one, highest index among equals (R108). -/
def mostDrbg (s : State) (t : Nat) : Option Nat :=
  (liveDies s).foldl (fun best d =>
    let n := fun d => ((getDie s d).drawDrbgs.filter (·.tenant = t)).length
    if (getDie s d).drawDrbgs.any (fun x => x.tenant = t ∧ x.busy = none) then
      match best with
      | none => some d
      | some b => if n b ≤ n d then some d else some b
    else best) none

/-- Releases n idle draw instances of a tenant (R108). -/
def releaseDrbgs (t : Nat) : Nat → State → State
  | 0, s => s
  | n + 1, s =>
    match mostDrbg s t with
    | some d => releaseDrbgs t n (modDie d (fun x => { x with drawDrbgs := dropIdle t x.drawDrbgs }) s)
    | none => s

/-! ## INSTANCE_CREATE (R103 to R105) -/

/-- First failing grant field, by its offset in the grant block (R104 order 6). -/
def grantRange (s : State) (b : Bytes) : Option Nat :=
  let f := field b
  let bad (c : Bool) (o : Nat) : List Nat := if c then [] else [o]
  (bad (f 0 1 ≤ 16) 0 ++ bad (f 1 1 ≤ 32) 1 ++ bad (1 ≤ f 2 1 && f 2 1 ≤ 16) 2 ++ bad (1 ≤ f 3 1 && f 3 1 ≤ 64) 3
    ++ bad (64 ≤ f 4 2 && f 4 2 ≤ 32768) 4 ++ bad (1 ≤ f 6 2 && f 6 2 ≤ 4080) 6 ++ bad (f 10 2 ≤ 2048) 10
    ++ bad (f 12 2 ≤ 1024) 12 ++ bad (f 14 1 ≤ 32) 14 ++ bad (!(s.part = .xz98 && (f 15 1).testBit 0)) 15
    ++ bad (f 16 8 % 64 = 0) 16 ++ bad (f 24 8 % 64 = 0) 24 ++ bad (f 32 8 % 64 = 0) 32
    ++ bad (6 ≤ f 40 1 && f 40 1 ≤ 15) 40 ++ bad (6 ≤ f 41 1 && f 41 1 ≤ 15) 41 ++ bad (f 42 1 < f 3 1) 42).head?

/-- Grant field that the pool cannot meet (R104 order 8). -/
def grantPool (s : State) (b : Bytes) (new : Bool) : Option Nat :=
  let f := field b
  let bad (c : Bool) (o : Nat) : List Nat := if c then [] else [o]
  let close := if f 12 2 = 0 then 64 else f 12 2
  (bad (f 0 1 ≤ poolLeft s 8192 (·.workRings)) 0 ++ bad (f 1 1 ≤ poolLeft s 4096 (·.serviceQs)) 1
    ++ bad (f 2 1 ≤ poolLeft s 8192 (·.complRings)) 2 ++ bad (f 3 1 ≤ poolLeft s 65536 (·.vectors)) 3
    ++ bad (f 4 2 ≤ outstandingLeft s) 4
    ++ (if new then bad (f 8 2 ≤ tenantLeft s 65536 (·.narrow)) 8 ++ bad (f 10 2 ≤ tenantLeft s 2048 (·.wide)) 10
        ++ bad (close ≤ tenantLeft s 65536 (·.close)) 12 ++ bad (f 14 1 ≤ drbgLeft s) 14 else [])).head?

/-- FUNCTION is not a VF in being (R104 order 3). -/
def badVf (s : State) (fn : Nat) : Bool := !(1 ≤ fn && fn ≤ s.numVfs && s.vfEnable)

/-- The checks of INSTANCE_CREATE before its grant block is read (R104 orders 3 to 5). -/
def createOwn (s : State) (x : Job) : List Fail :=
  failIf (badVf s (x.d.f 32 2)) stInput 0x20 ++ failIf (getFn s (x.d.f 32 2)).present stInput 0x21
    ++ failIf (1023 < x.d.f 34 2) stInput 0x22

/-- Offset of a tenant grant field that is not 0 (R104 order 7). -/
def tenantFieldSet (b : Bytes) : Option Nat := [8, 10, 12, 14].find? fun o => field b o (if o = 14 then 1 else 2) ≠ 0

/-- Offset of a reserved grant-block byte that is not 0 (R104 order 2). -/
def grantReserved (b : Bytes) : Option Nat :=
  if field b 15 1 / 2 ≠ 0 then some 15 else firstNonzero b (span 43 63)

/-- The checks on the grant block, reserved bytes first (R104 orders 2 to 8). -/
def createFails (s : State) (x : Job) : List Fail :=
  let granted := (getTenant s (x.d.f 34 2)).granted
  (failAt ((grantReserved x.src).map (0x40 + ·))) ++ createOwn s x
    ++ failAt ((grantRange s x.src).map (0x40 + ·))
    ++ (if granted then failAt ((tenantFieldSet x.src).map (0x40 + ·)) else [])
    ++ (match grantPool s x.src (!granted) with
        | some o => [⟨stQuota, o⟩]
        | none => [])

/-- Grants of an instance as the grant block gives them. -/
def grantsOf (b : Bytes) : Grants :=
  let f := field b
  { workRings := f 0 1, serviceQs := f 1 1, complRings := f 2 1, vectors := f 3 1, outstanding := f 4 2, weightBudget := f 6 2
    options := f 15 1, adminBase := f 16 8, adminCqBase := f 24 8, adminIndex := f 32 8
    adminLog2 := f 40 1, adminCqLog2 := f 41 1, adminVector := f 42 1 }

/-- The admin ring and completion ring of an instance, RUNNING and empty (R105, R147). -/
def adminRings (g : Grants) (f : FnState) : FnState :=
  { f with
    queues := [(0x40, { st := .running, log2 := g.adminLog2, base := g.adminBase, cq := 16 })]
    cqs := [(16, { log2 := g.adminCqLog2, base := g.adminCqBase, indexBase := g.adminIndex, vector := g.adminVector })] }

/-- Writes the index block of an admin completion ring, or holds it while the function makes no memory request. -/
def freshIndex (fn : Nat) (s : State) : State := indexOut fn 16 s

/-- The tenant has no salt yet and KEYGEN of the Crown exists: its salt is drawn with its grants (R288). -/
def lacksSalt (s : State) (tenant : Nat) : Bool := (getTenant s tenant).salt.isNone && (getDie s 0).rngReady

/-- The new instance: tenant grants for a new tenant, admin ring RUNNING, GENERATION + 1, READY (R104, R105). -/
def createInstance (fn tenant : Nat) (b : Bytes) (s : State) : State :=
  let f := field b
  let tg : TenantGrants := { narrow := f 8 2, wide := f 10 2, close := if f 12 2 = 0 then 64 else f 12 2, drbgs := f 14 1 }
  let s0 := if lacksSalt s tenant then
      let n := internalGen 0 0 16 [] s
      modTenant tenant (fun t => { t with salt := some n.1 }) n.2
    else s
  let s1 := if (getTenant s tenant).granted then s0 else
    assignDrbgs tenant (f 14 1) (modTenant tenant (fun t => { t with granted := true, g := tg, retiring := none }) s0)
  let s2 := modFn fn (fun old => adminRings (grantsOf b)
    { present := true, tenant := tenant, gen := (old.gen + 1) % 4294967296, ready := true, g := grantsOf b, bme := old.bme, mse := old.mse, d3hot := old.d3hot
      past := old.pastGrants s1, reservedOut := old.reservedOut, aerFirst := old.aerFirst
      msix := { enable := old.msix.enable, fnMask := old.msix.fnMask } }) s1
  let s3 := { s2 with dies := s2.dies.map fun d => { d with bank := { d.bank with split := mdel d.bank.split fn } } }
  freshIndex fn (signal fn 0 s3)

/-- INSTANCE_CREATE once its grant block is held. -/
def createGo (id : Nat) (s : State) : State :=
  let x := getJob s id
  match firstFail (createFails s x) with
  | some e => failJob id e s
  | none =>
    let fn := x.d.f 32 2
    withRng (if lacksSalt s (x.d.f 34 2) then some 0 else none) id (fun s =>
      let s1 := createInstance fn (x.d.f 34 2) x.src s
      okJob id (leBytes 2 fn ++ zeros 2 ++ leBytes 4 (getFn s1 fn).gen) [] s1) s

/-- Accepted on the PF only. -/
def pfOnly : Desc → Bool := fun _ => true
/-- Accepted on every function. -/
def anyFn : Desc → Bool := fun _ => false

/-- INSTANCE_CREATE (R103). -/
def createSem : OpSem where
  pfOnly := pfOnly
  resv d := reservedBad d (offHandle ++ offAux ++ offDst ++ span 36 63)
  fenced := anyFn
  keyed := anyFn
  src := true
  len _ n := failIf (n ≠ 64) stLength 0
  own _ _ := []
  go := createGo
  fin _ s := s

/-! ## Instance reset (R112 to R115) -/

/-- The fenced commands of a function that are not yet staged. -/
def unstagedOf (fn : Nat) (s : State) : List Nat :=
  ((s.fence.filter fun f => !f.staged).flatMap fun f => fenceWaiters s f.target).filter fun j => (getJob s j).fn = fn

/-- A fenced command of the function that is not yet staged is withdrawn from every die and is never applied; its completion is discarded (R113). -/
def withdrawFn (fn : Nat) (s : State) : State :=
  let ids := unstagedOf fn s
  ids.foldl (fun s j => dropJob j s) (dropChanges (fun _ c => ids.contains c.1) s)

/-- A reset of the function discards the job: it is not yet admitted, finished with its completion not written, or a DRAW_QUERY that waits for
its draw (R112, R252); a job of the device itself is none. -/
def resetDrops (fn : Nat) (x : Job) : Bool :=
  x.fn = fn && x.ring != ownRing && (x.unhanded || x.phase = .done || x.phase = .wait 15)

/-- Steps 1 and 2 of R112: RESETTING, READY 0, GENERATION + 1; every job not yet admitted is squashed without a completion; finished jobs
whose completion is not written, and a DRAW_QUERY that waits for its draw (R252), are discarded. -/
def startReset (fn : Nat) (s : State) : State :=
  let s1 := withdrawFn fn s
  let gone := (s1.jobs.map (·.1)).filter fun j => resetDrops fn (getJob s1 j)
  let s2 := gone.foldl (fun s j => dropJob j (freeInst j s)) s1
  modFn fn (fun f => { f with
    resetting := true, ready := false, gen := (f.gen + 1) % 4294967296
    queues := mmap (fun _ q => { q with copies := [], failAt := none, takes := [], owed := none }) f.queues
    cqs := mmap (fun _ c => { c with ready := [], reserved := 0 }) f.cqs }) s2

/-- The queues and completion rings of a function after a reset: only the admin pair is left, empty (R112 step 3). The PF's admin ring keeps
the rest of its state (R147). That TIMER_US and COUNT of a VF's admin completion ring keep their last written values is the model's choice:
R147 says only what every such ring starts with (DESIGN CHOICE, log entry 70). -/
def resetRings (pf : Bool) (f : FnState) : FnState :=
  let q := f.queue 0x40
  let c := f.cq 16
  { f with
    queues := [(0x40, if pf then { q with head := 0, tail := 0, copies := [], failAt := none, takes := [], owed := none }
                      else { st := q.st, log2 := q.log2, base := q.base, cq := 16 })]
    cqs := [(16, if pf then { c with producer := 0, head := 0, posted := 0, reserved := 0, ready := [], idxDue := none }
                 else { log2 := c.log2, base := c.base, indexBase := c.indexBase, vector := c.vector, timerUs := c.timerUs, count := c.count })]
    msix := { enable := f.msix.enable, fnMask := f.msix.fnMask } }

/-- Steps 3 and 4 of R112. -/
def finishReset (fn : Nat) (s : State) : State :=
  let f := getFn s fn
  if !f.resetting then s else
  let ws := f.waiters
  let s1 := modFn fn (fun f => { resetRings (decide (fn = 0)) f with
    resetting := false, waiters := [], destroying := false, present := f.present && !f.destroying
    ready := !f.destroying && (fn ≠ 0 || decide (8 < s.startStep)) }) { s with lrings := s.lrings.filter (·.owner ≠ fn) }
  let ids := (s1.jobs.filter fun j => j.2.fn = fn && j.2.ring != ownRing).map (·.1)
  let s2 := if f.destroying then modFn fn (fun f => { f with queues := [], cqs := [], past := f.pastGrants s1 ++ [(ids, f.g)], g := {} }) s1
            else modQ ⟨fn, 0x40⟩ (fun q => if fn = 0 then q else { q with st := .running }) s1
  let s3 := if f.destroying then s2 else freshIndex fn s2
  let s4 := raiseFnEvent 2 (if f.destroying then s3 else if fn = 0 then s3 else signal fn 0 s3)
  ws.foldl (fun s j => okJob j [] [] s) s4

/-- INSTANCE_RESET or INSTANCE_DESTROY begins the reset of its function and waits for it. -/
def resetGo (destroy : Bool) (id : Nat) (s : State) : State :=
  let fn := (getJob s id).d.f 32 2
  modFn fn (fun f => { f with waiters := f.waiters ++ [id], destroying := f.destroying || destroy })
    (modJob id (fun x => { x with phase := .wait 1 }) (startReset fn s))

/-- The checks of R106 and R112. R112 names only orders 2 and 3 of R104; that INSTANCE_RESET of a function without an instance answers as
INSTANCE_DESTROY does under R106 is the model's choice (DESIGN CHOICE, log entry 71). -/
def resetOwn (s : State) (x : Job) : List Fail :=
  failIf (badVf s (x.d.f 32 2)) stInput 0x20 ++ failIf (!(getFn s (x.d.f 32 2)).present) stInput 0x23

/-- INSTANCE_DESTROY (R106). -/
def destroySem : OpSem where
  pfOnly := pfOnly
  resv d := reservedBad d (offHandle ++ offAux ++ offDst ++ span 34 63)
  fenced := anyFn
  keyed := anyFn
  src := false
  len _ _ := []
  own := resetOwn
  go := resetGo true
  fin _ s := s

/-- INSTANCE_RESET (R112). -/
def resetSem : OpSem where
  pfOnly := pfOnly
  resv d := reservedBad d (offHandle ++ offAux ++ offDst ++ span 34 63)
  fenced := anyFn
  keyed := anyFn
  src := false
  len _ _ := []
  own := resetOwn
  go := resetGo false
  fin _ s := s

/-! ## INSTANCE_SHARE and SPLIT_SET (R109, R111) -/

/-- Sum of the weights of a function's work rings. -/
def weightSum (f : FnState) : Nat := (f.queues.map fun q => if q.2.st = .absent then 0 else q.2.weight).sum

/-- The checks of R109, on the instance as it will stand at T. -/
def shareOwn (s : State) (x : Job) : List Fail :=
  let fn := x.d.f 32 2
  let ring := x.d.f 34 1
  let burst := x.d.f 35 1
  let weight := x.d.f 36 1
  let out := x.d.f 38 2
  let budget := x.d.f 40 2
  let f := fnAt s (targetOf x.d.targetField x.epoch) fn
  let cur := (f.queue ring).weight
  let wrong := if ring = 0xFF then burst ≠ 0 || weight ≠ 0
    else 15 < ring || (f.queue ring).st = .absent || out ≠ 0 || budget ≠ 0
  if !(getFn s fn).present then [⟨stInput, 0x23⟩]
  else if wrong then [⟨stInput, 0x24⟩]
  else failIf (64 < burst) stInput (0x40 + 35)
    ++ failIf (out ≠ 0 && !(64 ≤ out && out ≤ 32768)) stInput (0x40 + 38)
    ++ failIf (4080 < budget) stInput (0x40 + 40)
    ++ failIf (budget ≠ 0 && budget < weightSum f) stInput 0x28
    ++ failIf (weight ≠ 0 && f.g.weightBudget < weightSum f - cur + weight) stQuota 0x24
    ++ failIf (outstandingLeft s < out - f.g.outstanding) stQuota 0x26

/-- INSTANCE_SHARE accepted, with the increase of OUTSTANDING that its completion reserves from the pool (R109). -/
def shareGo (id : Nat) (s : State) : State :=
  let x := getJob s id
  let fn := x.d.f 32 2
  let tgt := targetOf x.d.targetField x.epoch
  if x.d.f 34 1 = 0xFF then
    acceptFenced id tgt [.shareInst fn (x.d.f 38 2) (x.d.f 40 2) (x.d.f 38 2 - (fnAt s tgt fn).g.outstanding)] s
  else
    acceptFenced id tgt [.shareRing fn (x.d.f 34 1) (x.d.f 35 1) (x.d.f 36 1) ((getFn s fn).queue (x.d.f 34 1)).creation] s

/-- INSTANCE_SHARE (R109). -/
def shareSem : OpSem where
  pfOnly := pfOnly
  resv d := reservedBad d (offHandle ++ offAux ++ offDst ++ [37] ++ span 42 55)
  fenced := pfOnly
  keyed := anyFn
  src := false
  len _ _ := []
  own := shareOwn
  go := shareGo
  fin _ s := s

/-- The checks of R111. -/
def splitOwn (s : State) (x : Job) : List Fail :=
  let fn := x.d.f 32 2
  let p := x.d.f 36 2
  let m := x.d.f 38 1
  let bad (i : Nat) : Bool := m.testBit i && (bits p (2 * i) 2 = 1 || bits p (2 * i) 2 = 2)
  failIf (s.numVfs < fn) stInput 0x20 ++ failIf (!(getFn s fn).present) stInput 0x23 ++ failIf (bad 1 || bad 4) stInput 0x24

/-- SPLIT_SET accepted: the function's own fields, and LEDGER as a tenant policy (R111). -/
def splitGo (id : Nat) (s : State) : State :=
  let x := getJob s id
  let fn := x.d.f 32 2
  let p := x.d.f 36 2
  let m := x.d.f 38 1
  acceptFenced id (targetOf x.d.targetField x.epoch)
    (.splitSet fn p m :: (if m.testBit 1 then [.ledgerPol (tenantOf s fn) (bits p 2 2)] else [])) s

/-- SPLIT_SET (R111). -/
def splitSem : OpSem where
  pfOnly := pfOnly
  resv d := match firstNonzero d.bytes (offHandle ++ offAux ++ offDst ++ span 34 35) with
    | some i => some i
    | none => if d.f 37 1 / 4 ≠ 0 then some 37 else if d.f 38 1 / 32 ≠ 0 then some 38 else firstNonzero d.bytes (span 39 55)
  fenced := pfOnly
  keyed := anyFn
  src := false
  len _ _ := []
  own := splitOwn
  go := splitGo
  fin _ s := s

/-! ## INSTANCE_QUERY (R107) -/

/-- A change names a function, or its tenant's LEDGER policy. -/
def changeNames (fn tenant : Nat) : Change → Bool
  | .splitSet f _ _ => f = fn
  | .ledgerPol t _ => t = tenant
  | .shareRing f _ _ _ _ => f = fn
  | .shareInst f _ _ _ => f = fn
  | _ => false

/-- Earliest pending target for an instance, or 0. -/
def earliestTarget (s : State) (fn : Nat) : Nat :=
  ((s.fence.find? fun f => f.changes.any fun c => changeNames fn (tenantOf s fn) c.2).map (·.target)).getD 0

/-- The grant block in force, admin fields as configured (R107). -/
def grantBlock (g : Grants) (t : TenantGrants) : Bytes :=
  leBytes 1 g.workRings ++ leBytes 1 g.serviceQs ++ leBytes 1 g.complRings ++ leBytes 1 g.vectors ++ leBytes 2 g.outstanding
    ++ leBytes 2 g.weightBudget ++ leBytes 2 t.narrow ++ leBytes 2 t.wide ++ leBytes 2 t.close ++ leBytes 1 t.drbgs ++ leBytes 1 g.options
    ++ leBytes 8 g.adminBase ++ leBytes 8 g.adminCqBase ++ leBytes 8 g.adminIndex ++ leBytes 1 g.adminLog2 ++ leBytes 1 g.adminCqLog2
    ++ leBytes 1 g.adminVector ++ zeros 21

/-- The admin fields in force: the PF's are its set-up registers (R147). -/
def grantsNow (f : FnState) : Grants :=
  let q := f.queue 0x40
  let c := f.cq 16
  { f.g with adminBase := q.base, adminCqBase := c.base, adminIndex := c.indexBase, adminLog2 := q.log2, adminCqLog2 := c.log2, adminVector := c.vector }

/-- Queues of a kind that exist. -/
def countQueues (f : FnState) (kind : Nat) : Nat := (f.queues.filter fun q => q.2.st ≠ .absent ∧ queueKind q.1 = kind).length

/-- The 128 bytes of INSTANCE_QUERY (R107). -/
def queryBlock (s : State) (fn : Nat) : Bytes :=
  let f := getFn s fn
  let t := f.tenant
  grantBlock (grantsNow f) (getTenant s t).g ++ leBytes 2 t ++ leBytes 1 (countQueues f 0) ++ leBytes 1 (countQueues f 1)
    ++ leBytes 1 ((f.cqs.filter (·.1 < 16)).length) ++ zeros 1 ++ leBytes 2 (outstanding s fn) ++ leBytes 2 (weightSum f)
    ++ leBytes 2 (narrowUsed s t) ++ leBytes 2 (wideUsed s t) ++ leBytes 2 (closeUsed s t) ++ leBytes 1 (drbgBusy s t) ++ zeros 7
    ++ leBytes 6 (earliestTarget s fn) ++ zeros 34

/-- The checks of R107. -/
def queryOwn (s : State) (x : Job) : List Fail :=
  let fn := x.d.f 32 2
  failIf (if x.fn = 0 then s.numVfs < fn else fn ≠ x.fn) stInput 0x20 ++ failIf (!(getFn s fn).present) stInput 0x23

/-- INSTANCE_QUERY (R107). -/
def querySem : OpSem where
  pfOnly := anyFn
  resv d := reservedBad d (offHandle ++ span 34 63)
  fenced := anyFn
  keyed := anyFn
  src := false
  len x _ := failIf (x.d.aux < 128) stLength 0
  own := queryOwn
  go id s := okJob id [] (queryBlock s ((getJob s id).d.f 32 2)) s
  fin _ s := s

/-! ## TENANT_GRANT (R108) -/

/-- A requested tenant grant: 0 leaves the grant as it is. -/
def orOld (new old : Nat) : Nat := if new = 0 then old else new

/-- The checks of R108, in its order. -/
def tenantOwn (s : State) (x : Job) : List Fail :=
  let t := x.d.f 32 2
  let g := (getTenant s t).g
  let n := x.d.f 40 2
  let w := x.d.f 42 2
  let c := x.d.f 44 2
  let r := x.d.f 46 1
  failIf (1023 < t || !(getTenant s t).granted) stInput 0x22
    ++ failIf (2048 < w) stInput (0x40 + 10) ++ failIf (1024 < c) stInput (0x40 + 12) ++ failIf (32 < r) stInput (0x40 + 14)
    ++ failIf (n ≠ 0 && n < narrowUsed s t) stInput (0x40 + 8) ++ failIf (w ≠ 0 && w < wideUsed s t) stInput (0x40 + 10)
    ++ failIf (c ≠ 0 && c < closeUsed s t) stInput (0x40 + 12) ++ failIf (r ≠ 0 && r < drbgBusy s t) stInput (0x40 + 14)
    ++ failIf (tenantLeft s 65536 (·.narrow) < n - g.narrow) stQuota 8 ++ failIf (tenantLeft s 2048 (·.wide) < w - g.wide) stQuota 10
    ++ failIf (tenantLeft s 65536 (·.close) < c - g.close) stQuota 12 ++ failIf (drbgLeft s < r - g.drbgs) stQuota 14

/-- TENANT_GRANT takes effect at once (R108). -/
def tenantGo (id : Nat) (s : State) : State :=
  let x := getJob s id
  let t := x.d.f 32 2
  let g := (getTenant s t).g
  let r := orOld (x.d.f 46 1) g.drbgs
  let s1 := modTenant t (fun y => { y with g := { narrow := orOld (x.d.f 40 2) g.narrow, wide := orOld (x.d.f 42 2) g.wide
                                                  close := orOld (x.d.f 44 2) g.close, drbgs := r } }) s
  okJob id [] [] (releaseDrbgs t (g.drbgs - r) (assignDrbgs t (r - g.drbgs) s1))

/-- TENANT_GRANT (R108). -/
def tenantSem : OpSem where
  pfOnly := pfOnly
  resv d := reservedBad d (offHandle ++ offAux ++ offDst ++ span 34 39 ++ span 47 63)
  fenced := anyFn
  keyed := anyFn
  src := false
  len _ _ := []
  own := tenantOwn
  go := tenantGo
  fin _ s := s

/-! ## Queue commands (R145, R146) -/

/-- Ring number of the object of a queue command. -/
def objRing (d : Desc) : Nat := if d.op = 0xCC || d.op = 0xCD then 0x20 + d.f 32 1 else d.f 32 1

/-- The grant that bounds the index of a queue command. -/
def objGrant (g : Grants) (d : Desc) : Nat :=
  if d.op = 0xC8 || d.op = 0xC9 then g.workRings else if d.op = 0xCA || d.op = 0xCB then g.complRings else g.serviceQs

/-- The object of a queue command exists. -/
def objExists (f : FnState) (d : Desc) : Bool :=
  if d.op = 0xCA || d.op = 0xCB then (mget f.cqs (d.f 32 1)).isSome else (f.queue (objRing d)).st ≠ .absent

/-- Room in the weight budget, now and at every pending target (R146 order 9). -/
def weightFits (s : State) (fn w : Nat) : Bool :=
  (0 :: pendingTargets s).all fun t => let f := fnAt s t fn; weightSum f + w ≤ f.g.weightBudget

/-- The checks of R146, in its order. -/
def queueOwn (s : State) (x : Job) : List Fail :=
  let d := x.d
  let f := getFn s x.fn
  let i := d.f 32 1
  let create := d.op = 0xC8 || d.op = 0xCA || d.op = 0xCC
  let log2 := d.f 33 1
  let timer := d.f 36 1 + 256 * d.f 37 1
  failIf (objGrant f.g d ≤ i) stInput 0x60
    ++ (if create then failIf (objExists f d) stInput 0x61 else failIf (!objExists f d) stInput 0x62)
    ++ (if create then
          failIf (log2 < 6 || 15 < log2) stInput 0x63
            ++ failIf (d.f 40 8 % 64 ≠ 0 || (d.op = 0xCA && d.f 48 8 % 64 ≠ 0)) stInput 0x64
            ++ (if d.op = 0xCA then failIf (d.f 34 1 ≠ 0xFF && f.g.vectors ≤ d.f 34 1) stInput 0x66
                else failIf (!(d.f 34 1 < 16 && (mget f.cqs (d.f 34 1)).isSome)) stInput 0x65)
            ++ failIf (if d.op = 0xC8 then !(1 ≤ d.f 35 1 && d.f 35 1 ≤ 64 && 1 ≤ d.f 36 1)
                       else if d.op = 0xCA then !(1 ≤ d.f 35 1 && timer < 1024) else false) stInput 0x67
            ++ failIf (d.op = 0xC8 && !weightFits s x.fn (d.f 36 1)) stQuota 0x02
        else if d.op = 0xCB then failIf (attached s x.fn i ≠ []) stInput 0x69
        else failIf (!idle s ⟨x.fn, objRing d⟩) stInput 0x68)

/-- Reserved bytes of a queue command (R145). -/
def queueResv (d : Desc) : Option Nat :=
  let own := if d.op = 0xC8 then span 37 39 ++ span 48 63 else if d.op = 0xCC then span 35 39 ++ span 48 63
    else if d.op = 0xCA then span 38 39 ++ span 56 63 else span 33 63
  match reservedBad d (offHandle ++ offSrc ++ offAux ++ offDst) with
  | some i => some i
  | none => if d.op = 0xCA ∧ d.f 37 1 / 4 ≠ 0 then some 37 else firstNonzero d.bytes own

/-- Shape of the six queue commands. -/
def queueSem (go : Nat → State → State) : OpSem where
  pfOnly := anyFn
  resv := queueResv
  fenced := anyFn
  keyed := anyFn
  src := false
  len _ _ := []
  own := queueOwn
  go := go
  fin _ s := s

/-- OK with the index of the queue in Result bytes 24–25 (R145). -/
def queueOk (id : Nat) (s : State) : State := okJob id (leBytes 2 ((getJob s id).d.f 32 1)) [] s

/-- RING_CREATE and SQ_CREATE: the queue starts DISABLED with HEAD = TAIL = 0 (R146). -/
def ringCreateGo (id : Nat) (s : State) : State :=
  let x := getJob s id
  let d := x.d
  let work := d.op = 0xC8
  queueOk id (modQ ⟨x.fn, objRing d⟩ (fun _ =>
    { st := .disabled, log2 := d.f 33 1, base := d.f 40 8, cq := d.f 34 1, creation := s.nextCreation
      burst := if work then d.f 35 1 else 0, weight := if work then d.f 36 1 else 0 }) { s with nextCreation := s.nextCreation + 1 })

/-- RING_DESTROY and SQ_DESTROY (R146). -/
def ringDestroyGo (id : Nat) (s : State) : State :=
  let x := getJob s id
  queueOk id (modFn x.fn (fun f => { f with queues := mdel f.queues (objRing x.d) }) s)

/-- CQ_CREATE: the index block is written once with PRODUCER = 0 (R146). -/
def cqCreateGo (id : Nat) (s : State) : State :=
  let x := getJob s id
  let d := x.d
  let i := d.f 32 1
  let s1 := modCq x.fn i (fun _ => { log2 := d.f 33 1, vector := d.f 34 1, base := d.f 40 8, indexBase := d.f 48 8
                                     count := d.f 35 1, timerUs := d.f 36 1 + 256 * d.f 37 1 }) s
  queueOk id (indexOut x.fn i s1)

/-- CQ_DESTROY (R146). -/
def cqDestroyGo (id : Nat) (s : State) : State :=
  let x := getJob s id
  queueOk id (modFn x.fn (fun f => { f with cqs := mdel f.cqs (x.d.f 32 1) }) s)

/-- RING_CREATE (R145). -/
def ringCreateSem : OpSem := queueSem ringCreateGo
/-- RING_DESTROY (R145). -/
def ringDestroySem : OpSem := queueSem ringDestroyGo
/-- CQ_CREATE (R145). -/
def cqCreateSem : OpSem := queueSem cqCreateGo
/-- CQ_DESTROY (R145). -/
def cqDestroySem : OpSem := queueSem cqDestroyGo
/-- SQ_CREATE (R145). -/
def sqCreateSem : OpSem := queueSem ringCreateGo
/-- SQ_DESTROY (R145). -/
def sqDestroySem : OpSem := queueSem ringDestroyGo

end Sys2Proof.Machine
end

