-- ==== Sys2Proof/Machine/Link.lean ====
section
/-! DEFINITION. Events of the host link: FLR, VF Enable, Bus Master Enable, power states, MSI-X unmasking, link errors and training
(R93, R112 to R119). -/

namespace Sys2Proof.Machine

/-- A function returns to D0, and its held messages are discarded (R112, R115). -/
def toD0 (fn : Nat) (s : State) : State := modFn fn (fun n => { n with d3hot := false, msix := { n.msix with held := [] } }) s

/-- Marks every VF instance for destruction and starts its reset (R106, R114). -/
def destroyVfs (s : State) : State :=
  { (s.fns.foldl (fun s f => if f.1 ≠ 0 ∧ f.2.present then
      modFn f.1 (fun n => { n with destroying := true }) (startReset f.1 s) else s) s) with vfEnable := false }

/-- FLR: of a VF, its instance reset; of the PF, the reset of every function, VF Enable cleared and every VF instance destroyed
(R112, R114, R115). The function returns to D0, whether or not it has an instance. A PF FLR after the link has trained again ends the fatal
state of R119. -/
def flr (fn : Nat) (s : State) : State :=
  if !fnExists s fn then s
  else if !(getFn s fn).present then toD0 fn s
  else if fn = 0 then
    let s1 := destroyVfs (toD0 0 (startReset 0 s))
    { s1.fns.foldl (fun s f => if f.1 = 0 then s else toD0 f.1 s) s1 with linkFatal := s1.linkFatal && s1.linkWidth = 0 }
  else toD0 fn (startReset fn s)

/-- VF Enable is set with NumVFs, at a System Page Size of 4 or 64 KiB; neither changes while VF Enable is 1 (R94, R114). -/
def vfEnableSet (n : Nat) (page64 : Bool) (s : State) : State :=
  if s.vfEnable then s else { s with vfEnable := true, numVfs := min n 1023, page64 := page64 }

/-- Sends the held messages of a function in vector order; a vector masked meanwhile sets its pending bit (R117). -/
def sendHeld (fn : Nat) (s : State) : State :=
  let f := getFn s fn
  if f.d3hot || busOff s fn then s else
  f.msix.held.foldl (fun s v => signal fn v s) (modFn fn (fun n => { n with msix := { n.msix with held := [] } }) s)

/-- Bus Master Enable and Memory Space Enable take the values of a Command register write; with Bus Master Enable set, the staged results are
written in their order, then held messages are sent (R118; log entries 9 and 10). -/
def busMaster (fn : Nat) (on mem : Bool) (s : State) : State :=
  let s1 := modFn fn (fun n => { n with bme := on, mse := mem }) s
  if on then sendHeld fn (postFn fn s1) else s1

/-- Entry into D3hot (R117). -/
def d3Entry (fn : Nat) (s : State) : State := modFn fn (fun n => { n with d3hot := true }) s

/-- Return to D0: held messages are sent (R117). -/
def d0Return (fn : Nat) (s : State) : State := sendHeld fn (modFn fn (fun n => { n with d3hot := false }) s)

/-- Sends the pending messages of vectors that are not masked (R116). -/
def sendPending (fn : Nat) (s : State) : State :=
  let f := getFn s fn
  if !f.msix.enable then s else
  let go := f.msix.pending.filter fun v => !maskedVec f v
  go.foldl (fun s v => signal fn v s)
    (modFn fn (fun n => { n with msix := { n.msix with pending := n.msix.pending.filter fun v => maskedVec f v } }) s)

/-- The MSI-X state of a function after MSIX_UNMASK: a vector below 64 clears its mask bit; 64 sets MSI-X Enable with Function Mask 0, 65 with
Function Mask 1, and any other number clears MSI-X Enable (log entry 10). -/
def Msix.unmask (m : Msix) (v : Nat) : Msix :=
  if v < 64 then { m with table := mset m.table v { ((mget m.table v).getD {}) with masked := false } }
  else if v = 64 then { m with enable := true, fnMask := false }
  else if v = 65 then { m with enable := true, fnMask := true }
  else { m with enable := false }

/-- MSIX_UNMASK: pending messages that it frees are sent (R116). -/
def unmask (fn v : Nat) (s : State) : State := sendPending fn (modFn fn (fun n => { n with msix := n.msix.unmask v }) s)

/-- A fatal link error (R119). -/
def linkFatalErr (addr : Nat) (s : State) : State := aerError 0 2 addr { s with linkFatal := true, linkWidth := 0 }

/-- The link trains; below x16 at 32 GT/s one event is recorded (R93). -/
def linkTrain (w sp : Nat) (s : State) : State :=
  let s1 := { s with linkWidth := w, linkSpeed := sp }
  if w < 16 ∨ sp < 32 then recEvent 0x0203 ([byte w, byte sp] ++ zeros 6) s1 else s1

/-- VF_ENABLE_CLEAR (R114). -/
def execVfEnableClear (t : Nat) (s : State) : Host.Outcome State Fault Refusal := .next (destroyVfs (tick t s))

/-- VF_ENABLE_SET (R114). -/
def execVfEnableSet (t : Nat) (x : SriovSetup) (s : State) : Host.Outcome State Fault Refusal :=
  .next (vfEnableSet x.numVfs x.page64 (tick t s))

/-- INSTANCE_RESET_DONE (R112). -/
def execInstanceResetDone (t fn : Nat) (s : State) : Host.Outcome State Fault Refusal := .next (finishReset fn (tick t s))

/-- D3HOT_ENTRY (R117). -/
def execD3hotEntry (t fn : Nat) (s : State) : Host.Outcome State Fault Refusal := .next (d3Entry fn (tick t s))

/-- D0_RETURN (R117). -/
def execD0Return (t fn : Nat) (s : State) : Host.Outcome State Fault Refusal := .next (d0Return fn (tick t s))

/-- MSIX_UNMASK (R116). -/
def execMsixUnmask (t fn vector : Nat) (s : State) : Host.Outcome State Fault Refusal := .next (unmask fn vector (tick t s))

/-- LINK_FATAL_ERROR (R119). -/
def execLinkFatalError (t addr : Nat) (s : State) : Host.Outcome State Fault Refusal := .next (linkFatalErr addr (tick t s))

/-- POISONED_BAR_WRITE (R119): the write is discarded. -/
def execPoisonedBarWrite (t fn off : Nat) (s : State) : Host.Outcome State Fault Refusal := .next (aerError fn 1 off (tick t s))

/-- LINK_TRAINED (R93). -/
def execLinkTrained (t width speed : Nat) (s : State) : Host.Outcome State Fault Refusal := .next (linkTrain width speed (tick t s))

end Sys2Proof.Machine
end

