-- ==== Sys2Proof/Machine/Keys.lean ====
section
/-! DEFINITION. Key slots as jobs see them: handles, the checks that R168, R273 and the key commands share, fingerprints (R293 to R295). -/

namespace Sys2Proof.Machine

/-- The slot that a handle names in a bank; a slot never used is EMPTY at generation 0 (R294). -/
def slotOf (b : Bank) (h : Nat) : KeySlot := (mget b.slots (h % 65536)).getD {}

/-- The slot is in use (R168 order 2). -/
def KeySlot.inUse (k : KeySlot) : Bool := k.st = 2

/-- The handle's generation is the slot's (R294). -/
def genMatches (k : KeySlot) (h : Nat) : Bool := k.gen = h / 65536

/-- KEY_STALE for a nonzero handle whose generation is not the slot's (R168). -/
def staleFail (k : KeySlot) (h : Nat) : List Fail := failIf (h ≠ 0 && !genMatches k h) stStale 0

/-- Orders 1 and 2 of R168 and R273: a key is named, and it is in use and of the tenant. -/
def useFails (k : KeySlot) (h tenant : Nat) : List Fail :=
  failIf (h = 0) stUsage 1 ++ failIf (!(k.inUse && k.tenant = tenant)) stUsage 6

/-- A narrow MAC algorithm (R293). -/
def macAlg (k : KeySlot) : Bool := !k.wide && (k.alg = 1 || k.alg = 2)

/-- The key checks of R168 with the purposes accepted; game and epoch range where the operation takes them. -/
def sealKeyFails (k : KeySlot) (h tenant : Nat) (purposes : List Nat) (game epoch : Option Nat) : List Fail :=
  staleFail k h ++ useFails k h tenant ++ failIf (!macAlg k) stUsage 3 ++ failIf (!purposes.contains k.purpose) stUsage 2
    ++ (match game with
        | some g => failIf (k.game ≠ 0 && k.game ≠ g) stUsage 4
        | none => [])
    ++ (match epoch with
        | some e => failIf (!(k.first ≤ e && e ≤ k.last)) stUsage 5
        | none => [])

/-- The full MAC of a narrow key under a customisation string (R163). -/
def macFull (k : KeySlot) (m : Bytes) (custom : String) : Bytes :=
  if k.alg = 1 then beBytes 16 (Config.cmacAes256 k.mat m).toNat else beBytes 32 (Config.kmac256 k.mat m 256 custom)

/-- FINGERPRINT (R295). -/
def fingerprint (k : KeySlot) : Bytes :=
  if k.wide then (digest384 k.pub).take 16 else beBytes 16 (Config.kmac256 k.mat [] 128 "XZKCV")

/-- The attribute record of a slot (R295). -/
def attrRecord (slot : Nat) (k : KeySlot) (st pendT : Nat) : Bytes :=
  leBytes 4 (k.gen * 65536 + slot) ++ leBytes 1 st ++ leBytes 1 (bit k.wide 0) ++ leBytes 1 k.purpose ++ leBytes 1 k.alg
    ++ leBytes 2 k.tenant ++ leBytes 2 k.game ++ leBytes 6 k.first ++ leBytes 6 k.last ++ leBytes 1 k.origin ++ leBytes 1 k.flags
    ++ leBytes 1 (if k.wide then k.span else 0) ++ zeros 1 ++ leBytes 4 k.index ++ leBytes 6 pendT ++ zeros 2 ++ fingerprint k ++ zeros 8

end Sys2Proof.Machine
end

