-- ==== Sys2Proof/Machine/Sealing.lean ====
section
/-! DEFINITION. Wager sealing: the canonical header, tag and leaf, the four operations of R159, the MAC cores and their scheduler,
and the package seal number (chapter 05). -/

namespace Sys2Proof.Machine

/-! ## PSN (R161) -/

/-- When the next PSN comes within 2^36 of the end of the reservation a further 2^40 is reserved: at once in BLANK and TEST,
otherwise by an image write (R161). -/
def extendPsn (s : State) : State :=
  if s.psnCeil ≤ s.psnNext + 68719476736 then
    if imageless s then { s with psnCeil := s.psnCeil + 1099511627776 } else { s with psnWriting := true }
  else s

/-- The next PSN, or none at the end of the reservation (R161). -/
def takePsn (s : State) : Option Nat × State :=
  if s.psnNext < s.psnCeil then (some s.psnNext, extendPsn { s with psnNext := s.psnNext + 1 })
  else (none, extendPsn s)

/-- The reservation has been written to the image (R161). -/
def psnWritten (s : State) : State :=
  if s.psnWriting then { s with psnCeil := s.psnCeil + 1099511627776, psnWriting := false } else s

/-! ## The MAC cores (R176, R177) -/

/-- MAC-core opcodes. -/
def macOp (op : Nat) : Bool := 0x10 ≤ op && op ≤ 0x13

/-! ## The output of an engine (R190) -/

/-- Places of the collector's queue that it may still grant: it stops with fewer than 64 of its 1,024 places free. -/
def grantRoom (d : Die) : Nat := 961 - d.collector.length

/-- The engine output whose result a job is: 0 a MAC core, 1 a lane, 2 the mapper, 3 the DRBG bank; and the number of the unit. -/
def outlet (x : Job) : Nat × Nat :=
  if macOp x.d.op then (0, x.lane)
  else if reckonerOp x.d.op || x.ring = ownRing || x.d.op = 0x50 then (1, x.lane)
  else (if x.d.op = 0x22 then 3 else 2, 0)

/-- The skid buffer of an engine output is full: the engine stalls at its job boundary. -/
def stalled (d : Die) (kind unit : Nat) : Bool := 2 ≤ (d.skid.filter fun k => k.1 = kind && k.2.1 = unit).length

/-- The engine's result goes to the completion collector of the die, or waits in the engine's skid buffer. -/
def collect (id st info : Nat) (result out : Bytes) (leaf : Option Leaf) (s : State) : State :=
  let x := getJob s id
  modDie x.die (fun d => if 0 < grantRoom d then { d with collector := d.collector ++ [id] }
                         else { d with skid := d.skid ++ [((outlet x).1, (outlet x).2, id)] })
    (modJob id (fun x => { x with phase := .collector, st := st, info := info, result := result, data := out, leaf := leaf }) s)

/-- The collector takes from the skid buffers while it grants. -/
def refill (d : Die) : Die :=
  { d with collector := d.collector ++ (d.skid.take (grantRoom d)).map (·.2.2), skid := d.skid.drop (grantRoom d) }

/-! ## The scheduler -/

/-- A MAC core may take a job: it is idle and fits the job. -/
def coreMay (c : Unit) (i len : Nat) (bar : Option Nat) : Bool := c.job = none && unitFits 0 len bar i c

/-- The core that the scheduler picks: a key-cache hit first, then the lowest number. -/
def pickCore (d : Die) (slot gen len : Nat) (bar : Option Nat) : Option Nat :=
  let ok := (List.range d.cores.length).filter fun i => coreMay (d.cores.getD i {}) i len bar && !stalled d 0 i
  match ok.find? fun i => (d.cores.getD i {}).cache.contains (slot, gen) with
  | some i => some i
  | none => ok.head?

/-- A key cache of two entries with a key loaded. The spec does not say which entry a miss replaces; here the one used less recently
(DESIGN CHOICE, log entry 73). -/
def cacheLoad (c : List (Nat × Nat)) (k : Nat × Nat) : List (Nat × Nat) := (k :: c.filter (· ≠ k)).take 2

/-- The slot that a job names is being refetched from the Crown: the job waits (R32). -/
def refetching (s : State) (die id : Nat) : Bool :=
  let h := (getJob s id).d.handle
  h ≠ 0 && (getDie s die).refetch.contains (h % 65536)

/-- A key cache without the entries of superseded or cleared keys, but for the key of the job that runs (R177). -/
def freshCache (b : Bank) (run : Option Nat) (c : List (Nat × Nat)) : List (Nat × Nat) :=
  c.filter fun k => run = some (k.2 * 65536 + k.1) || (let x := (mget b.slots k.1).getD {}; x.st = 2 && x.gen = k.2)

/-- A core drops what a fence has superseded once the last job of the old bank has left it (R177). -/
def dropStale (s : State) (b : Bank) (c : Unit) : Unit := { c with cache := freshCache b (c.job.map fun j => (getJob s j).d.handle) c.cache }

/-- Starts what the Seal scheduler may start, in admission order; no engine starts a job in HOLD (R176, R457). -/
def startMac (die : Nat) (s : State) : State :=
  if s.hold || (getDie s die).halted then s else
  ((getDie s die).macQ.filter fun j => !refetching s die j && !enginesWait s (getJob s j).fn).foldl (fun s j =>
    let x := getJob s j
    let slot := x.d.handle % 65536
    let gen := x.d.handle / 65536
    match pickCore (getDie s die) slot gen x.srcLen x.bar with
    | none => s
    | some i =>
      let c := (getDie s die).cores.getD i {}
      let miss := !c.cache.contains (slot, gen)
      let s1 := modDie die (fun d => { d with
        cores := lset d.cores i { c with job := some j, cache := cacheLoad c.cache (slot, gen) }
        macQ := d.macQ.filter (· ≠ j) }) (modJob j (fun y => { y with lane := i }) s)
      if miss then countOn die 7 x.fn 1 s1 else s1) s

/-- A job enters a queue before the first one that was admitted after it (R176). -/
def admitOrder (s : State) (id : Nat) (q : List Nat) : List Nat :=
  let n := (getJob s id).admNo
  q.takeWhile (fun j => (getJob s j).admNo ≤ n) ++ [id] ++ q.dropWhile (fun j => (getJob s j).admNo ≤ n)

/-- A job enters the Seal scheduler's queue, which it leaves in admission order; a die without a healthy core completes it with FAULT_RETRY (R47). -/
def queueMac (id : Nat) (s : State) : State :=
  let x := getJob s id
  if !healthy (getDie s x.die) 0 x.srcLen x.bar then collect id stRetry 0 [] [] none s else
  startMac x.die (modDie x.die (fun d => { d with macQ := admitOrder s id d.macQ }) s)

/-- The MAC core that runs a job. -/
def coreOf (s : State) (id : Nat) : Option Nat :=
  (getDie s (getJob s id).die).cores.findIdx? fun c => c.job = some id

/-- Frees the MAC core of a job and starts the next one. -/
def freeMac (id : Nat) (s : State) : State :=
  let die := (getJob s id).die
  startMac die (modDie die (fun d => { d with cores := d.cores.map fun c => if c.job = some id then dropStale s d.bank { c with job := none } else c
                                              macQ := d.macQ.filter (· ≠ id) }) s)

/-! ## Header, tag and leaf (R160, R163, R164) -/

/-- The canonical header of a seal (R160). -/
def sealHeader (tenant kind alg recLen : Nat) (x : Job) : Bytes :=
  [1, byte kind, byte alg, byte (x.d.f 34 1)] ++ leBytes 2 tenant ++ leBytes 2 x.fn ++ leBytes 2 x.ring ++ leBytes 2 (x.d.f 32 2)
    ++ leBytes 8 x.psn ++ leBytes 6 x.epoch ++ zeros 2 ++ x.stamp.bytes ++ leBytes 4 recLen ++ leBytes 8 (x.d.f 36 8)
    ++ leBytes 4 x.d.handle ++ zeros 4

/-- The tag: the leftmost bytes of the MAC over header and record or digest (R163). -/
def sealTag (k : KeySlot) (header body : Bytes) (len : Nat) : Bytes := (macFull k (header ++ body) "XZSEAL").take len

/-- LEAF of a leaf (R164). -/
def Leaf.hash (l : Leaf) : Bytes := digest384 ([0] ++ l.header ++ l.rd ++ l.tpad)

/-- RD of a record (KIND 0x01) or of a host digest (KIND 0x02) (R164). -/
def sealRd (kind : Nat) (body : Bytes) : Bytes := if kind = 1 then digest384 body else body

/-- The leaf of a seal (R164). -/
def sealLeaf (header body tag : Bytes) (kind : Nat) : Leaf := { header := header, rd := sealRd kind body, tpad := fit 16 tag }

/-! ## SEAL and SEAL_DIGEST (R165 to R170) -/

/-- TIME_UNTRUSTED of an operation that records a Stamp (R69). -/
def stampFails (s : State) (x : Job) (strict : Bool) : List Fail :=
  if s.time.reasons.notAcquired then [⟨stUntrusted, 1⟩]
  else failIf (strict && !jobTrusted s x) stUntrusted 0

/-- GAME_CLOSED of a seal naming a game (R80, R169). -/
def closeFails (x : Job) : List Fail :=
  if x.d.f 32 2 = 0 then [] else
  match x.closeAt with
  | none => [⟨stClosed, 1⟩]
  | some (sec, ns) => failIf (!closeOk x.stamp sec ns) stClosed 0

/-- The own checks of SEAL and SEAL_DIGEST, in the order of R175 and R168. -/
def sealOwn (digest : Bool) (s : State) (x : Job) : List Fail :=
  let tl := x.d.f 34 1
  failIf (if digest then x.policy 0 = 0 else x.policy 0 = 3) stInput 0xFE
    ++ failIf (!(tl = 8 || tl = 12 || tl = 16)) stInput 0x80 ++ failIf (1 < x.d.f 35 1) stInput 0x81
    ++ failIf (x.d.dst = 0) stInput 0x82 ++ failIf (digest && x.d.indirect) stInput 0x83 ++ failIf (digest && x.d.aux = 0) stLength 4
    ++ sealKeyFails (x.key.getD {}) x.d.handle x.tenant [1] (some (x.d.f 32 2)) (some x.epoch)
    ++ failIf (x.psn = 0) stNotReady 2
    ++ stampFails s x (x.d.f 32 2 ≠ 0) ++ closeFails x

/-- The source test of R170, with the Stamp of the source's arrival. -/
def sourceTest (x : Job) : Bool :=
  x.d.f 32 2 = 0 || (match x.closeAt with
    | some (sec, ns) => closeOk (x.arrived.getD {}) sec ns
    | none => false)

/-- A seal whose source has arrived: the source test, then the Seal scheduler. -/
def sealGo (id : Nat) (s : State) : State :=
  let x := getJob s id
  if sourceTest x then
    queueMac id (modJob id (fun y => { y with phase := .engine, flagged := x.d.f 32 2 = 0 && !(x.stamp.flags.testBit 0)
                                              hostRun := x.d.op = 0x11 }) s)
  else finishJob id stClosed 2 [] [] s

/-- The MAC core ends a seal: tag, leaf and output (R163, R164, R166). -/
def sealFin (id : Nat) (s : State) : State :=
  match coreOf s id with
  | none => s
  | some _ =>
    let x := getJob s id
    let k := x.key.getD {}
    let kind := if x.d.op = 0x11 then 2 else 1
    let h := sealHeader x.tenant kind k.alg (if kind = 2 then x.d.aux else x.srcLen) x
    let tag := sealTag k h x.src (x.d.f 34 1)
    let leaf := sealLeaf h x.src tag kind
    let out := if x.d.f 35 1 = 1 then h ++ leaf.hash ++ leaf.tpad else tag
    collect id (if x.flagged then stFlagged else stOk) 0 (leBytes 8 x.psn) out (some leaf) (freeMac id s)

/-- SEAL (R165). -/
def sealSem : OpSem where
  pfOnly := anyFn
  resv d := reservedBad d (offAux ++ span 44 63)
  fenced := anyFn
  keyed := pfOnly
  src := true
  len _ n := failIf (n = 0 || 65536 < n) stLength 1
  own := sealOwn false
  go := sealGo
  fin := sealFin

/-- SEAL_DIGEST (R165). -/
def sealDigestSem : OpSem where
  pfOnly := anyFn
  resv d := reservedBad d (span 44 63)
  fenced := anyFn
  keyed := pfOnly
  src := true
  len x n := failIf (!x.d.indirect && n ≠ 48) stLength 2
  own := sealOwn true
  go := sealGo
  fin := sealFin

/-! ## VERIFY_SEAL (R171, R172) -/

/-- The own checks of VERIFY_SEAL at admission. -/
def verifySealOwn (_s : State) (x : Job) : List Fail :=
  sealKeyFails (x.key.getD {}) x.d.handle x.tenant [1, 2] none none

/-- The checks of R172, in its order. -/
def headerFails (x : Job) : List Fail :=
  let k := x.key.getD {}
  let h := field x.src
  let kind := h 1 1
  let tl := h 3 1
  failIf (h 0 1 ≠ 1) stInput 0x88 ++ failIf (!(kind = 1 || kind = 2)) stInput 0x89 ++ failIf (h 2 1 ≠ k.alg) stInput 0x8A
    ++ failIf (!(tl = 8 || tl = 12 || tl = 16)) stInput 0x8B
    ++ failIf (h 26 2 ≠ 0 || h 60 4 ≠ 0 || 1024 ≤ h 4 2) stInput 0x8C
    ++ failIf (if kind = 1 then x.srcLen ≠ 64 + h 44 4 else x.srcLen ≠ 112) stInput 0x8D
    ++ failIf ((firstNonzero (slice x.d.bytes 32 16) (span tl 15)).isSome) stInput 0x84
    ++ failIf (k.game ≠ 0 && k.game ≠ h 10 2) stUsage 4 ++ failIf (!(k.first ≤ h 20 6 && h 20 6 ≤ k.last)) stUsage 5

/-- The first failure of a list whose order is the rule's own. -/
def inOrder : List Fail → Option Fail := List.head?

/-- VERIFY_SEAL once header and record are held. -/
def verifySealGo (id : Nat) (s : State) : State :=
  match inOrder (headerFails (getJob s id)) with
  | some f => failJob id f s
  | none => queueMac id (modJob id (fun y => { y with phase := .engine }) s)

/-- The MAC core ends a VERIFY_SEAL. -/
def verifySealFin (id : Nat) (s : State) : State :=
  match coreOf s id with
  | none => s
  | some _ =>
    let x := getJob s id
    let h := x.src.take 64
    let body := x.src.drop 64
    let tl := field h 3 1
    let tag := sealTag (x.key.getD {}) h body tl
    let leaf := sealLeaf h body tag (field h 1 1)
    let ok := tag = slice x.d.bytes 32 tl
    collect id stOk 0 [if ok then 0 else 1] (if x.d.dst = 0 then [] else leaf.hash) none (freeMac id s)

/-- VERIFY_SEAL (R171). -/
def verifySealSem : OpSem where
  pfOnly := anyFn
  resv d := reservedBad d (offAux ++ span 48 63)
  fenced := anyFn
  keyed := pfOnly
  src := true
  len _ n := failIf (n < 65 || 65600 < n) stLength 3
  own := verifySealOwn
  go := verifySealGo
  fin := verifySealFin

/-! ## MAC (R173, R174) -/

/-- The own checks of MAC, in the order of R175. -/
def macOwn (_s : State) (x : Job) : List Fail :=
  let mode := x.d.f 32 1
  let tl := x.d.f 33 1
  failIf (!(4 ≤ tl && tl ≤ 16)) stInput 0x80
    ++ failIf (if mode = 0 then x.d.dst = 0 else if mode = 1 then x.d.dst ≠ 0 else false) stInput 0x82
    ++ failIf ((firstNonzero (slice x.d.bytes 48 16) (span (if mode = 0 then 0 else tl) 15)).isSome) stInput 0x84
    ++ failIf (1 < mode || (x.d.srcLen = 0 && x.d.srcAddr ≠ 0)) stInput 0x85
    ++ sealKeyFails (x.key.getD {}) x.d.handle x.tenant [3] none none

/-- MAC enters the Seal scheduler. -/
def macGo (id : Nat) (s : State) : State := queueMac id (modJob id (fun y => { y with phase := .engine }) s)

/-- The MAC core ends a MAC. -/
def macFin (id : Nat) (s : State) : State :=
  match coreOf s id with
  | none => s
  | some _ =>
    let x := getJob s id
    let tl := x.d.f 33 1
    let tag := (macFull (x.key.getD {}) x.src "XZMAC").take tl
    if x.d.f 32 1 = 0 then collect id stOk 0 [] tag none (freeMac id s)
    else collect id stOk 0 [if tag = slice x.d.bytes 48 tl then 0 else 1] [] none (freeMac id s)

/-- MAC (R173). -/
def macSem : OpSem where
  pfOnly := anyFn
  resv d := reservedBad d (offAux ++ span 34 47)
  fenced := anyFn
  keyed := pfOnly
  src := true
  len _ _ := []
  own := macOwn
  go := macGo
  fin := macFin

end Sys2Proof.Machine
end

