-- ==== Sys2Proof/Machine/Ledger.lean ====
section
/-! DEFINITION. The ledger: the sequencer and the journal, trees and chained records, batches and their signatures, the root store,
ledger rings, the checkpoint, rebuild and fallback, and what happens to them at a boundary (chapter 06). -/

namespace Sys2Proof.Machine

/-! ## Ledgers -/

/-- The ledger of a tenant. -/
def getLedger (s : State) (t : Nat) : Ledger := (mget s.ledgers t).getD {}

/-- Changes the ledger of a tenant. -/
def modLedger (t : Nat) (f : Ledger → Ledger) (s : State) : State := { s with ledgers := mset s.ledgers t (f (getLedger s t)) }

/-- A ledger by number: 0xFFFF is the package ledger. -/
def ledgerBy (s : State) (t : Nat) : Ledger := if t = 0xFFFF then s.pkg else getLedger s t

/-- Changes a ledger by number. -/
def modLedgerBy (t : Nat) (f : Ledger → Ledger) (s : State) : State :=
  if t = 0xFFFF then { s with pkg := f s.pkg } else modLedger t f s

/-! ## Trees (R192) -/

/-- Largest power of two below n, for n ≥ 2. -/
def splitAt2 (n : Nat) : Nat := 2 ^ Nat.log2 (n - 1)

/-- An interior node. -/
def nodeHash (a b : Bytes) : Bytes := digest384 ([1] ++ a ++ b)

/-- MTH of R192 over leaf hashes; the first argument bounds the depth. -/
def mthAux : Nat → List Bytes → Bytes
  | 0, l => l.headD (zeros 48)
  | f + 1, l =>
    match l with
    | [] => zeros 48
    | [x] => x
    | _ => let k := splitAt2 l.length; nodeHash (mthAux f (l.take k)) (mthAux f (l.drop k))

/-- MTH (R192). -/
def mth (l : List Bytes) : Bytes := mthAux l.length l

/-- Sibling hashes of a leaf from the leaf upwards (R207, RFC 9162). -/
def pathAux : Nat → Nat → List Bytes → List Bytes
  | 0, _, _ => []
  | f + 1, i, l =>
    match l with
    | [] => []
    | [_] => []
    | _ =>
      let k := splitAt2 l.length
      if i < k then pathAux f i (l.take k) ++ [mth (l.drop k)] else pathAux f (i - k) (l.drop k) ++ [mth (l.take k)]

/-- The inclusion path of leaf i. -/
def proofPath (i : Nat) (l : List Bytes) : List Bytes := pathAux l.length i l

/-- fn and sn shifted while fn is even and not 0 (R208). -/
def shiftEven : Nat → Nat → Nat → Nat × Nat
  | 0, fn, sn => (fn, sn)
  | f + 1, fn, sn => if fn % 2 = 0 ∧ fn ≠ 0 then shiftEven f (fn / 2) (sn / 2) else (fn, sn)

/-- The walk of R208: index and last index, the running hash, the siblings; the root reached, or none. -/
def walkPath : Nat → Nat → Bytes → List Bytes → Option Bytes
  | _, sn, r, [] => if sn = 0 then some r else none
  | fn, sn, r, p :: ps =>
    if sn = 0 then none
    else if fn % 2 = 1 ∨ fn = sn then
      let q := shiftEven 64 fn sn
      walkPath (q.1 / 2) (q.2 / 2) (nodeHash p r) ps
    else walkPath (fn / 2) (sn / 2) (nodeHash r p) ps

/-! ## The journal (R186, R188, R214, R215) -/

/-- The 144 bytes of a journal entry (R188). -/
def JEntry.bytes (e : JEntry) : Bytes :=
  fit 64 e.leaf.header ++ fit 48 e.leaf.rd ++ fit 16 e.leaf.tpad ++ leBytes 8 e.seq ++ leBytes 6 e.epoch ++ leBytes 1 e.die ++ [0]

/-- A padding entry. -/
def padEntry (epoch : Nat) : Bytes := zeros 136 ++ leBytes 6 epoch ++ [0, 1]

/-- The 4,608 bytes of a page. -/
def JPage.bytes (p : JPage) : Bytes :=
  (p.entries.map JEntry.bytes).flatten ++ (List.replicate (32 - p.entries.length) (padEntry p.epoch)).flatten

/-- The open page takes another entry of the current epoch. -/
def pageHasRoom (s : State) : Bool :=
  match s.pages.getLast? with
  | some p => !p.closed && p.epoch = s.time.epoch && p.entries.length < 32
  | none => false

/-- A place for a new page: a free one, or that of a reclaimable page. -/
def placeFree (s : State) : Bool := (sramPages s).length < 1820 || s.pages.any (reclaimable s)

/-- APPEND_STALLED (R215, R221). -/
def appendStalled (s : State) : Bool := (!pageHasRoom s && !placeFree s) || s.storeStall

/-- Appends may be made: none of the conditions of R52, R215, R217, R218 and R219 stops them. -/
def mayAppend (s : State) : Bool :=
  !appendStalled s && !s.quiesced && !s.ckptOverdue && !s.ckptDirty && !s.crownFault && acquired s
    && !(s.ledgers.any fun l => l.2.disc.isSome)

/-- Closes the open page: padded to 32 entries, folded into the running digest, counted in the epoch index (R214). -/
def closePage (s : State) : State :=
  match s.pages.getLast? with
  | none => s
  | some p =>
    if p.closed then s else
    { s with
      pages := s.pages.dropLast ++ [{ p with closed := true }]
      pd := digest384 ([9] ++ s.pd ++ p.bytes)
      epochIdx := match s.epochIdx.getLast? with
        | some i => if i.epoch = p.epoch then s.epochIdx.dropLast ++ [({ i with count := i.count + 1 } : EpochIdx)]
                    else (s.epochIdx ++ [(⟨p.epoch, p.no, 1, s.pd⟩ : EpochIdx)]).drop (s.epochIdx.length - 16383)
        | none => [(⟨p.epoch, p.no, 1, s.pd⟩ : EpochIdx)] }

/-- Opens a page for the current epoch, reusing the oldest reclaimable place when SRAM is full; the entries of an epoch that
loses a page are no longer readable (R215). -/
def openPage (s : State) : State :=
  let s1 := closePage s
  let s2 := if (sramPages s1).length < 1820 then s1 else
    match s1.pages.find? (reclaimable s1) with
    | some old => { s1 with pages := s1.pages.filter (·.epoch ≠ old.epoch) }
    | none => s1
  { s2 with pages := s2.pages ++ [{ no := s2.pageNo, epoch := s2.time.epoch }], pageNo := s2.pageNo + 1 }

/-- Writes an entry into the open page, opening one where needed. -/
def writeEntry (e : JEntry) (s : State) : State :=
  let s1 := if pageHasRoom s then s else openPage s
  match s1.pages.getLast? with
  | none => s1
  | some p =>
    let s2 := { s1 with pages := s1.pages.dropLast ++ [{ p with entries := p.entries ++ [e] }] }
    if p.entries.length = 31 then closePage s2 else s2

/-- Every journal entry that can still be read. -/
def readable (s : State) : List JEntry := s.pages.flatMap (·.entries)

/-! ## Ledger rings (R201 to R203) -/

/-- A record's bytes with RECORD_NO set. -/
def withNo (b : Bytes) (no : Nat) : Bytes := b.take 8 ++ leBytes 8 no ++ b.drop 16

/-- The common header of a record (R203). -/
def recHeader (typ len tenant flags : Nat) : Bytes := [byte typ, 1] ++ leBytes 2 (len / 64) ++ leBytes 2 tenant ++ [byte flags, 0] ++ zeros 8

/-- A PAD record over n units. -/
def padRecord (n no : Nat) : Bytes := withNo (recHeader 0 (n * 64) 0 0) no ++ zeros (n * 64 - 16)

/-- A record is delivered to a ring: its scope and tenant, and the options for LEAF and every-tenant records (R201). -/
def delivers (r : LRing) (x : Record) : Bool :=
  if r.scope = 0 then x.tenant = r.tenant && (x.typ ≠ 3 || r.opts.testBit 0)
  else x.tenant = 0xFFFF || (r.opts.testBit 1 && (x.typ = 1 || x.typ = 4))

/-- The 64-byte index block of a ledger ring (R202). -/
def lrIndex (r : LRing) : Bytes := leBytes 8 r.written ++ leBytes 8 r.records ++ leBytes 6 r.epoch ++ zeros 2 ++ leBytes 8 r.lastSeq ++ zeros 32

/-- Writes one record into one ring, a PAD record first when it would wrap, and then the index block (R202). -/
def writeRec (x : Record) (r : LRing) (s : State) : LRing × State :=
  let size := 2 ^ r.log2
  let u := x.bytes.length / 64
  let at_ := r.written % size
  let pad := if size < at_ + u then size - at_ else 0
  let s1 := if pad = 0 then s else emit (.write r.owner (r.base + at_ * 64) (padRecord pad r.records)) s
  let r1 := if pad = 0 then r else { r with written := r.written + pad, records := r.records + 1 }
  let s2 := emit (.write r.owner (r1.base + r1.written % size * 64) (withNo x.bytes r1.records)) s1
  let r2 := { r1 with written := r1.written + u, records := r1.records + 1
                      epoch := if x.typ = 1 ∨ x.typ = 5 then x.epoch else r1.epoch
                      lastSeq := if x.typ = 1 then x.lastSeq else r1.lastSeq
                      leafDue := r1.leafDue || decide (x.typ = 3) }
  let s3 := emit (.write r.owner r2.index (lrIndex r2)) s2
  (r2, if x.typ = 2 ∧ r.vector ≠ 0xFF then signal r.owner r.vector s3 else s3)

/-- A record for one ring: written, or kept in chain order while the owner makes no memory request (R118, R202; log entry 13). -/
def deliverOne (x : Record) (r : LRing) (s : State) : LRing × State :=
  if !delivers r x then (r, s)
  else if busOff s r.owner || r.held ≠ [] then ({ r with held := r.held ++ [x] }, s)
  else writeRec x r s

/-- The records that a ring has kept are written once its owner makes memory requests again. -/
def flushRing (r : LRing) (s : State) : LRing × State :=
  if busOff s r.owner then (r, s) else r.held.foldl (fun a x => writeRec x a.1 a.2) ({ r with held := [] }, s)

/-- Changes every ledger ring in turn. -/
def overRings (f : LRing → State → LRing × State) (s : State) : State :=
  let r := s.lrings.foldl (fun (acc : List LRing × State) r => let y := f r acc.2; (acc.1 ++ [y.1], y.2)) ([], s)
  { r.2 with lrings := r.1 }

/-- Delivers a record to every ring that takes it. -/
def deliver (x : Record) (s : State) : State := overRings (deliverOne x) s

/-- Every ring that keeps records writes them, where it may. -/
def flushRings (s : State) : State := if s.lrings.all (·.held = []) then s else overRings flushRing s

/-- Stores a record in the root store and delivers it (R204). -/
def publish (x : Record) (s : State) : State :=
  let n := s.rootStore.length - 4095
  let s1 := (s.rootStore.take n).foldl (fun s r => modLedgerBy r.tenant (fun l => { l with evicted := max l.evicted (r.epoch + 1) }) s) s
  deliver x { s1 with rootStore := (s.rootStore ++ [x]).drop n }

/-! ## Appending a leaf (R186 to R189) -/

/-- The LEAF record of an entry (R203). -/
def leafRecord (e : JEntry) : Record :=
  { typ := 3, tenant := e.tenant, epoch := e.epoch, lastSeq := e.seq, leaves := 1, body := [], chain := []
    bytes := recHeader 3 192 e.tenant 0 ++ e.bytes ++ zeros 32 }

/-- LEDGER policy of a tenant in force. -/
def ledgerPolicy (s : State) (t : Nat) : Nat := (mget (crownBank s).ledgerPol t).getD 0

/-- The ack of a leaf is queued to its die, which keeps the leaf in its tree buffer until it has folded it (R187, R189). -/
def ackLeaf (e : JEntry) (s : State) : State :=
  modDie e.die (fun d => if d.live then { d with
    acks := d.acks ++ [.leaf e.tenant e.epoch e.seq (decide (ledgerPolicy s e.tenant = 3))], treeBuf := d.treeBuf ++ [(e.tenant, e.seq, e.leaf.hash)] } else d) s

/-- Appends a leaf: NEXT_SEQ, the current epoch, the journal entry, the ack to its die, and the LEAF record (R186, R187). -/
def appendLeaf (tenant die : Nat) (leaf : Leaf) (s : State) : Nat × State :=
  let seq := (getLedger s tenant).nextSeq
  let e : JEntry := { leaf := leaf, seq := seq, epoch := s.time.epoch, die := die, tenant := tenant }
  let s1 := modLedger tenant (fun l => { l with nextSeq := seq + 1 }) s
  let s2 := ackLeaf e (writeEntry e s1)
  let s3 := countOn 0 0x84 (field leaf.header 6 2) 1 { s2 with appended := s2.appended + 1 }
  (seq, deliver (leafRecord e) s3)

/-- Opcodes whose jobs append a leaf: SEAL, SEAL_DIGEST, DRAW, SHUFFLE and DRAW_MAP. -/
def leafOp (op : Nat) : Bool := op = 0x10 || op = 0x11 || op = 0x20 || op = 0x21 || op = 0x99

/-- The job may still append a leaf: it has not appended one, and it has not completed and will not complete without one. -/
def Job.leafAhead (y : Job) : Bool :=
  leafOp y.d.op && y.phase != .done && !y.appended
    && !((y.phase = .collector || y.phase = .ingress || y.phase = .sequenced) && y.leaf.isNone)

/-- An earlier job of the same ring and generation may still append a leaf (R187). -/
def blocked (s : State) (id : Nat) (x : Job) : Bool :=
  s.jobs.any fun k => k.1 < id && k.2.ofQueue x.fn x.ring x.gen && k.2.leafAhead

/-- Changes one draw. -/
def modDraw (d : Nat) (f : Draw → Draw) (s : State) : State := { s with draws := s.draws.map fun x => if x.id = d then f x else x }

/-- Inserts a draw in DRAW_ID order. -/
def putDraw (d : Draw) : List Draw → List Draw
  | [] => [d]
  | x :: l => if d.id < x.id then d :: x :: l else if d.id = x.id then d :: l else x :: putDraw d l

/-- What follows the append of a draw job's leaf: a commitment ends its job; a result or void leaf leaves the record to be signed
(R245, R246, R250, R251). -/
def appendDraw (id seq : Nat) (head : Bytes) (x : Job) (d : Draw) (s : State) : State :=
  if x.d.op = 0x99 then modDraw d.id (fun y => { y with leaf := none, header := head, leafSeq := seq, signing := true }) (modJob id (fun y => { y with phase := .wait 13, appended := true }) s)
  else if d.sched then finishJob id x.st x.info x.result x.data (modDraw d.id (fun y => { y with committed := true, commitHead := head, commitSeq := seq }) s)
  else if d.host then finishJob id x.st x.info x.result x.data { s with draws := putDraw { d with commitSeq := seq, st := 2 } s.draws }
  else modJob id (fun y => { y with phase := .wait 13, appended := true, draw := some { d with header := head, leafSeq := seq, signing := true } }) s

/-- Appends the staged leaf of a job and finishes the job (R187, R189). -/
def appendJob (id : Nat) (s : State) : State :=
  match mget s.jobs id with
  | none => s
  | some x =>
    match x.leaf with
    | none => finishJob id x.st x.info x.result x.data s
    | some leaf =>
      let r := appendLeaf x.tenant x.die leaf s
      let s1 := modJob id (fun y => { y with leaf := none, c := { y.c with seq := r.1, epoch := some s.time.epoch } }) r.2
      match x.draw with
      | none => finishJob id x.st x.info x.result x.data s1
      | some d => appendDraw id r.1 leaf.header x d s1

/-- A leaf header with FLAGS bits set. -/
def flagHeader (h : Bytes) (f : Nat) : Bytes := h.take 3 ++ [h.getD 3 0 ||| byte f] ++ h.drop 4

/-- The result or void leaf of a draw of the device's own is appended, and its record is to be signed; the result of a draw of boundary B has
LATE when it is appended in a later epoch than B (R245, R247, R248). -/
def appendDrawLeaf (id : Nat) (s : State) : State :=
  match s.draws.find? (·.id = id) with
  | none => s
  | some d =>
    match d.leaf with
    | none => s
    | some l0 =>
      let late := d.sched && d.st = 3 && decide (d.exec < s.time.epoch)
      let l := if late then { l0 with header := flagHeader l0.header 16 } else l0
      let r := appendLeaf d.tenant d.die l s
      modDraw id (fun y => { y with leaf := none, header := l.header, late := late, leafSeq := r.1, signing := true }) r.2

/-- The commitment of a restored draw is stated again: the header of its image entry with RESTATED and the Stamp of the append (R254). -/
def appendRestate (id : Nat) (s : State) : State :=
  match s.draws.find? (·.id = id) with
  | none => s
  | some d =>
    if !d.restate then s else
    let h := (flagHeader d.commitHead 64).take 40 ++ (pkgStamp s).bytes ++ d.commitHead.drop 56
    let r := appendLeaf d.tenant 0 { header := h, rd := d.defn, tpad := zeros 16 } s
    modDraw id (fun y => { y with restate := false, restated := true, committed := true, commitHead := h, commitSeq := r.1, stamp := pkgStamp s }) r.2

/-- Appends the leaf that stands first in the order of eligibility. -/
def appendElig (e : Elig) (s : State) : State :=
  match e with
  | .job j => if (getJob s j).phase = .sequenced then appendJob j s else s
  | .draw d => appendDrawLeaf d s
  | .restate d => appendRestate d s

/-- Staged jobs that have become eligible join the order of eligibility; those of one instant in the order of their takes (R187). -/
def noteElig (s : State) : State :=
  { s with elig := s.elig ++ ((s.jobs.filter fun k =>
      k.2.phase = .sequenced && k.2.leaf.isSome && !s.elig.contains (.job k.1) && !blocked s k.1 k.2).map fun k => .job k.1) }

/-- The drain: leaves are appended in the order in which they became eligible, while appends may be made (R187). -/
def drain : Nat → State → State
  | 0, s => s
  | n + 1, s =>
    let s1 := noteElig s
    match s1.elig with
    | [] => s1
    | e :: es => if mayAppend s1 then drain n (appendElig e { s1 with elig := es }) else s1

/-- Staged jobs without a leaf complete at once (R187). -/
def releaseLeafless (s : State) : State :=
  ((s.jobs.filter fun k => k.2.phase = .sequenced && k.2.leaf.isNone).map (·.1)).foldl (fun s j => appendJob j s) s

/-- Drains every ring. -/
def settle (s : State) : State :=
  let s1 := releaseLeafless s
  drain (s1.jobs.length + s1.elig.length + 1) s1

/-- The Crown's ingress takes the oldest batch: each leaf is staged and its ring drained, one after another (R187, R191). -/
def leafArrival (s : State) : State :=
  match s.ingress with
  | [] => settle s
  | b :: bs =>
    b.foldl (fun s j => settle (modJob j (fun x => if x.phase = .ingress then { x with phase := .sequenced } else x) s)) { s with ingress := bs }

/-- A result may leave its die: every job of its ring that the die has admitted before it has left (R190). -/
def collectorReady (s : State) (die id : Nat) : Bool :=
  let x := getJob s id
  !(s.jobs.any fun k => k.1 ≠ id && k.2.die = die && k.2.ofQueue x.fn x.ring x.gen && k.2.admNo < x.admNo
      && (k.2.phase = .table || k.2.phase = .source || k.2.phase = .engine || k.2.phase = .wait 10 || k.2.phase = .collector))

/-- Rising order, repeats dropped. -/
def sortNat (l : List Nat) : List Nat := l.foldl insertNat []

/-- Results of a collector in the order in which the die admitted their jobs. -/
def byAdmission (s : State) (l : List Nat) : List Nat := l.foldl (fun acc j => admitOrder s j acc) []

/-- The collector of a live die sends up to 32 results to the Crown, which holds up to 2,048 batches, and takes from the skid buffers (R190, R191). -/
def collectorSend (die : Nat) (s : State) : State :=
  let d := getDie s die
  if !d.live ∨ 2048 ≤ s.ingress.length then s else
  let ids := (byAdmission s d.collector).foldl (fun (acc : List Nat × State) j =>
      if acc.1.length < 32 && collectorReady acc.2 die j then
        (acc.1 ++ [j], modJob j (fun x => { x with phase := .ingress }) acc.2) else acc) ([], s)
  if ids.1 = [] then s else
  let s1 := modDie die (fun d => refill { d with collector := d.collector.filter fun j => !ids.1.contains j }) ids.2
  ids.1.foldl (fun s j => if (getJob s j).leaf.isSome then countOn die 6 (getJob s j).fn 1 s else s) { s1 with ingress := s1.ingress ++ [ids.1] }

/-! ## Records (R194, R195, R203) -/

/-- BODY of a ROOT record (R194). -/
def rootBody (t e first last : Nat) (counts : List Nat) (roots : List Bytes) : Bytes :=
  digest384 ([2] ++ leBytes 2 t ++ leBytes 6 e ++ leBytes 8 first ++ leBytes 8 last ++ (counts.map (leBytes 8)).flatten ++ roots.flatten)

/-- CHAIN from a domain byte, a body and the chain before. -/
def chainLink (dom : Nat) (body prev : Bytes) : Bytes := digest384 ([byte dom] ++ body ++ prev)

/-- The ROOT record of a pending epoch whose roots are all held (R194, R203). -/
def rootRecord (t : Nat) (l : Ledger) (p : PendRoot) : Record :=
  let roots := p.roots.map fun r => r.getD (zeros 48)
  let body := rootBody t p.epoch p.firstSeq p.lastSeq p.counts roots
  let chain := chainLink 3 body l.chain
  let flags := bit p.host 0 + bit p.fallback 1 + bit (decide (p.rebuilt ≠ 0)) 2 + bit (decide (p.lost ≠ 0)) 3
  { typ := 1, tenant := t, epoch := p.epoch, lastSeq := p.lastSeq, leaves := p.counts.sum, body := body, chain := chain
    bytes := recHeader 1 640 t flags ++ leBytes 6 p.epoch ++ leBytes 6 l.prevEpoch ++ [byte p.rebuilt, byte p.lost] ++ zeros 2
      ++ leBytes 8 p.firstSeq ++ leBytes 8 p.lastSeq ++ (p.counts.map (leBytes 8)).flatten ++ roots.flatten ++ l.chain ++ chain ++ body }

/-- A DISCONTINUITY record (R194, R203, R219). -/
def discRecord (t e : Nat) (l : Ledger) (first last cause : Nat) : Record :=
  let body := digest384 ([0x0A] ++ leBytes 2 t ++ leBytes 6 e ++ leBytes 8 first ++ leBytes 8 last ++ leBytes 4 cause)
  let chain := chainLink 4 body l.chain
  { typ := 4, tenant := t, epoch := e, lastSeq := last, leaves := 0, body := body, chain := chain
    bytes := recHeader 4 192 t 0 ++ leBytes 6 e ++ leBytes 6 l.prevEpoch ++ leBytes 4 cause ++ leBytes 8 first ++ l.chain ++ chain ++ body ++ leBytes 8 last }

/-- Inserts a record by tenant, then epoch. -/
def insertRec (r : Record) : List Record → List Record
  | [] => [r]
  | x :: l => if r.tenant < x.tenant || (r.tenant = x.tenant && r.epoch < x.epoch) then r :: x :: l else x :: insertRec r l

/-- The PACKAGE record of epoch P over the records that became final in it (R195). -/
def packageRecord (p : Nat) (l : Ledger) (fin : List Record) : Record :=
  let srt := fin.foldl (fun l r => insertRec r l) []
  let tree := mth (srt.map fun r => digest384 ([5] ++ leBytes 2 r.tenant ++ leBytes 6 r.epoch ++ leBytes 8 r.lastSeq ++ r.chain))
  let n := (fin.map (·.leaves)).sum
  let body := digest384 ([6] ++ leBytes 6 p ++ leBytes 4 fin.length ++ leBytes 8 n ++ tree)
  let chain := chainLink 7 body l.chain
  { typ := 5, tenant := 0xFFFF, epoch := p, lastSeq := 0, leaves := n, body := body, chain := chain
    bytes := recHeader 5 192 0xFFFF 0 ++ leBytes 6 p ++ leBytes 6 l.prevEpoch ++ leBytes 4 fin.length ++ leBytes 8 n ++ tree ++ l.chain ++ chain ++ zeros 8 }

/-- A record joins its ledger's chain and is published; a tenant record counts for the PACKAGE record of the epoch in which it
becomes final (R194, R195). -/
def chainRecord (r : Record) (s : State) : State :=
  let s1 := modLedgerBy r.tenant (fun l => { l with chain := r.chain, prevEpoch := r.epoch, lastSeq := r.lastSeq, uncovered := l.uncovered ++ [r] }) s
  publish r { s1 with pkgFinal := if r.typ = 5 then s1.pkgFinal else s1.pkgFinal ++ [r] }

/-! ## Batches (R198 to R200) -/

/-- ALG and SIG_LEN of a ledger key's algorithm (R203). -/
def sigLen (alg : Nat) : Nat := if alg = 1 then 64 else if alg = 2 then 96 else if alg = 3 then 132 else if alg = 4 then 64 else if alg = 5 then 114 else 0

/-- Bytes 16 to 95 of a BATCH record (R203). -/
def batchHead (b : Batch) (alg slen reason : Nat) : Bytes :=
  leBytes 6 b.first ++ leBytes 6 b.last ++ leBytes 2 b.recs ++ [byte alg, byte slen] ++ leBytes 8 (if b.tenant = 0xFFFF then 0 else b.lastSeq)
    ++ b.chain ++ leBytes 4 (if reason = 1 then 0 else b.key) ++ [byte reason] ++ zeros 3

/-- The BATCH record of a batch with its signature, or unsigned with a reason (R200, R203). -/
def batchRecord (b : Batch) (alg reason : Nat) (sig : Bytes) : Record :=
  let slen := if reason = 0 then sigLen alg else 0
  { typ := 2, tenant := b.tenant, epoch := b.last, lastSeq := b.lastSeq, leaves := 0, body := [], chain := b.chain
    bytes := recHeader 2 256 b.tenant 0 ++ batchHead b (if reason = 0 then alg else 0) slen reason ++ fit 160 (if reason = 0 then sig else []) }

/-- The message that a batch signature covers (R203). -/
def batchMessage (b : Batch) (alg : Nat) : Bytes := [8] ++ leBytes 2 b.tenant ++ batchHead b alg (sigLen alg) 0

/-- The ledger key of a batch, while it can sign (R200). -/
def batchKey (s : State) (b : Batch) : Option KeySlot :=
  let k := slotOf (crownBank s) b.key
  if k.inUse && genMatches k b.key && !k.mat.isEmpty then some k else none

/-- Writes a batch unsigned (R200). -/
def writeUnsigned (b : Batch) (reason : Nat) (s : State) : State := publish (batchRecord b 0 reason []) s

/-- A batch takes its place in closing order (R198). -/
def insertBatch (b : Batch) (l : List Batch) : List Batch := l.takeWhile (·.no < b.no) ++ [b] ++ l.dropWhile (·.no < b.no)

/-- A batch whose records are all final: written unsigned at once, or queued for signing (R198 to R200). -/
def queueBatch (b : Batch) (s : State) : State :=
  if b.key = 0 then writeUnsigned b 1 s
  else if s.locked then writeUnsigned b 3 s
  else if 65535 ≤ s.signQ.length then
    recEvent 0x0406 (leBytes 2 b.tenant ++ leBytes 6 b.last) (writeUnsigned b 4 s)
  else { s with signQ := insertBatch b s.signQ }

/-- Device-built epochs pending up to a limit, before the first that awaits a host root. -/
def deviceReady (l : Ledger) (last : Nat) : List PendRoot := (l.pend.takeWhile fun p => !p.host || p.fallback).filter (·.epoch ≤ last)

/-- Materialises the first closed batch of a ledger once its records are final. -/
def releaseBatch (t : Nat) (s : State) : State :=
  let l := ledgerBy s t
  match l.closing with
  | [] => s
  | b :: bs =>
    if (deviceReady l b.last) ≠ [] then s else
    let cov := l.uncovered.filter (·.epoch ≤ b.last)
    let s1 := modLedgerBy t (fun l => { l with closing := bs, uncovered := l.uncovered.filter fun r => b.last < r.epoch }) s
    match cov.getLast? with
    | none => s1
    | some r => queueBatch { b with recs := cov.length, lastSeq := r.lastSeq, lastEpoch := r.epoch, chain := r.chain } s1

/-- Batch closing of one ledger at boundary B (R198); `force` closes it whatever BATCH says (R318). -/
def closeBatch (force : Bool) (t b : Nat) (s : State) : State :=
  let l := ledgerBy s t
  let done := (l.closing.getLast?.map (·.last))
  let es := ((l.uncovered.map (·.epoch)) ++ (deviceReady l (b - 1)).map (·.epoch)).filter fun e => match done with
    | some d => d < e
    | none => true
  match es with
  | [] => s
  | f :: _ =>
    if force ∨ (l.batch ≤ b - f ∧ s.signQ.length < 4096) ∨ 64 ≤ b - f then
      releaseBatch t (modLedgerBy t (fun l => { l with closing := l.closing ++ [{ tenant := t, first := f, last := b - 1, key := l.key, no := s.batchNo }] })
        { s with batchNo := s.batchNo + 1 })
    else s

/-- UNSIGNED_REASON of a waiting batch as things stand: LOCK, or its key is gone; 0 while it can be signed (R200). -/
def batchReason (s : State) (b : Batch) : Nat := if s.locked then 3 else if (batchKey s b).isNone then 2 else 0

/-- A batch is written with its verified signature; what it covers is signed (R198, R217). -/
def writeSigned (b : Batch) (alg : Nat) (sig : Bytes) (s : State) : State :=
  let s1 := publish (batchRecord b alg 0 sig) s
  modLedgerBy b.tenant (fun l => { l with sChain := b.chain, sEpoch := b.lastEpoch, sSeq := b.lastSeq })
    { s1 with time := { s1.time with signedTo := max s1.time.signedTo (b.last + 1) } }

/-- Batches leave the queue in closing order: signed, or unsigned once they cannot be signed any more (R198, R200); the number bounds how many. -/
def releaseSigned : Nat → State → State
  | 0, s => s
  | n + 1, s =>
    match s.signQ with
    | [] => s
    | b :: bs =>
      match b.sig with
      | some g => releaseSigned n (writeSigned b g.1 g.2 { s with signQ := bs })
      | none => if batchReason s b = 0 then s else releaseSigned n (writeUnsigned b (batchReason s b) { s with signQ := bs })

/-- Every batch that waits is written unsigned with a reason: 2 at an ERASE (R220, R286). -/
def flushUnsigned (reason : Nat) (s : State) : State := s.signQ.foldl (fun s b => writeUnsigned b reason s) { s with signQ := [] }

/-! ## Roots (R193, R210, R216) -/

/-- LEAF hashes of a tenant's leaves of an epoch on a die, in sequence order. -/
def dieLeaves (s : State) (t d e : Nat) : List Bytes :=
  ((readable s).filter fun x => x.tenant = t ∧ x.die = d ∧ x.epoch = e).map fun x => x.leaf.hash

/-- Closes an epoch for one tenant: counts, die values, and the roots that need no die (R193). -/
def closeTenant (e t : Nat) (host : Bool) (s : State) : State :=
  let xs := (readable s).filter fun x => x.tenant = t ∧ x.epoch = e
  match xs.head?, xs.getLast? with
  | some a, some z =>
    let counts := (List.range 8).map fun d => (xs.filter (·.die = d)).length
    let vals := (List.range 8).map fun d => if counts.getD d 0 = 0 then zeros 48 else mth (dieLeaves s t d e)
    let p : PendRoot := { epoch := e, firstSeq := a.seq, lastSeq := z.seq, counts := counts, dieVal := vals, host := host, closedAt := s.time.now
                          roots := (List.range 8).map fun d => if counts.getD d 0 = 0 then some (zeros 48) else none }
    modLedger t (fun l => { l with pend := l.pend ++ [p] }) s
  | _, _ => s

/-- Sets or clears a bit of a mask. -/
def setBit (n b : Nat) (on : Bool) : Nat := if on then n ||| 2 ^ b else n - (n &&& 2 ^ b)

/-- The die holds leaves in its tree buffer or its subtrees. -/
def Die.holdsLeaves (d : Die) : Bool := d.treeBuf != [] || d.subtrees != []

/-- The gating of the tree hashers of a die that is in IDLE (R461). -/
def Die.gateTrees (on : Bool) (d : Die) : Die :=
  if d.idle then { d with mandrel := { d.mandrel with req := setBit d.mandrel.req 1 on, gated := setBit d.mandrel.gated 1 on } } else d

/-- CLOSE(E) enters the ack stream of every live die; a die that holds leaves has its tree hashers ungated (R193, R196, R461). -/
def sendClose (e : Nat) (s : State) : State :=
  { s with dies := s.dies.map fun (d : Die) =>
      if d.live then { (if d.holdsLeaves then d.gateTrees false else d) with acks := d.acks ++ [.close e] } else d }

/-- The leaf journal closes epoch E: the page is padded, CLOSE(E) goes to the dies, and every tenant with leaves in E awaits its roots
(R193, R196, R210, R214). LEDGER policy 3 as it was in E makes the tenant await a root from the host. -/
def closeEpoch (e : Nat) (hostOf : Nat → Bool) (s : State) : State :=
  let s1 := sendClose e (closePage s)
  (s1.ledgers.map (·.1)).foldl (fun s t => closeTenant e t (hostOf t) s) s1

/-! ## Subtrees of a die (R192) -/

/-- Folds a node over n leaves into the kept nodes, the smallest first: equal sizes combine, the older node on the left. -/
def foldNode : List (Nat × Bytes) → Nat → Bytes → List (Nat × Bytes)
  | [], n, h => [(n, h)]
  | (m, g) :: r, n, h => if m = n then foldNode r (2 * n) (nodeHash g h) else (n, h) :: (m, g) :: r

/-- DIE_ROOT: the kept nodes combined from the smallest upwards, each older one on the left. -/
def rootOfNodes (l : List (Nat × Bytes)) : Bytes :=
  match l with
  | [] => zeros 48
  | (_, h) :: r => r.foldl (fun acc g => nodeHash g.2 acc) h

/-- Folds a leaf into the subtree of its tenant and epoch. -/
def foldLeaf (t e : Nat) (h : Bytes) (l : List Subtree) : List Subtree :=
  let x := (l.find? fun y => y.tenant = t && y.epoch = e).getD { tenant := t, epoch := e }
  l.filter (fun y => !(y.tenant = t && y.epoch = e)) ++ [{ x with count := x.count + 1, nodes := foldNode x.nodes 1 h }]

/-- The die reads one item of its ack stream: the leaf leaves the tree buffer, folded unless the host builds the tenant's roots (R192, R210). -/
def readAck (a : Ack) (d : Die) : Die :=
  match a with
  | .close _ => d
  | .leaf t e seq host =>
    match d.treeBuf.find? fun x => x.1 = t && x.2.1 = seq with
    | none => d
    | some x => { d with treeBuf := d.treeBuf.filter (fun y => !(y.1 = t && y.2.1 = seq))
                         subtrees := if host then d.subtrees else foldLeaf t e x.2.2 d.subtrees }

/-- The die reads its ack stream up to CLOSE(E). -/
def readAcks (e : Nat) : List Ack → Die → Die
  | [], d => { d with acks := [] }
  | a :: l, d => if a = .close e then { d with acks := l } else readAcks e l (readAck a d)

/-- The die finalises epoch E: it has read its ack stream as far as CLOSE(E) (log entry 74). -/
def finaliseDie (e : Nat) (d : Die) : Die := if d.acks.contains (.close e) then readAcks e d.acks d else d

/-! ## The Crown forms ROOT records (R193, R196) -/

/-- Dies in a LOST_MASK. -/
def lostDies (mask : Nat) : List Nat := (List.range 8).filter fun d => mask.testBit d

/-- Every root of a pending epoch is held. -/
def rootsHeld (p : PendRoot) : Bool := p.roots.all (·.isSome)

/-- Makes the oldest pending epochs of a tenant final, in epoch order, while their roots are held (R193, R196). -/
def finalise : Nat → Nat → State → State
  | 0, _, s => s
  | n + 1, t, s =>
    match (getLedger s t).pend with
    | [] => s
    | p :: ps =>
      if rootsHeld p && (!p.host || p.fallback || p.sub.isSome) then
        let r := rootRecord t (getLedger s t) p
        let lost := (lostDies p.lost).map fun d => (p.epoch, d)
        let s1 := chainRecord r (modLedger t (fun l => { l with pend := ps, lostRoots := l.lostRoots ++ lost }) s)
        finalise n t (releaseBatch t s1)
      else s

/-- Sets the root of a die in the pending epoch of a tenant. -/
def setRoot (t e d : Nat) (f : PendRoot → PendRoot) (s : State) : State :=
  modLedger t (fun l => { l with pend := l.pend.map fun p => if p.epoch = e ∧ (p.roots.getD d none).isNone then f p else p }) s

/-- The subtree of a tenant and epoch on a die, or an empty one. -/
def subtreeOf (d : Die) (t e : Nat) : Subtree := (d.subtrees.find? fun y => y.tenant = t && y.epoch = e).getD { tenant := t, epoch := e }

/-- The Crown receives a die's count and DIE_ROOT for an epoch: with the Crown's own count the root is held, with another it is discarded, an
event is recorded, and the root is rebuilt from the journal (R193). A host-assisted epoch has no die roots (R210). -/
def takeRoot (die t : Nat) (x : Subtree) (p : PendRoot) (s : State) : State :=
  if p.host ∨ (p.roots.getD die none).isSome ∨ p.discarded.testBit die then s
  else if x.count = p.counts.getD die 0 then
    finalise 64 t (setRoot t p.epoch die (fun p => { p with roots := lset p.roots die (some (rootOfNodes x.nodes)) }) s)
  else recEvent 0x0401 (leBytes 2 t ++ leBytes 6 p.epoch) (setRoot t p.epoch die (fun p => { p with discarded := p.discarded ||| 2 ^ die }) s)

/-- The die gives up a subtree once its root is sent. In IDLE the tree hashers are gated again with the last one (DEDUCED from R461, log entry 86). -/
def Die.dropTree (t e : Nat) (d : Die) : Die :=
  let x := { d with subtrees := d.subtrees.filter fun y => !(y.tenant = t && y.epoch = e) }
  if x.holdsLeaves then x else x.gateTrees true

/-- A live die finalises and returns its root of a closed epoch (R193). A subtree build that HOLD has caught waits (R458). -/
def dieRoot (die t e : Nat) (s : State) : State :=
  match (getLedger s t).pend.find? (·.epoch = e) with
  | none => s
  | some p =>
    if !(getDie s die).live || (s.hold && decide (s.pwr.holdAt ≤ p.closedAt)) then s else
    let d := finaliseDie e (getDie s die)
    takeRoot die t (subtreeOf d t e) p (modDie die (fun _ => d.dropTree t e) s)

/-- DIE_ROOT of a die as the journal gives it once the epoch's pages have been verified (R216): 48 bytes of 0xFF and a LOST_MASK bit where
they fail. -/
def rebuiltRoot (die : Nat) (ok : Bool) (p : PendRoot) : PendRoot :=
  if ok then { p with roots := lset p.roots die (some (p.dieVal.getD die (zeros 48))), rebuilt := p.rebuilt ||| 2 ^ die }
  else { p with roots := lset p.roots die (some (List.replicate 48 0xFF)), lost := p.lost ||| 2 ^ die }

/-- The Crown rebuilds from the journal the root of a die that is not in service, or that it has discarded (R193, R216). -/
def dieRootRebuild (die t e : Nat) (ok : Bool) (s : State) : State :=
  match (getLedger s t).pend.find? (·.epoch = e) with
  | none => s
  | some p =>
    if p.host ∨ (p.roots.getD die none).isSome ∨ ((getDie s die).live ∧ !p.discarded.testBit die) then s else
    let s1 := setRoot t e die (rebuiltRoot die ok) s
    finalise 64 t (if ok then s1 else recEvent 0x0405 (leBytes 2 t ++ leBytes 6 e) s1)

/-- The oldest epoch of a tenant that awaits a root from the host (R210, R211). -/
def awaiting (l : Ledger) : Option PendRoot := l.pend.find? fun p => p.host && !p.fallback

/-- Replaces the pending epoch of the same number. -/
def putPend (q : PendRoot) (l : Ledger) : Ledger := { l with pend := l.pend.map fun p => if p.epoch = q.epoch then q else p }

/-- DEADLINE_S after the close of the oldest epoch that awaits a host root, the Crown builds its roots from the journal as under R216 (R213). -/
def hostDeadline (t : Nat) (ok : Bool) (s : State) : State :=
  let l := getLedger s t
  match awaiting l with
  | none => s
  | some p =>
    if p.closedAt + l.deadline * 1000000000 ≤ s.time.now then
      let q0 := { p with fallback := true, host := false, sub := none, roots := p.dieVal.map some }
      let q := (List.range 8).foldl (fun q d => if p.counts.getD d 0 = 0 then q else rebuiltRoot d ok q) q0
      let s1 := recEvent 0x0404 (leBytes 2 t ++ leBytes 6 p.epoch)
        (modLedger t (fun l => { putPend q l with lapsed := p.sub.isSome || l.lapsed }) s)
      finalise 64 t (if ok then s1 else recEvent 0x0405 (leBytes 2 t ++ leBytes 6 p.epoch) s1)
    else s

/-! ## The journal store (R214, R215, R221) -/

/-- The next page to be written to the store: the oldest closed one that is not there. -/
def nextStorePage (s : State) : Option JPage := s.pages.find? fun p => p.closed && !p.store

/-- Its place in the store is free: no page lies there, or every root of that page's epoch is final. -/
def storePlaceFree (s : State) (p : JPage) : Bool :=
  s.pages.all fun q => !(q.store && q.no % 2 ^ s.jsLog2 = p.no % 2 ^ s.jsLog2) || !epochOpen s q.epoch

/-- One page is written to the journal store, or its write fails (R214, R215, R221). An epoch that loses a page of the store is no longer
readable (R215). -/
def journalPageWrite (ok : Bool) (s : State) : State :=
  match nextStorePage s with
  | none => s
  | some p =>
    if !s.jsActive ∨ busOff s 0 ∨ !storePlaceFree s p then s
    else if !ok then { s with storeFault := true, storeStall := true }
    else
      let s1 := emit (.write 0 (s.jsBase + p.no % 2 ^ s.jsLog2 * 4608) p.bytes) s
      let gone := (s1.pages.filter fun q => q.store && q.no % 2 ^ s.jsLog2 = p.no % 2 ^ s.jsLog2).map (·.epoch)
      settle { s1 with
        storeStall := false
        pages := (s1.pages.filter fun q => !gone.contains q.epoch).map
          (fun (q : JPage) => if q.no = p.no then { q with store := true, sram := false } else q) }

/-- The stall of a failed store write ends once Bus Master Enable and the link are back (R221). -/
def storeRecovers (s : State) : State := if busOff s 0 then s else { s with storeStall := false }

/-- A write of LDG_JS_CFG (R221). -/
def jsConfig (v : Nat) (s : State) : State :=
  if s.jsActive then s else
  let n := bits v 0 5
  if bits v 8 1 = 1 then
    if 10 ≤ n ∧ n ≤ 24 ∧ s.jsBase % 4096 = 0 then { s with jsLog2 := n, jsActive := true } else { s with jsBad := true }
  else { s with jsLog2 := n }

/-! ## Checkpoints (R217 to R219) -/

/-- A ledger's row of a checkpoint. -/
def ckptRow (t : Nat) (l : Ledger) : CkptRow := { tenant := t, nextSeq := l.nextSeq, chain := l.sChain, epoch := l.sEpoch, lastSeq := l.sSeq }

/-- A checkpoint of the ledgers as they stand. -/
def makeCkpt (clean : Bool) (s : State) : Ckpt :=
  { clean := clean, rows := s.ledgers.map fun l => ckptRow l.1 l.2, pkg := ckptRow 0xFFFF s.pkg, signed := s.time.signedTo }

/-- Requests the write of a checkpoint; in BLANK and TEST none is written (R217, R505). -/
def requestCkpt (clean : Bool) (s : State) : State :=
  if imageless s then { s with ckptDirty := false } else { s with ckptReq := some (makeCkpt clean s) }

/-- No checkpoint has been completed for 60 s: appends stop (R217). -/
def ckptOver (s : State) : State :=
  if !imageless s ∧ acquired s ∧ s.ckptAt + 60000000000 ≤ s.time.now then { s with ckptOverdue := true } else s

/-- Every record is covered by a signed batch (R218). -/
def allCovered (s : State) : Bool :=
  s.signQ = [] && (((0xFFFF, s.pkg) :: s.ledgers).all fun l => l.2.pend = [] && l.2.uncovered = [] && l.2.closing = [] && l.2.sChain = l.2.chain)
    && (s.ledgers.all fun l => l.2.nextSeq = l.2.lastSeq + 1) && s.pkgFinal = []

/-- The DISCONTINUITY records prepared at start-up are written when acquisition completes, before any leaf (R219). -/
def writeDiscs (s : State) : State :=
  let e := s.time.epoch - 1
  let s1 := s.ledgers.foldl (fun s l => match l.2.disc with
    | some (a, z, c) =>
      let r := discRecord l.1 e (getLedger s l.1) a z c
      chainRecord r (modLedger l.1 (fun x => { x with disc := none, gaps := x.gaps ++ [(a, z)] }) s)
    | none => s) s
  { s1 with ckptAt := if s.ledgers.any (fun l => l.2.disc.isSome) then s1.time.now else s1.ckptAt, lining := { s1.lining with crownFault := false } }

/-! ## LEDGER rings' leaf messages (R202) -/

/-- A ring with LEAVES sends a message at most once every 100 µs while LEAF records arrive. -/
def leafMessage (i : Nat) (s : State) : State :=
  match s.lrings[i]? with
  | none => s
  | some r =>
    if r.leafDue ∧ r.leafMsgAt + 100000 ≤ s.time.now then
      let s1 := { s with lrings := lset s.lrings i { r with leafDue := false, leafMsgAt := s.time.now } }
      if r.vector = 0xFF then s1 else signal r.owner r.vector s1
    else s

/-! ## The commands -/

/-- CHECKPOINT_OVERDUE (R217). -/
def execCheckpointOverdue (t : Nat) (s : State) : Host.Outcome State Fault Refusal := .next (ckptOver (tick t s))

/-- LEDGER_LEAF_MESSAGE (R202). -/
def execLedgerLeafMessage (t ring : Nat) (s : State) : Host.Outcome State Fault Refusal := .next (leafMessage ring (tick t s))

/-- LDG_JS_ENABLE (R221). -/
def execLdgJsEnable (t value : Nat) (s : State) : Host.Outcome State Fault Refusal :=
  let s1 := tick t s
  .next (if windowOpen s1 0 false then jsConfig value s1 else s1)

end Sys2Proof.Machine
end

