-- ==== Sys2Proof/Machine/LedgerCmds.lean ====
section
/-! DEFINITION. The ledger commands: rings, LDG_CONFIGURE, LDG_READ, LEDGER_PROOF, host roots and LDG_QUIESCE (R197, R201, R205 to R213, R218). -/

namespace Sys2Proof.Machine

/-! ## Reading the journal back (R214, R215) -/

/-- Pages of an epoch that lie in the journal store only. -/
def storeOnly (s : State) (e : Nat) : List JPage := s.pages.filter fun p => p.epoch = e ∧ !p.sram

/-- The running digest over the closed pages of an epoch: a page in SRAM as it stands, a page of the store as it was read back. -/
def foldPages : List JPage → Bytes → Bytes → Bytes
  | [], _, pd => pd
  | p :: ps, src, pd =>
    if p.sram then foldPages ps src (digest384 ([9] ++ pd ++ p.bytes))
    else foldPages ps (src.drop 4608) (digest384 ([9] ++ pd ++ src.take 4608))

/-- The pages of an epoch verify against the epoch index (R214). -/
def verifyEpoch (s : State) (e : Nat) (src : Bytes) : Bool :=
  match s.epochIdx.find? (·.epoch = e) with
  | none => (storeOnly s e).isEmpty
  | some i =>
    let want := match s.epochIdx.find? (fun j => i.first < j.first) with
      | some j => j.pd
      | none => s.pd
    foldPages (s.pages.filter fun p => p.epoch = e ∧ p.closed) src i.pd = want

/-- A job reads the store's pages of the given epochs back before it goes on; `tmp` is 1 once it has. -/
def readBack (id : Nat) (epochs : List Nat) (s : State) : Option State :=
  let n := ((epochs.map fun e => (storeOnly s e).length).sum) * 4608
  if n = 0 ∨ (getJob s id).tmp = 1 then none
  else some (modJob id (fun x => { x with phase := .source, srcLen := n, tmp := 1 }) s)

/-- The first of the given epochs whose store content fails verification, the content of each taken in turn. -/
def badEpoch (s : State) : List Nat → Bytes → Option Nat
  | [], _ => none
  | e :: es, src =>
    let n := (storeOnly s e).length * 4608
    if n = 0 then badEpoch s es src
    else if verifyEpoch s e src then badEpoch s es (src.drop n) else some e

/-- Finishes a job whose read-back failed verification; an event is recorded (R209, R214). -/
def failStore (id e : Nat) (s : State) : State := finishJob id stInput 0x33 [] [] (recEvent 0x0402 (leBytes 6 e ++ zeros 2) s)

/-- The journal entry of a sequence number, while it can be read. -/
def entryOf (s : State) (t seq : Nat) : Option JEntry := (readable s).find? fun e => e.tenant = t ∧ e.seq = seq

/-- A sequence number lies in a declared or prepared discontinuity range (R219). -/
def inGap (l : Ledger) (seq : Nat) : Bool :=
  l.gaps.any (fun g => g.1 ≤ seq && seq ≤ g.2) || (match l.disc with
    | some (a, z, _) => a ≤ seq && seq ≤ z
    | none => false)

/-- The epoch of an entry is in the epoch index, or is the current one (R204). -/
def indexed (s : State) (e : Nat) : Bool := e = s.time.epoch || s.epochIdx.any (·.epoch = e) || s.pages.any (fun p => p.epoch = e && !p.closed)

/-- INFO for a sequence number that has no readable entry (R209). -/
def seqFail (s : State) (t seq : Nat) : List Fail :=
  let l := getLedger s t
  if seq = 0 ∨ l.nextSeq ≤ seq then [⟨stInput, 0x30⟩]
  else if inGap l seq then [⟨stInput, 0x32⟩]
  else match entryOf s t seq with
    | none => [⟨stInput, 0x31⟩]
    | some e => failIf (!indexed s e.epoch) stInput 0x31 ++ failIf (l.lostRoots.contains (e.epoch, e.die)) stInput 0x32

/-! ## Rings (R201) -/

/-- Rings of a scope. -/
def scopeRings (s : State) (scope t : Nat) : List LRing := s.lrings.filter fun r => r.scope = scope ∧ (scope = 1 ∨ r.tenant = t)

/-- SCOPE: a value above 1 (R9), or 1 on a VF (R209). -/
def scopeFails (x : Job) (scope off : Nat) : List Fail := failIf (1 < scope) stInput off ++ failIf (scope = 1 && x.fn != 0) stInput 0x50

/-- The checks of LDG_RING_CREATE. -/
def lringOwn (s : State) (x : Job) : List Fail :=
  let v := x.d.f 34 1
  scopeFails x (x.d.f 32 1) 32 ++ failIf (x.d.f 40 8 % 4096 ≠ 0 || x.d.f 48 8 % 64 ≠ 0) stInput 0x52
    ++ failIf (!(12 ≤ x.d.f 33 1 && x.d.f 33 1 ≤ 24) || !(v = 0xFF || v < (getFn s x.fn).g.vectors)) stInput 0x53
    ++ failIf (4 ≤ (scopeRings s (x.d.f 32 1) x.tenant).length) stQuota 1

/-- The lowest free index of a scope. -/
def freeIdx (l : List LRing) : Nat := ((List.range 4).find? fun i => !(l.any (·.idx = i))).getD 0

/-- Retained records of a ring's scope, in chain order (REPLAY). -/
def retained (s : State) (r : LRing) : List Record := s.rootStore.filter (delivers r)

/-- LDG_RING_CREATE (R201). -/
def lringGo (id : Nat) (s : State) : State :=
  let x := getJob s id
  let scope := x.d.f 32 1
  let i := freeIdx (scopeRings s scope x.tenant)
  let r : LRing := { owner := x.fn, scope := scope, tenant := x.tenant, idx := i, log2 := x.d.f 33 1, vector := x.d.f 34 1, opts := x.d.f 35 1
                     base := x.d.f 40 8, index := x.d.f 48 8 }
  let y := if (x.d.f 35 1).testBit 2 then (retained s r).foldl (fun (a : LRing × State) rec => deliverOne rec a.1 a.2) (r, s) else (r, s)
  okJob id ([byte i] ++ zeros 7) [] { y.2 with lrings := y.2.lrings ++ [y.1] }

/-- LDG_RING_CREATE (R201). -/
def lringCreateSem : OpSem where
  pfOnly := anyFn
  resv d := match reservedBad d (span 4 31) with
    | some i => some i
    | none => if d.f 35 1 / 8 ≠ 0 then some 35 else firstNonzero d.bytes (span 36 39 ++ span 56 63)
  fenced := anyFn
  keyed := anyFn
  src := false
  len _ _ := []
  own := lringOwn
  go := lringGo
  fin _ s := s

/-- The ring that LDG_RING_DESTROY names: of the tenant, else of the package, owned by the submitting function. -/
def namedRing (s : State) (x : Job) : Option LRing :=
  (s.lrings.filter fun r => r.owner = x.fn ∧ r.idx = x.d.f 32 1 ∧ (r.scope = 1 ∨ r.tenant = x.tenant)).head?

/-- LDG_RING_DESTROY (R201). -/
def lringDestroyGo (id : Nat) (s : State) : State :=
  match namedRing s (getJob s id) with
  | none => s
  | some r => okJob id [] [] { s with lrings := s.lrings.filter fun y => !(y.scope = r.scope ∧ y.tenant = r.tenant ∧ y.idx = r.idx) }

/-- LDG_RING_DESTROY (R201). -/
def lringDestroySem : OpSem where
  pfOnly := anyFn
  resv d := reservedBad d (span 4 31 ++ span 33 63)
  fenced := anyFn
  keyed := anyFn
  src := false
  len _ _ := []
  own s x := failIf ((namedRing s x).isNone) stInput 0x51
  go := lringDestroyGo
  fin _ s := s

/-! ## LDG_CONFIGURE (R197) -/

/-- The checks on KEY. -/
def ledgerKeyFails (s : State) (x : Job) : List Fail :=
  let h := x.d.f 36 4
  let k := slotOf (bankAt s (targetOf x.d.targetField x.epoch)) h
  if h = 0 then [] else
  staleFail k h ++ failIf (!(k.inUse && k.tenant = x.tenant)) stUsage 6
    ++ failIf (!(k.wide && 1 ≤ k.alg && k.alg ≤ 5)) stUsage 3 ++ failIf (k.purpose ≠ 0x13) stUsage 2

/-- The checks of LDG_CONFIGURE. -/
def ldgConfigOwn (s : State) (x : Job) : List Fail :=
  let m := x.d.f 32 1
  scopeFails x (x.d.f 33 1) 33 ++ failIf (m.testBit 1 && !(1 ≤ x.d.f 34 1 && x.d.f 34 1 ≤ 64)) stInput 0x53
    ++ failIf (m.testBit 2 && (x.d.f 33 1 = 1 || !(1 ≤ x.d.f 40 2 && x.d.f 40 2 ≤ 3600))) stInput 0x53
    ++ (if m.testBit 0 then ledgerKeyFails s x else [])

/-- LDG_CONFIGURE accepted. -/
def ldgConfigGo (id : Nat) (s : State) : State :=
  let x := getJob s id
  acceptFenced id (targetOf x.d.targetField x.epoch)
    [.ledgerCfg (if x.d.f 33 1 = 1 then 0xFFFF else x.tenant) (x.d.f 32 1) (x.d.f 36 4) (x.d.f 34 1) (x.d.f 40 2)] s

/-- LDG_CONFIGURE (R197). -/
def ldgConfigSem : OpSem where
  pfOnly := anyFn
  resv d := match reservedBad d (span 4 31) with
    | some i => some i
    | none => if d.f 32 1 / 8 ≠ 0 then some 32 else firstNonzero d.bytes (35 :: span 42 55)
  fenced := pfOnly
  keyed := anyFn
  src := false
  len _ _ := []
  own := ldgConfigOwn
  go := ldgConfigGo
  fin _ s := s

/-! ## LDG_READ (R205) -/

/-- Items of a capacity: whole items until the next does not fit. -/
def fitItems : List Bytes → Nat → List Bytes
  | [], _ => []
  | b :: bs, room => if b.length ≤ room then b :: fitItems bs (room - b.length) else []

/-- Consecutive readable entries of a tenant from a sequence number. -/
def entriesFrom (s : State) (t : Nat) : Nat → Nat → List JEntry
  | 0, _ => []
  | n + 1, seq =>
    match entryOf s t seq with
    | some e => e :: entriesFrom s t n (seq + 1)
    | none => []

/-- Records that LDG_READ MODE 1 gives: of a tenant its chained and BATCH records, of the package its own. -/
def recordsFrom (s : State) (t first : Nat) : List Record := (s.rootStore.filter (·.tenant = t)).dropWhile (·.epoch < first)

/-- The ledger that LDG_READ reads. -/
def readTenant (x : Job) : Nat := if x.d.f 33 1 = 1 then 0xFFFF else x.tenant

/-- Entries that LDG_READ MODE 0 may write: no more than fit. -/
def readEntries (s : State) (x : Job) : List JEntry := entriesFrom s x.tenant (min (x.d.f 48 4) (x.d.aux / 144 + 1)) (x.d.f 40 8)

/-- Items that LDG_READ selects. -/
def readItems (s : State) (x : Job) : List Bytes :=
  if x.d.f 32 1 = 0 then (readEntries s x).map JEntry.bytes
  else ((recordsFrom s (readTenant x) (x.d.f 40 8)).take (x.d.f 48 4)).map (·.bytes)

/-- The checks of LDG_READ. -/
def ldgReadOwn (s : State) (x : Job) : List Fail :=
  let n := x.d.f 48 4
  scopeFails x (x.d.f 33 1) 33
    ++ failIf (1 < x.d.f 32 1 || (x.d.f 33 1 = 1 && x.d.f 32 1 = 0) || !(1 ≤ n && n ≤ 65536)) stInput 0x53
    ++ (if x.d.f 32 1 = 0 then seqFail s x.tenant (x.d.f 40 8)
        else failIf (x.d.f 40 8 < (ledgerBy s (readTenant x)).evicted) stInput 0x31)
    ++ failIf (readItems s x ≠ [] && fitItems (readItems s x) x.d.aux = []) stLength 0

/-- Epochs of the entries that LDG_READ selects, each once. -/
def readEpochs (s : State) (x : Job) : List Nat :=
  if x.d.f 32 1 = 0 then sortNat ((readEntries s x).map (·.epoch)) else []

/-- LDG_READ: reads the store back where it must, verifies, and writes whole items. -/
def ldgReadGo (id : Nat) (s : State) : State :=
  let x := getJob s id
  match readBack id (readEpochs s x) s with
  | some s1 => s1
  | none =>
    match (if x.tmp = 1 then badEpoch s (readEpochs s x) x.src else none) with
    | some e => failStore id e s
    | none =>
      let items := fitItems (readItems s x) x.d.aux
      okJob id (leBytes 4 items.length ++ zeros 4) items.flatten s

/-- LDG_READ (R205). -/
def ldgReadSem : OpSem where
  pfOnly := anyFn
  resv d := reservedBad d (span 4 19 ++ span 34 39 ++ span 52 63)
  fenced := anyFn
  keyed := anyFn
  src := false
  len _ _ := []
  own := ldgReadOwn
  go := ldgReadGo
  fin _ s := s

/-! ## LEDGER_PROOF (R206, R207) -/

/-- The ROOT record of an epoch of a tenant, while the root store holds it. -/
def rootOf (s : State) (t e : Nat) : Option Record := s.rootStore.find? fun r => r.typ = 1 ∧ r.tenant = t ∧ r.epoch = e

/-- The chained records of a tenant from the ROOT record of an epoch on, in chain order. -/
def chainFrom (s : State) (t e : Nat) : List Record :=
  (s.rootStore.filter fun r => r.tenant = t ∧ (r.typ = 1 ∨ r.typ = 4)).dropWhile fun r => !(r.typ = 1 && r.epoch = e)

/-- How many records after the first of a chain a BATCH record reaches: the one whose CHAIN it carries; none where it does not cover the
first one, which is so when it ends before it or has fewer RECORDS. -/
def coverEnd (chain : List Record) (b : Record) : Option Nat := (chain.findIdx? (·.chain = b.chain)).filter (· < field b.bytes 28 2)

/-- The BATCH record that covers the ROOT record of an epoch of a tenant, and the number of chained records after it that it covers too (R206). -/
def batchOf (s : State) (t e : Nat) : Option (Record × Nat) :=
  (s.rootStore.filter fun r => r.typ = 2 ∧ r.tenant = t).findSome? fun b => (coverEnd (chainFrom s t e) b).map fun k => (b, k)

/-- Chained records after an epoch up to the end of its batch. -/
def forward (s : State) (t e k : Nat) : List Record := ((chainFrom s t e).drop 1).take k

/-- A FWD entry. -/
def fwdEntry (r : Record) : Bytes := [if r.typ = 4 then 4 else 3] ++ zeros 7 ++ fit 48 r.body

/-- The proof of R207. -/
def proofBytes (s : State) (t seq : Nat) (x : JEntry) (root : Record) : Bytes :=
  let es := (readable s).filter fun y => y.tenant = t ∧ y.die = x.die ∧ y.epoch = x.epoch
  let hs := es.map fun y => y.leaf.hash
  let i := (es.findIdx? (·.seq = seq)).getD 0
  let path := proofPath i hs
  let batch := batchOf s t x.epoch
  let fwd := match batch with
    | some b => forward s t x.epoch b.2
    | none => []
  [1, byte x.die, byte path.length, byte fwd.length] ++ leBytes 2 t ++ [byte (bit batch.isSome 0), 0] ++ leBytes 8 seq ++ leBytes 6 x.epoch ++ zeros 2
    ++ leBytes 8 i ++ leBytes 8 hs.length ++ fit 64 x.leaf.header ++ x.leaf.hash ++ root.bytes ++ path.flatten ++ (fwd.map fwdEntry).flatten
    ++ (match batch with
        | some b => b.1.bytes
        | none => [])

/-- A host-built root differs from the subtree that the journal gives (R213). -/
def hostDiffers (s : State) (t : Nat) (x : JEntry) (root : Record) : Bool :=
  (field root.bytes 6 1).testBit 0 && mth (dieLeaves s t x.die x.epoch) ≠ slice root.bytes (112 + 48 * x.die) 48

/-- LEDGER_PROOF goes on: it waits for the ROOT record, reads the store back where it must, and writes the proof. -/
def proofGo (id : Nat) (s : State) : State :=
  let x := getJob s id
  let seq := x.d.f 32 8
  match entryOf s x.tenant seq with
  | none => finishJob id stInput 0x31 [] [] s
  | some e =>
    match rootOf s x.tenant e.epoch with
    | none =>
      if e.epoch = s.time.epoch ∨ (getLedger s x.tenant).pend.any (·.epoch = e.epoch) then modJob id (fun y => { y with phase := .wait 2 }) s
      else finishJob id stInput 0x31 [] [] s
    | some root =>
      if (field root.bytes 29 1).testBit e.die then finishJob id stInput 0x32 [] [] s else
      match readBack id [e.epoch] s with
      | some s1 => s1
      | none =>
        match (if x.tmp = 1 then badEpoch s [e.epoch] x.src else none) with
        | some b => failStore id b s
        | none =>
          if hostDiffers s x.tenant e root then
            finishJob id stInput 0x34 [] [] (recEvent 0x0403 (leBytes 2 x.tenant ++ leBytes 6 e.epoch) s)
          else
            let p := proofBytes s x.tenant seq e root
            okJob id (leBytes 4 p.length ++ zeros 4) p s

/-- LEDGER_PROOF (R206). -/
def proofSem : OpSem where
  pfOnly := anyFn
  resv d := reservedBad d (span 4 19 ++ span 40 63)
  fenced := anyFn
  keyed := anyFn
  src := false
  len x _ := failIf (x.d.aux < 6496) stLength 0
  own s x := failIf x.d.indirect stInput 1 ++ seqFail s x.tenant (x.d.f 32 8)
  go := proofGo
  fin _ s := s

/-- Proofs that wait go on once their epoch's ROOT record is final (R206). -/
def settleProofs (s : State) : State :=
  ((s.jobs.filter fun j => j.2.phase = .wait 2 ∧ j.2.d.op = 0x40).map (·.1)).foldl (fun s j => proofGo j s) s

/-! ## Host roots (R210 to R212) -/

/-- The epoch of a tenant has its final root. -/
def rootFinal (s : State) (t e : Nat) : Bool :=
  let l := getLedger s t
  !(l.pend.any (·.epoch = e)) && ((rootOf s t e).isSome || (e ≤ l.prevEpoch && e < s.time.epoch))

/-- The checks of LDG_ROOT_SUBMIT at admission. -/
def rootSubmitOwn (s : State) (x : Job) : List Fail :=
  let e := x.d.f 32 6
  failIf (ledgerPolicy s x.tenant ≠ 3) stInput 0x45 ++ failIf (rootFinal s x.tenant e) stInput 0x43
    ++ (match awaiting (getLedger s x.tenant) with
        | some p => failIf (p.epoch ≠ e) stInput 0x42 ++ failIf (x.d.aux < 8 * cdiv p.counts.sum 64) stLength 0
        | none => [⟨stInput, 0x42⟩])

/-- Picks m of the given numbers, each with a word of the function's DRBG on the Crown (R211, R231). -/
def pickSome (fn : Nat) : Nat → List Nat → State → List Nat × State
  | 0, _, s => ([], s)
  | m + 1, l, s =>
    if l = [] then ([], s) else
    let w := fnGen 0 fn 8 [] s
    let i := leNat w.1 % l.length
    let r := pickSome fn m (l.take i ++ l.drop (i + 1)) w.2
    (l.getD i 0 :: r.1, r.2)

/-- LDG_ROOT_SUBMIT once its source is held: the counts are compared and a challenge is drawn from the function's DRBG on the Crown, which may
have to wait for a reseed (R211, R231, R234). -/
def rootSubmitGo (id : Nat) (s : State) : State :=
  let x := getJob s id
  match firstFail (rootSubmitOwn s x), awaiting (getLedger s x.tenant) with
  | some f, _ => failJob id f s
  | none, none => s
  | none, some p =>
    if ((List.range 8).map fun d => field x.src (8 * d) 8) ≠ p.counts then finishJob id stInput 0x40 [] [] s else
    match fnSeeded 0 x.fn false s with
    | none => awaitEntropy id s
    | some s0 =>
    let seqs := ((readable s).filter fun y => y.tenant = x.tenant ∧ y.epoch = p.epoch).map (·.seq)
    let c := pickSome x.fn (cdiv p.counts.sum 64) seqs s0
    let chal := sortNat c.1
    let sub : HostSub := { roots := (List.range 8).map (fun d => slice x.src (64 + 48 * d) 48), chal := chal }
    okJob id (leBytes 4 chal.length ++ zeros 4) (chal.map (leBytes 8)).flatten
      (modLedger x.tenant (fun l => { putPend { p with sub := some sub } l with lapsed := false }) c.2)

/-- LDG_ROOT_SUBMIT (R211). -/
def rootSubmitSem : OpSem where
  pfOnly := anyFn
  resv d := reservedBad d (offHandle ++ span 38 63)
  fenced := anyFn
  keyed := anyFn
  src := true
  len _ n := failIf (n ≠ 448) stLength 0
  own := rootSubmitOwn
  go := rootSubmitGo
  fin _ s := s

/-- The checks of LDG_ROOT_PROVE at admission. -/
def rootProveOwn (s : State) (x : Job) : List Fail :=
  let l := getLedger s x.tenant
  let a := x.d.f 32 4
  let n := x.d.f 36 4
  failIf (ledgerPolicy s x.tenant ≠ 3) stInput 0x45
    ++ (match (awaiting l).bind (·.sub) with
        | some c => failIf (n = 0 || c.chal.length < a + n) stInput 0x44
        | none => [⟨stInput, if l.lapsed then 0x43 else 0x44⟩])

/-- Length of the next entry of a LDG_ROOT_PROVE source. -/
def proveLen (b : Bytes) : Nat := 16 + 48 * field b 8 1

/-- The entries of a LDG_ROOT_PROVE source: SEQUENCE, and the sibling hashes; none where the source is not n whole entries. -/
def proveEntries : Nat → Bytes → Option (List (Nat × List Bytes))
  | 0, b => if b = [] then some [] else none
  | n + 1, b =>
    if b.length < 16 ∨ b.length < proveLen b then none
    else (proveEntries n (b.drop (proveLen b))).map fun r =>
      (field b 0 8, (List.range (field b 8 1)).map fun i => slice b (16 + 48 * i) 48) :: r

/-- One path is right: it leads from the journal's own leaf to the submitted root of its die (R212). -/
def pathOk (s : State) (t : Nat) (roots : List Bytes) (seq : Nat) (path : List Bytes) : Bool :=
  match entryOf s t seq with
  | none => false
  | some e =>
    let es := (readable s).filter fun y => y.tenant = t ∧ y.die = e.die ∧ y.epoch = e.epoch
    match es.findIdx? (·.seq = seq) with
    | none => false
    | some i => walkPath i (es.length - 1) e.leaf.hash path = some (roots.getD e.die [])

/-- LDG_ROOT_PROVE once its source is held (R212). -/
def rootProveGo (id : Nat) (s : State) : State :=
  let x := getJob s id
  let a := x.d.f 32 4
  let n := x.d.f 36 4
  match firstFail (rootProveOwn s x), awaiting (getLedger s x.tenant) with
  | some f, _ => failJob id f s
  | none, none => s
  | none, some p =>
    match p.sub, proveEntries n x.src with
    | none, _ => s
    | some _, none => finishJob id stLength 0 [] [] s
    | some c, some es =>
      let want := slice' c.chal a n
      if (es.map (·.1)) ≠ want ∨ !(es.all fun e => pathOk s x.tenant c.roots e.1 e.2) then
        finishJob id stInput 0x41 [] [] (modLedger x.tenant (putPend { p with sub := none }) s)
      else
        let done := want.foldl insertNat c.proven
        if done.length = c.chal.length then
          let q := { p with sub := some { c with proven := done }
                            roots := (List.range 8).map fun d => if p.counts.getD d 0 = 0 then some (zeros 48) else some (c.roots.getD d []) }
          settleProofs (finalise 64 x.tenant (okJob id [] [] (modLedger x.tenant (putPend q) s)))
        else okJob id [] [] (modLedger x.tenant (putPend { p with sub := some { c with proven := done } }) s)
where
  /-- A run of a list. -/
  slice' (l : List Nat) (a n : Nat) : List Nat := (l.drop a).take n

/-- LDG_ROOT_PROVE (R212). -/
def rootProveSem : OpSem where
  pfOnly := anyFn
  resv d := reservedBad d (offHandle ++ offAux ++ offDst ++ span 40 63)
  fenced := anyFn
  keyed := anyFn
  src := true
  len _ _ := []
  own := rootProveOwn
  go := rootProveGo
  fin _ s := s

/-! ## LDG_QUIESCE (R218) -/

/-- A scheduled draw's acceptance has its entry in the image and has not appended its commitment leaf (R218, R254). -/
def commitsDue (s : State) : Bool := s.jobs.any fun j => (j.2.d.op = 0x20 || j.2.d.op = 0x21) && j.2.phase = .sequenced && j.2.draw.any (·.sched)

/-- A waiting LDG_QUIESCE stops appends once no such acceptance is left. Once appends are stopped and a signed batch covers every record, a CLEAN checkpoint is written; in BLANK and TEST, where none is
written (R505), the waiting LDG_QUIESCE commands complete at once. -/
def quiescePoll (s : State) : State :=
  let ws := (s.jobs.filter fun j => j.2.phase = .wait 3).map (·.1)
  if ws = [] || (!s.quiesced && commitsDue s) then s else
  let s1 := { s with quiesced := true }
  if allCovered s1 && s1.ckptReq.isNone then
    if imageless s then ws.foldl (fun s j => okJob j [] [] s) s1 else requestCkpt true s1
  else s1

/-- LDG_QUIESCE: byte 32 = 1 stops appends as soon as it may and waits; byte 32 = 0 resumes them after the checkpoint write of R217. -/
def quiesceGo (id : Nat) (s : State) : State :=
  if (getJob s id).d.f 32 1 = 1 then quiescePoll (modJob id (fun x => { x with phase := .wait 3 }) s)
  else
    let s1 := { s with quiesced := false, ckptDirty := true }
    if imageless s then okJob id [] [] (requestCkpt false s1)
    else requestCkpt false (modJob id (fun x => { x with phase := .wait 4 }) s1)

/-- LDG_QUIESCE (R218). -/
def quiesceSem : OpSem where
  pfOnly := pfOnly
  resv d := reservedBad d (span 4 31 ++ span 33 63)
  fenced := anyFn
  keyed := anyFn
  src := false
  len _ _ := []
  own _ x := failIf (1 < x.d.f 32 1) stInput 32
  go := quiesceGo
  fin _ s := s

end Sys2Proof.Machine
end

