-- ==== Sys2Proof/Machine/Reckoner.lean ====
section
/-! DEFINITION. The Reckoner: its queue, lanes and preemption, validation, SIGN, VERIFY and ECDH, and the curve commands (chapter 08). -/

namespace Sys2Proof.Machine

/-! ## Validation (R274, R275) -/

/-- A point in its uncompressed encoding. -/
def pointOf (b : Bytes) (lp : Nat) : Nat × Nat := (beNat (slice b 1 lp), beNat (slice b (1 + lp) lp))

/-- Failed point checks of a short Weierstrass point (R275 orders 1 to 4). -/
def pointFails (c : Curve) (b : Bytes) : List (Nat × Nat) :=
  let q := pointOf b (fieldLen c)
  (if field b 0 1 = 4 then [] else [(1, 0xB0)]) ++ (if q.1 < c.p ∧ q.2 < c.p then [] else [(2, 0xB1)])
    ++ (if onCurve c q.1 q.2 then [] else [(3, 0xB2)]) ++ (if ptMul c 4 c.h (some q) = none then [(4, 0xB3)] else [])

/-- Failed checks of an Edwards point: y below p, x recovered, the order not small (R275 orders 2 to 4). -/
def edFails (alg : Nat) (b : Bytes) : List (Nat × Nat) :=
  let c := edOf alg
  if c.p ≤ edY c b then [(2, 0xB1)] else
  match edX c b with
  | none => [(3, 0xB2)]
  | some x => if edSmall c (x, edY c b) then [(4, 0xB3)] else []

/-- Failed checks of a public key in SRC (R275 orders 1 to 4 and 7). -/
def keyFails (alg : Nat) (curve key : Bytes) : List (Nat × Nat) :=
  match curveOf alg curve with
  | some c => pointFails c key
  | none =>
    if edAlg alg then edFails alg key else
    let k := key.length - 4
    let n := beNat (key.take k)
    let e := beNat (key.drop k)
    (if e < n then [] else [(2, 0xB1)])
      ++ (if n % 2 = 1 ∧ 2048 ≤ bitlen n ∧ bitlen n ≤ 8192 ∧ bitlen n % 64 = 0 ∧ e % 2 = 1 ∧ 3 ≤ e then [] else [(7, 0xB6)])

/-- Failed checks of the public half of a slot: those of R275 that are not for a key in SRC alone, which are orders 1 and 7. -/
def halfFails (k : KeySlot) (curve : Bytes) : List (Nat × Nat) := (keyFails k.alg curve k.pub).filter fun c => c.1 ≠ 1 ∧ c.1 ≠ 7

/-- Failed checks of a signature (R275 orders 2 to 5); the RSA modulus is given. -/
def sigFails (alg : Nat) (curve sig : Bytes) (rsaN : Nat) : List (Nat × Nat) :=
  match curveOf alg curve with
  | some c =>
    let r := beNat (sig.take (orderLen c))
    let v := beNat (sig.drop (orderLen c))
    (if r < c.n ∧ v < c.n then [] else [(2, 0xB1)]) ++ (if r ≠ 0 ∧ v ≠ 0 then [] else [(5, 0xB4)])
  | none =>
    if edAlg alg then
      let h := sig.length / 2
      edFails alg (sig.take h) ++ (if leNat (sig.drop h) < (edOf alg).L then [] else [(2, 0xB1)])
    else (if beNat sig < rsaN then [] else [(2, 0xB1)]) ++ (if beNat sig ≠ 0 then [] else [(5, 0xB4)])

/-- The truncated digest e as a number (R261). -/
def digestNum (n : Nat) (rep : Bytes) : Nat :=
  let w := 8 * rep.length
  if bitlen n < w then beNat rep / 2 ^ (w - bitlen n) else beNat rep

/-- Order 6 of R275: e mod n is 0. -/
def messageFails (alg : Nat) (curve rep : Bytes) : List (Nat × Nat) :=
  match curveOf alg curve with
  | some c => if digestNum c.n rep % c.n = 0 then [(6, 0xB5)] else []
  | none => []

/-- INFO of the first failing check in table order. -/
def firstCheck (l : List (Nat × Nat)) : Option Nat :=
  (l.foldl (fun (b : Option (Nat × Nat)) c => match b with
    | none => some c
    | some x => if c.1 < x.1 then some c else some x) none).map (·.2)

/-! ## What the three operations share -/

/-- The key of a wide-key job, when orders 1 to 3 of R273 let its lengths be known. -/
def usable (x : Job) : Option KeySlot :=
  match x.key with
  | some k => if x.d.handle ≠ 0 && genMatches k x.d.handle && k.inUse && k.tenant = x.tenant && k.wide then some k else none
  | none => none

/-- The key checks of R273, KEY_STALE first. -/
def wideKeyFails (x : Job) (algs purposes : List Nat) : List Fail :=
  let k := x.key.getD {}
  staleFail k x.d.handle ++ useFails k x.d.handle x.tenant ++ failIf (!(k.wide && algs.contains k.alg)) stUsage 3
    ++ failIf (!purposes.contains k.purpose) stUsage 2 ++ failIf (!(k.first ≤ x.epoch && x.epoch ≤ k.last)) stUsage 5

/-- Algorithms by operation (R260). -/
def signAlgs : List Nat := span 1 6 ++ span 0x20 0x2F
/-- Algorithms of ECDH. -/
def ecdhAlgs : List Nat := span 1 3 ++ span 0x20 0x2F

/-- HASH and SCHEME do not fit each other or the algorithm (R261). -/
def hashBad (alg hash scheme : Nat) : Bool := 3 < hash || 1 < scheme || (edAlg alg != (hash = 0)) || (scheme ≠ 0 && alg ≠ 6)

/-- The mode that a policy and HOST_SPLIT select: true is host-assisted; none is refused (R44). -/
def splitMode (pol : Nat) (hostSplit : Bool) : Option Bool :=
  if pol = 0 then (if hostSplit then none else some false)
  else if pol = 1 then some hostSplit
  else if pol = 2 then some !hostSplit
  else (if hostSplit then none else some true)

/-- The curve table that a job's algorithm names, with its block as the admission found it: tenant, table and block. -/
def tableOf (x : Job) : Option (Nat × Nat × Bytes) :=
  if !reckonerOp x.d.op then none else
  let alg := if x.d.handle = 0 then x.d.f 36 1 else (x.key.getD {}).alg
  if tableAlg alg then some (x.tenant, alg - 0x20, x.curve) else none

/-- A job of a lane whose table is named but not loaded (R285). -/
def tableMissing (x : Job) : Bool := (tableOf x).isSome && x.curve = []

/-- RSA modulus of a slot's public key. -/
def rsaModulus (k : KeySlot) : Nat := beNat (k.pub.take k.rsaLen)

/-! ## What a lane validates and loads (R259, R274, R276) -/

/-- Algorithm of a VERIFY: of the slot, or ALG. -/
def verifyAlg (x : Job) : Nat := if x.d.handle = 0 then x.d.f 36 1 else (x.key.getD {}).alg

/-- RSA modulus length of a VERIFY in bytes. -/
def verifyK (x : Job) : Nat := if x.d.handle = 0 then x.d.f 38 2 - 4 else (x.key.getD {}).rsaLen

/-- Public key, signature and representative of a VERIFY. Of an EdDSA message that is not prehashed it is the message itself, which RFC 8032
signs whole (R271). -/
def verifyParts (x : Job) : Bytes × Bytes × Bytes :=
  let kl := x.d.f 38 2
  let sl := x.d.f 40 2
  let m := x.src.drop (kl + sl)
  (if x.d.handle = 0 then x.src.take kl else (x.key.getD {}).pub, slice x.src kl sl
    , if x.d.f 35 1 = 1 ∨ edAlg (verifyAlg x) then m else representative (verifyAlg x) (x.d.f 32 1) m)

/-- Failed validation checks of a VERIFY. -/
def verifyChecks (x : Job) : List (Nat × Nat) :=
  let p := verifyParts x
  let alg := verifyAlg x
  (if x.d.handle = 0 then keyFails alg x.curve p.1 else halfFails (x.key.getD {}) x.curve)
    ++ sigFails alg x.curve p.2.1 (beNat (p.1.take (verifyK x))) ++ messageFails alg x.curve p.2.2

/-- Representative of a SIGN: the submitted one in host-assisted mode, else the digest of the message; EdDSA in hardware mode signs the message
itself as RFC 8032 defines (R268). -/
def signRep (x : Job) : Bytes :=
  if x.hostRun || edAlg (x.key.getD {}).alg then x.src else representative (x.key.getD {}).alg (x.d.f 32 1) x.src

/-- The failed checks of R275 of a job on its lane. -/
def laneChecks (x : Job) : List (Nat × Nat) :=
  let k := x.key.getD {}
  if x.d.op = 0x31 then verifyChecks x
  else if x.d.op = 0x30 then halfFails k x.curve ++ messageFails k.alg x.curve (signRep x)
  else if x.d.op = 0x32 then (match curveOf k.alg x.curve with
    | some c => pointFails c x.src
    | none => [])
  else []

/-- The job works with a private key on its lane: SIGN, ECDH, a time token, and the device's own signatures. -/
def secretJob (x : Job) : Bool := x.ring = ownRing || x.d.op = 0x30 || x.d.op = 0x32 || (x.d.op = 0x50 && x.key.isSome)

/-- The key register of a context: the key is loaded only when the job has passed its validation (R259, R274). -/
def loadedKey (x : Job) : Bytes := if secretJob x && (firstCheck (laneChecks x)).isNone then (x.key.getD {}).mat else []

/-- Bytes of blinding values of a job, drawn by one request: for a curve the 64 bits of r, the split scalar and the projective coordinate, and
for ECDH the point R as well; for RSA r1, r2 and the base u (R276; DESIGN CHOICE of their number, log entry 76). -/
def blindLen (x : Job) : Nat :=
  let k := x.key.getD {}
  match curveOf k.alg x.curve with
  | some c => 8 + orderLen c + fieldLen c + (if x.d.op = 0x32 then orderLen c else 0)
  | none => if edAlg k.alg then 8 + 2 * (edOf k.alg).bytes else 16 + k.rsaLen

/-- The signature takes a nonce or a salt from NONCE: ECDSA and PSS (R269). -/
def hedged (alg scheme : Nat) : Bool := !edAlg alg && (alg ≠ 6 || scheme = 1)

/-- The job's next start needs a seed for NONCE or BLIND of its die that is not there: it waits (R234). -/
def laneShort (s : State) (x : Job) : Bool :=
  secretJob x && (internalShort s x.die 2 || (x.d.op ≠ 0x32 && hedged (x.key.getD {}).alg (x.d.f 33 1) && internalShort s x.die 1))

/-! ## Queue and lanes (R266, R280, R281) -/

/-- Class of a Reckoner job: CLASS of SIGN, VERIFY and ECDH; 3 for the device's own signatures and beacons; 2 for the Crown's other work (R265, R280). -/
def rclass (x : Job) : Nat := if x.ring = ownRing then 3 else if reckonerOp x.d.op then x.d.f 34 1 else if x.d.op = 0x50 ∨ x.d.op = 0x90 ∨ x.d.op = 0x20 ∨ x.d.op = 0x21 then 3 else 2

/-- A lane may take a job. -/
def laneIdle (u : Unit) : Bool := !u.retired && u.job = none

/-- The context of a lane's running job is wiped, and the suspended job resumes (R279, R281). -/
def Unit.resume (u : Unit) : Unit :=
  { u with job := u.susp, key := u.suspKey, blind := u.suspBlind, susp := none, suspKey := [], suspBlind := [] }

/-- A job leaves a lane, whose context it held is wiped. -/
def Unit.without (u : Unit) (id : Nat) : Unit :=
  if u.job = some id then u.resume else if u.susp = some id then { u with susp := none, suspKey := [], suspBlind := [] } else u

/-- The oldest job of the highest class in the queue of a die, jobs whose table is being fetched passed over (R280). -/
def pickRq (s : State) (die lane : Nat) : Option Nat :=
  ((getDie s die).rq.filter fun j => !(getDie s die).fetching.contains j && !refetching s die j && !enginesWait s (getJob s j).fn && !laneShort s (getJob s j) && (getJob s j).bar ≠ some lane).foldl (fun best j => match best with
    | none => some j
    | some b => if rclass (getJob s b) < rclass (getJob s j) then some j else some b) none

/-- Changes one lane. -/
def modLane (die lane : Nat) (f : Unit → Unit) (s : State) : State :=
  modDie die (fun d => { d with lanes := lset d.lanes lane (f (d.lanes.getD lane {})) }) s

/-- A job enters a context of a lane: fresh blinding values from BLIND, and its key once it has passed validation (R259, R274, R276). -/
def enterLane (die lane id : Nat) (f : Unit → Unit) (s : State) : State :=
  let x := getJob s id
  let b := if secretJob x then internalGen die 2 (blindLen x) [] s else ([], s)
  modJob id (fun y => { y with lane := lane, entWait := none })
    (modLane die lane (fun u => { f u with job := some id, key := loadedKey x, blind := b.1 }) (modDie die (fun d => { d with rq := d.rq.filter (· ≠ id) }) b.2))

/-- Puts a job on a lane. -/
def runOn (die lane id : Nat) (s : State) : State := enterLane die lane id (fun u => u) (countOn die 8 (getJob s id).fn 1 s)

/-- Jobs of a queue that have to wait for entropy are noted, with the instant from which they wait (R234). -/
def noteShort (die : Nat) (s : State) : State :=
  (getDie s die).rq.foldl (fun s j => modJob j (fun y => { y with entWait := if laneShort s y then some (y.entWait.getD s.time.now) else none }) s) s

/-- Starts what the idle lanes of a die may start; no engine starts a job in HOLD (R280, R457). -/
def startLanes (die : Nat) (s : State) : State :=
  if s.hold || (getDie s die).halted then s else
  (List.range (getDie s die).lanes.length).foldl (fun s l =>
    if laneIdle ((getDie s die).lanes.getD l {}) && !stalled (getDie s die) 1 l then
      match pickRq s die l with
      | some j => runOn die l j s
      | none => s
    else s) (noteShort die s)

/-- A job enters the Reckoner queue of its die; one whose table is not cached waits for it (R266). A die without a healthy lane
completes it with FAULT_RETRY (R47); the device's own signatures wait. -/
def queueLane (id : Nat) (s : State) : State :=
  let x := getJob s id
  if !healthy (getDie s x.die) 1 0 x.bar ∧ x.ring ≠ ownRing then collect id stRetry 0 [] [] none s else
  let d := getDie s x.die
  let miss := match tableOf x with
    | some t => !d.curveCache.contains t
    | none => false
  startLanes x.die (modDie x.die (fun d => { d with
    rq := d.rq ++ [id], fetching := if miss then d.fetching ++ [id] else d.fetching
    curveCache := match tableOf x with
      | some t => if miss then d.curveCache else t :: d.curveCache.filter (· ≠ t)
      | none => d.curveCache }) s)

/-- A curve table reaches the cache of a die; the least recently used of 256 leaves (R266). -/
def curveFetched (die tenant table : Nat) (s : State) : State :=
  let d := getDie s die
  let hit (j : Nat) : Bool := (tableOf (getJob s j)).any fun t => t.1 = tenant && t.2.1 = table
  let lines := (d.fetching.filter hit).filterMap fun j => tableOf (getJob s j)
  if lines = [] then s else
  startLanes die (modDie die (fun d => { d with
    fetching := d.fetching.filter fun j => !hit j
    curveCache := (lines.foldl (fun c l => l :: c.filter (· ≠ l)) d.curveCache).take 256 }) s)

/-- CURVE_FETCH_DONE (R266). -/
def execCurveFetchDone (t die tenant table : Nat) (s : State) : Host.Outcome State Fault Refusal :=
  .next (curveFetched die tenant table (tick t s))

/-- The lane that runs a job. -/
def laneOf (s : State) (id : Nat) : Option Nat := (getDie s (getJob s id).die).lanes.findIdx? fun u => u.job = some id

/-- The job of a lane has ended: its context is wiped, a suspended job resumes, and waiting jobs start (R279, R281). -/
def freeLane (id : Nat) (s : State) : State :=
  let die := (getJob s id).die
  startLanes die (modDie die (fun d => { d with
    lanes := d.lanes.map (·.without id)
    rq := d.rq.filter (· ≠ id), fetching := d.fetching.filter (· ≠ id) }) s)

/-- Entry of R282's columns for an algorithm: P-256, P-384, P-521, Ed25519, Ed448 in units of 100 ns. -/
def laneColumn (alg : Nat) (col : List Nat) : Option Nat := (col[alg - 1]?).filter fun t => t ≠ 0

/-- Lane time of a job in ns as R282 gives it; none for a size that the table does not list. -/
def laneTime (x : Job) : Option Nat :=
  let alg := if x.d.op = 0x31 then verifyAlg x else if x.d.op = 0x90 then 2 else (x.key.getD {}).alg
  let kind := if x.d.op = 0x31 ∨ x.d.op = 0x90 then 1 else if x.d.op = 0x32 then 2 else 0
  if tableAlg alg then
    let r := cdiv (field x.curve 2 2) 64
    some (if kind = 0 then 8000 + 1800 * r * r * r else if kind = 1 then 6000 + 1100 * r * r * r else 5000 + 900 * r * r * r)
  else if alg = 6 then
    let k := if kind = 1 then verifyK x else (x.key.getD {}).rsaLen
    let i := if k = 256 then 0 else if k = 384 then 1 else if k = 512 then 2 else if k = 1024 then 3 else 4
    let pub := if x.d.op = 0x31 ∧ x.d.handle = 0 then x.src.take (x.d.f 38 2) else (x.key.getD {}).pub
    let wide := if 131072 < beNat (pub.drop k) then 2 else 1
    ((if kind = 0 then [620, 2050, 4900, 39000] else [14 * wide, 30 * wide, 52 * wide, 200 * wide])[i]?).map (1000 * ·)
  else (laneColumn alg (if kind = 0 then [333, 960, 2100, 240, 700] else if kind = 1 then [180, 520, 1180, 140, 420] else [140, 380, 880])).map (100 * ·)

/-- The tests of R281 that one lane meets for a waiting job of a class: a running job of a lower class with more time left than the waiting job
needs, and no suspended job. -/
def mayYield (s : State) (u : Unit) (cls remaining need : Nat) : Bool :=
  u.job.any (fun j => rclass (getJob s j) < cls) && u.susp = none && !u.retired && decide (need < remaining)

/-- Order of R281 among lanes: the lowest class, then the most remaining time, then the lowest number. -/
def yieldsBefore (s : State) (a b : Unit) (ra rb la lb : Nat) : Bool :=
  let c (u : Unit) := (u.job.map fun j => rclass (getJob s j)).getD 0
  if c a ≠ c b then c a < c b else if ra ≠ rb then rb < ra else la < lb

/-- A lane is at a yield point; `remaining` gives the remaining lane time of each lane's running job in ns, `need` that of the waiting job
where R282 states none (R281). -/
def laneYield (die lane : Nat) (remaining : List Nat) (need : Nat) (s : State) : State :=
  let d := getDie s die
  let u := d.lanes.getD lane {}
  match u.job, pickRq s die lane with
  | some j, some x =>
    let y := getJob s x
    let n := (laneTime y).getD need
    let may (l : Nat) : Bool := mayYield s (d.lanes.getD l {}) (rclass y) (remaining.getD l 0) n
    let first := (List.range d.lanes.length).all fun l =>
      l = lane || !may l || yieldsBefore s u (d.lanes.getD l {}) (remaining.getD lane 0) (remaining.getD l 0) lane l
    if !(d.lanes.any laneIdle) && may lane && first && !s.hold then
      enterLane die lane x (fun u => { u with susp := u.job, suspKey := u.key, suspBlind := u.blind })
        (modJob j (fun y => { y with suspends := satAdd y.suspends 1 255 }) (countOn die 9 0 1 s))
    else s
  | _, _ => s

/-- LANE_YIELD (R281). -/
def execLaneYield (t die lane : Nat) (remaining : List Nat) (need : Nat) (s : State) : Host.Outcome State Fault Refusal :=
  .next (laneYield die lane remaining need (tick t s))

/-- The end of a lane job that failed validation. -/
def validationFail (id info : Nat) (s : State) : State := collect id stInput info [] [] none (freeLane id s)

/-! ## SIGN (R267 to R269) -/

/-- The mode of a SIGN, by the policy of its admission. -/
def signMode (x : Job) : Option Bool := splitMode (x.policy 3) x.d.hostSplit

/-- The checks of SIGN in the order of R285. -/
def signOwn (_s : State) (x : Job) : List Fail :=
  let hash := x.d.f 32 1
  let scheme := x.d.f 33 1
  let host := (signMode x).getD false
  (match usable x with
    | some k => failIf (host && !x.d.indirect && x.d.srcLen ≠ repLen k.alg hash) stLength 0x10
        ++ failIf (x.d.aux < sigLenOf k.alg k.rsaLen x.curve && !(tableAlg k.alg && x.curve = [])) stLength 0x11
    | none => [])
    ++ failIf (2 < x.d.f 34 1 || (match usable x with
        | some k => hashBad k.alg hash scheme
        | none => 3 < hash || 1 < scheme)) stInput 0xC1
    ++ failIf (x.d.dst = 0 || (host && x.d.indirect)) stInput 0xC2 ++ failIf (tableMissing x) stInput 0xC3
    ++ failIf ((signMode x).isNone) stInput 0xFE
    ++ failAt (if !x.d.indirect && x.d.srcLen = 0 then firstNonzero x.d.bytes (span 8 15) else none)
    ++ wideKeyFails x signAlgs [0x10]

/-- SIGN with its source held: the mode read at admission is kept, and the job enters the Reckoner queue. -/
def signGo (id : Nat) (s : State) : State :=
  queueLane id (modJob id (fun y => { y with phase := .engine, hostRun := (signMode y).getD false }) s)

/-- Nonce or salt of a signature: for ECDSA from NONCE of the die with additional input SHA-384(slot ‖ generation ‖ e), for PSS a salt of the
digest's length; EdDSA and PKCS1-v1_5 take none (R269; DESIGN CHOICE of the widths of the hashed values and of k, log entry 76). -/
def signNonce (die : Nat) (k : KeySlot) (handle scheme : Nat) (curve rep : Bytes) (s : State) : Bytes × State :=
  match curveOf k.alg curve with
  | some c => internalGen die 1 (orderLen c + 8)
      (digest384 (leBytes 2 (handle % 65536) ++ leBytes 2 (handle / 65536) ++ beBytes (orderLen c) (digestNum c.n rep))) s
  | none => if hedged k.alg scheme then internalGen die 1 rep.length [] s else ([], s)

/-- A signature with a slot's private key on a die. -/
def slotSign (die : Nat) (k : KeySlot) (handle scheme : Nat) (ph : Bool) (curve rep : Bytes) (s : State) : Bytes × State :=
  let n := signNonce die k handle scheme curve rep s
  (fit (sigLenOf k.alg k.rsaLen curve) (Config.signOf k.alg scheme ph curve k.mat rep n.1), n.2)

/-- What a signature of the device's own signs: the SHA-384 digest of the message with ECDSA, the message itself with EdDSA (R203, R244). -/
def ownRep (k : KeySlot) (m : Bytes) : Bytes := if edAlg k.alg then m else digest384 m

/-- A signature of the device's own over a message, made on a die. -/
def deviceSign (die : Nat) (k : KeySlot) (handle : Nat) (m : Bytes) (s : State) : Bytes × State := slotSign die k handle 0 false [] (ownRep k m) s

/-- The lane ends a SIGN: in host-assisted mode EdDSA signs the ph variant (R268). -/
def signFin (id : Nat) (s : State) : State :=
  match laneOf s id with
  | none => s
  | some lane =>
    let x := getJob s id
    let k := x.key.getD {}
    match firstCheck (laneChecks x) with
    | some i => validationFail id i s
    | none =>
      let g := slotSign x.die k x.d.handle (x.d.f 33 1) (x.hostRun && edAlg k.alg) x.curve (signRep x) s
      collect id stOk 0 (leBytes 2 g.1.length ++ [byte lane, byte x.suspends] ++ zeros 4) g.1 none (freeLane id g.2)

/-- SIGN (R267). -/
def signSem : OpSem where
  pfOnly := anyFn
  resv d := reservedBad d (span 35 63)
  fenced := anyFn
  keyed := pfOnly
  src := true
  len _ _ := []
  own := signOwn
  go := signGo
  fin := signFin

/-! ## VERIFY (R270, R271) -/

/-- Whether the lengths of a VERIFY can be known. -/
def verifyKnown (x : Job) : Bool := (if x.d.handle = 0 then wideAlg (x.d.f 36 1) else (usable x).isSome) && !tableMissing x

/-- Length checks of VERIFY on the total source length (R270, R275). -/
def verifyLen (x : Job) (n : Nat) : List Fail :=
  let alg := verifyAlg x
  let kl := x.d.f 38 2
  let sl := x.d.f 40 2
  if !verifyKnown x then [] else
  failIf ((x.d.handle = 0 && (kl ≠ pubLen alg (verifyK x) x.curve || (alg = 6 && !(256 ≤ verifyK x && verifyK x ≤ 1024 && verifyK x % 8 = 0))))
      || sl ≠ sigLenOf alg (verifyK x) x.curve || n < kl + sl
      || (x.d.f 35 1 = 1 && n - kl - sl ≠ repLen alg (x.d.f 32 1))) stLength 0x10

/-- The checks of VERIFY in the order of R285. -/
def verifyOwn (_s : State) (x : Job) : List Fail :=
  let alg := x.d.f 36 1
  let kl := x.d.f 38 2
  let shape := if x.d.handle = 0 then !wideAlg alg else alg ≠ 0 || kl ≠ 0
  failIf (2 < x.d.f 34 1 || 1 < x.d.f 35 1 || shape || hashBad (if (usable x).isSome || x.d.handle = 0 then verifyAlg x else if x.d.f 32 1 = 0 then 4 else 6) (x.d.f 32 1) (x.d.f 33 1)) stInput 0xC1
    ++ failIf (x.d.aux ≠ 0 || x.d.dst ≠ 0) stInput 0xC2 ++ failIf (tableMissing x) stInput 0xC3 ++ failIf x.d.hostSplit stInput 0xFE
    ++ (if x.d.handle = 0 then [] else wideKeyFails x signAlgs [0x10, 0x11])

/-- VERIFY enters the Reckoner queue. -/
def laneGo (id : Nat) (s : State) : State := queueLane id (modJob id (fun y => { y with phase := .engine }) s)

/-- The lane ends a VERIFY. -/
def verifyFin (id : Nat) (s : State) : State :=
  match laneOf s id with
  | none => s
  | some lane =>
    let x := getJob s id
    match firstCheck (laneChecks x) with
    | some i => validationFail id i s
    | none =>
      let p := verifyParts x
      let ok := Config.verifyOf (verifyAlg x) (x.d.f 33 1) (x.d.f 35 1 = 1 && edAlg (verifyAlg x)) x.curve p.1 p.2.2 p.2.1
      collect id stOk 0 ([if ok then 0 else 1, byte lane] ++ zeros 6) [] none (freeLane id s)

/-- VERIFY (R270). -/
def verifySem : OpSem where
  pfOnly := anyFn
  resv d := reservedBad d (37 :: span 42 63)
  fenced := anyFn
  keyed d := d.handle ≠ 0
  src := true
  len := verifyLen
  own := verifyOwn
  go := laneGo
  fin := verifyFin

/-! ## ECDH (R272) -/

/-- Lp of the key of an ECDH. -/
def ecdhLp (x : Job) (k : KeySlot) : Nat := ((curveOf k.alg x.curve).map fieldLen).getD 0

/-- The checks of ECDH in the order of R285. -/
def ecdhOwn (_s : State) (x : Job) : List Fail :=
  (match usable x with
    | some k => if tableMissing x || !ecdhAlgs.contains k.alg then [] else
        failIf (!x.d.indirect && x.d.srcLen ≠ 1 + 2 * ecdhLp x k) stLength 0x10 ++ failIf (x.d.aux < ecdhLp x k) stLength 0x11
    | none => [])
    ++ failIf (2 < x.d.f 34 1) stInput 0xC1 ++ failIf (x.d.dst = 0 || x.d.indirect) stInput 0xC2 ++ failIf (tableMissing x) stInput 0xC3
    ++ failIf x.d.hostSplit stInput 0xFE ++ wideKeyFails x ecdhAlgs [0x12]

/-- The lane ends an ECDH. -/
def ecdhFin (id : Nat) (s : State) : State :=
  match laneOf s id with
  | none => s
  | some _ =>
    let x := getJob s id
    let k := x.key.getD {}
    match curveOf k.alg x.curve with
    | none => s
    | some c =>
      match firstCheck (laneChecks x) with
      | some i => validationFail id i s
      | none =>
        let z := fit (fieldLen c) (Config.ecdhOf k.alg x.curve k.mat x.src)
        collect id stOk 0 (leBytes 2 (fieldLen c) ++ zeros 6) z none (freeLane id s)

/-- ECDH (R272). -/
def ecdhSem : OpSem where
  pfOnly := anyFn
  resv d := reservedBad d ([32, 33] ++ span 35 63)
  fenced := anyFn
  keyed := pfOnly
  src := true
  len _ _ := []
  own := ecdhOwn
  go := laneGo
  fin := ecdhFin

/-! ## Curve commands (R265) -/

/-- The pending changes of a curve table, in the order of their targets: whether each loads it. -/
def curveChanges (s : State) (t n : Nat) : List Bool :=
  s.fence.flatMap fun f => f.changes.filterMap fun c => match c.2 with
    | .curve a b blk => if a = t ∧ b = n then some (decide (blk ≠ [])) else none
    | _ => none

/-- An unload of the table has been accepted and has not reached its T: the key store takes no new key on it (R265). -/
def unloadPending (s : State) (t n : Nat) : Bool := (curveChanges s t n).contains false

/-- TABLE out of range (R9). -/
def tableRange (x : Job) : List Fail := failIf (15 < x.d.f 32 1) stInput 32

/-- The table will be loaded at the target. -/
def loadedAt (s : State) (x : Job) : Bool := (mget (bankAt s (targetOf x.d.targetField x.epoch)).curves (x.tenant * 16 + x.d.f 32 1)).isSome

/-- A load of the table is pending. -/
def loadPending (s : State) (x : Job) : Bool := (curveChanges s x.tenant (x.d.f 32 1)).contains true

/-- PKE_CURVE_LOAD with its block held goes to a Crown lane at class 2, once BLIND can serve its bases (R234, R264); a reserved byte of the
block that is not 0 refuses it first (R9, R263; log entry 81). -/
def curveLoadGo (id : Nat) (s : State) : State :=
  match firstNonzero (getJob s id).src (span 4 15) with
  | some i => finishJob id stInput i [] [] s
  | none => withInternal 2 id (laneGo id) s

/-- n bases of 80 bytes for Miller–Rabin rounds, from the Crown's BLIND (R264). -/
def blindBases : Nat → State → List Bytes × State
  | 0, s => ([], s)
  | n + 1, s =>
    let b := internalGen 0 2 80 [] s
    let r := blindBases n b.2
    (b.1 :: r.1, r.2)

/-- The checks of R264 end: the target is fixed from this epoch and the change is accepted. -/
def curveLoadFin (id : Nat) (s : State) : State :=
  match laneOf s id with
  | none => s
  | some _ =>
    let x := getJob s id
    let bp := blindBases 64 s
    let bn := blindBases 64 bp.2
    let s1 := freeLane id bn.2
    match curveCheck x.src bp.1 bn.1 with
    | some i => finishJob id stInput i [] [] s1
    | none =>
      let tgt := x.d.targetField
      let e := s.time.epoch
      if loadPending s x || (mget (bankAt s (targetOf tgt e)).curves (x.tenant * 16 + x.d.f 32 1)).isSome then finishJob id stInput 0xC5 [] [] s1
      else if tgt ≠ 0 ∧ tgt < e + 2 then finishJob id stInput 0xFD [] [] s1
      else acceptFenced id (targetOf tgt e) [.curve x.tenant (x.d.f 32 1) x.src] s1

/-- PKE_CURVE_LOAD (R265). -/
def curveLoadSem : OpSem where
  pfOnly := anyFn
  resv d := reservedBad d (offHandle ++ offAux ++ offDst ++ span 33 55)
  fenced := pfOnly
  keyed := anyFn
  src := true
  len _ n := failIf (n ≠ 496) stLength 0x10
  own _ x := tableRange x
  go := curveLoadGo
  fin := curveLoadFin

/-- A key slot of the tenant names the table, in force or pending (R265). -/
def tableUsed (s : State) (t n : Nat) : Bool :=
  let b := bankAt s (2 ^ 64)
  (crownBank s).slots.any (fun k => k.2.st ≠ 0 ∧ k.2.st ≠ 4 ∧ k.2.wide ∧ k.2.tenant = t ∧ k.2.alg = 0x20 + n)
    || b.slots.any (fun k => k.2.st ≠ 0 ∧ k.2.st ≠ 4 ∧ k.2.wide ∧ k.2.tenant = t ∧ k.2.alg = 0x20 + n)

/-- PKE_CURVE_UNLOAD accepted. -/
def curveUnloadGo (id : Nat) (s : State) : State :=
  let x := getJob s id
  acceptFenced id (targetOf x.d.targetField x.epoch) [.curve x.tenant (x.d.f 32 1) []] s

/-- PKE_CURVE_UNLOAD (R265). -/
def curveUnloadSem : OpSem where
  pfOnly := anyFn
  resv d := reservedBad d (span 4 31 ++ span 33 55)
  fenced := pfOnly
  keyed := anyFn
  src := false
  len _ _ := []
  own s x := tableRange x ++ failIf (!loadedAt s x) stInput 0xC3 ++ failIf (tableUsed s x.tenant (x.d.f 32 1)) stInput 0xC4
  go := curveUnloadGo
  fin _ s := s

/-- PKE_CURVE_READ: the block in force. -/
def curveReadGo (id : Nat) (s : State) : State :=
  let x := getJob s id
  let blk := (mget (crownBank s).curves (x.tenant * 16 + x.d.f 32 1)).getD []
  let p := match (curveChanges s x.tenant (x.d.f 32 1)).getLast? with
    | none => 0
    | some loads => if loads then 1 else 2
  okJob id ([byte p] ++ zeros 7) blk s

/-- PKE_CURVE_READ (R265). -/
def curveReadSem : OpSem where
  pfOnly := anyFn
  resv d := reservedBad d (span 4 19 ++ span 33 63)
  fenced := anyFn
  keyed := anyFn
  src := false
  len x _ := failIf (x.d.aux < 496) stLength 0x11
  own s x := tableRange x ++ failIf ((mget (crownBank s).curves (x.tenant * 16 + x.d.f 32 1)).isNone) stInput 0xC3
  go := curveReadGo
  fin _ s := s

/-! ## Faults of cores, lanes and tree hashers (R46, R47, R277) -/

/-- A job stopped by a fault moves to the head of its scheduler once, for another unit than the one that failed; the second time, or
without a healthy unit that can serve it, it completes with FAULT_RETRY. -/
def moveJob (id kind core : Nat) (s : State) : State :=
  match mget s.jobs id with
  | none => s
  | some x =>
    if x.moved || !healthy (getDie s x.die) kind x.srcLen (some core) then collect id stRetry 0 [] [] none s
    else
      modDie x.die (fun d => if kind = 1 then { d with rq := id :: d.rq.filter (· ≠ id) } else { d with macQ := id :: d.macQ.filter (· ≠ id) })
        (modJob id (fun y => { y with moved := true, bar := some core }) (countOn x.die 0x0F x.fn 1 s))

/-- Puts a unit in its place. -/
def Die.setUnit (d : Die) (kind core : Nat) (u : Unit) : Die :=
  if kind = 0 then { d with cores := lset d.cores core u }
  else if kind = 1 then { d with lanes := lset d.lanes core u }
  else { d with hashers := lset d.hashers core u }

/-- Jobs of a scheduler that no unit of the die can serve any more complete with FAULT_RETRY (R47). -/
def dropUnfit (die kind : Nat) (s : State) : State :=
  let q := if kind = 0 then (getDie s die).macQ else if kind = 1 then (getDie s die).rq else []
  (q.filter fun j => (getJob s j).ring ≠ ownRing && !healthy (getDie s die) kind (getJob s j).srcLen (getJob s j).bar).foldl (fun s j =>
    collect j stRetry 0 [] [] none (modDie die (fun d => { d with rq := d.rq.filter (· ≠ j), fetching := d.fetching.filter (· ≠ j), macQ := d.macQ.filter (· ≠ j) }) s)) s

/-- A fault of one core, lane or tree hasher: its key register and what it has cached are cleared, its job moves to another unit, and the
third fault within one second retires it (R46, R47). -/
def engineFault (die kind core : Nat) (s : State) : State :=
  let d := getDie s die
  let u := (d.units kind).getD core {}
  if !d.live || 2 < kind || (d.units kind).length ≤ core || u.retired then s else
  let fs := (u.faults.filter fun t => s.time.now < t + 1000000000) ++ [s.time.now]
  let gone := 3 ≤ fs.length
  let s1 := modDie die (fun d => d.setUnit kind core { faults := fs, retired := gone }) s
  let s2 := if gone then recEventAt die 0 0x0B03 ([byte kind, byte core] ++ zeros 6) s1 else s1
  let s3 := dropUnfit die kind ((u.job.toList ++ u.susp.toList).foldl (fun s j => moveJob j kind core s) s2)
  if kind = 1 then startLanes die s3 else startMac die s3

/-- An engine fault as it is reported: a lane's is counted in PKE_FAULTS_Dn (R46, R287). -/
def coreFault (die kind core : Nat) (s : State) : State :=
  let d := getDie s die
  if kind = 1 ∧ d.live ∧ core < d.lanes.length ∧ !(d.lanes.getD core {}).retired then
    engineFault die kind core (modDie die (fun d => { d with laneFault := satAdd d.laneFault 1 0xFFFF }) s)
  else engineFault die kind core s

/-- A signature fails its verification before release: recorded, counted and handled as a lane fault (R277). -/
def verifyBeforeFails (die lane : Nat) (s : State) : State :=
  let alg := match (((getDie s die).lanes.getD lane {}).job).bind (fun j => (getJob s j).key) with
    | some k => k.alg
    | none => 0
  engineFault die 1 lane (modDie die (fun d => { d with verifyFail := satAdd d.verifyFail 1 0xFFFF })
    (recEventAt die 0 0x0601 ([byte lane, byte alg] ++ zeros 6) s))

/-! ## Engines that waited go on -/

/-- Every die starts what its MAC cores and lanes may start: after HOLD, and when a full staging or skid buffer has room again (R118, R190, R457). -/
def restartEngines (s : State) : State := (List.range s.dies.length).foldl (fun s d => startLanes d (startMac d s)) s

end Sys2Proof.Machine
end

