-- ==== Sys2Proof/Machine/Entropy.lean ====
section
/-! DEFINITION. Entropy: bows, health tests, release, seeds and DRBG instances, and RANDOM (R222 to R236). -/

namespace Sys2Proof.Machine

/-! ## Bows and the FIFO (R223 to R228) -/

/-- State code of a bow at a reading: the retest of a FAILED bow begins 100 ms after its failure (R223, R226). -/
def Bow.shown (now : Nat) (b : Bow) : Nat := if b.st = 4 ∧ b.fails.getLast?.getD 0 + 100000000 ≤ now then 1 else b.st

/-- RNG_STATUS_Dn.DOWN (R227, R229). -/
def entropyDown (d : Die) : Bool := d.katFail || d.bows.all fun b => b.st = 1 || b.st = 4 || b.st = 5

/-- NOT_READY INFO (R230): 0x11 while any live die is being instantiated again after an ERASE. -/
def notReadyInfo (s : State) : Nat := if (liveDies s).any fun d => (getDie s d).rngReinst then 0x11 else 0x10

/-- Code of a test in record 0x0501. -/
def testCode : BowTest → Nat
  | .repetition => 0
  | .adaptive => 1
  | .bias => 2
  | .biasWarning => 3
  | .startup => 4

/-- The bow that takes over: the next STANDBY one in the order 0, 1, 2, 3, 0 (R226). -/
def nextBow (d : Die) (bow : Nat) : Option Nat :=
  ([bow + 1, bow + 2, bow + 3].map (· % 4)).find? fun i => (d.bows.getD i {}).st = 2

/-- A bow fails: FAILED, or RETIRED at the third failure within 60 s (R226). -/
def failBow (now : Nat) (b : Bow) : Bow :=
  let fs := (b.fails.filter fun t => now < t + 60000000000) ++ [now]
  { st := if 3 ≤ fs.length then 5 else 4, fails := fs }

/-- Counts a failed test (R256). -/
def countTest (t : BowTest) (d : Die) : Die :=
  match t with
  | .repetition => { d with rct := satAdd d.rct 1 255 }
  | .adaptive => { d with apt := satAdd d.apt 1 255 }
  | .bias => { d with bias := satAdd d.bias 1 255 }
  | .biasWarning => d
  | .startup => d

/-- Entropy down: recorded, and PF vector 0 is signalled (R227). -/
def reportDown (die : Nat) (s : State) : State := signal 0 0 (recEventAt die 0 0x0502 (zeros 8) s)

/-- A repetition-count or adaptive-proportion failure discards the blocks still held and reloads the carder, whose first 256 bits are discarded (R225). -/
def reloadCarder (die : Nat) (s : State) : State :=
  let c := freeBytes 32 s
  modDie die (fun d => { d with stage := [], carder := c.1, discard := 1 }) c.2

/-- A bow fails; where it was ACTIVE the next STANDBY bow takes over, or the entropy is down (R225 to R227). -/
def dropBow (die bow : Nat) (test : BowTest) (s : State) : State :=
  let d := getDie s die
  let b := d.bows.getD bow {}
  let s1 := modDie die (fun d => { countTest test d with bows := lset d.bows bow (failBow s.time.now b) }) s
  let s2 := if b.st = 3 ∧ (test = .repetition ∨ test = .adaptive) then reloadCarder die s1 else s1
  if b.st = 3 then
    match nextBow d bow with
    | some n =>
      recEventAt die 0 0x0501 ([byte bow, byte n, byte (testCode test)] ++ zeros 5)
        (modDie die (fun d => { d with bows := lset d.bows n { d.bows.getD n {} with st := 3 }, switches := satAdd d.switches 1 255 }) s2)
    | none => reportDown die s2
  else if b.st = 1 ∧ (getDie s2 die).bows.all (fun b => b.st = 4 || b.st = 5) then reportDown die s2
  else s2

/-- The verdict of a health test on a bow (R224 to R227): a bias warning is an event only (log entry 77); the start-up test concerns a bow under test,
the other tests one that runs. -/
def bowFail (die bow : Nat) (test : BowTest) (s : State) : State :=
  let d := getDie s die
  let b := d.bows.getD bow {}
  if !d.live then s
  else if test = .startup then (if b.shown s.time.now = 1 then dropBow die bow test s else s)
  else if !(b.st = 2 ∨ b.st = 3) then s
  else if test = .biasWarning then recEventAt die 0 0x0501 ([byte bow, byte bow, byte (testCode test)] ++ zeros 5) s
  else dropBow die bow test s

/-- BOW_TEST_FAIL (R226). -/
def execBowTestFail (t die bow : Nat) (test : BowTest) (s : State) : Host.Outcome State Fault Refusal :=
  .next (bowFail die bow test (tick t s))

/-- The retest of a bow 100 ms after its failure; it becomes ACTIVE where no bow is (R226, R227). -/
def bowRetest (die bow : Nat) (pass : Bool) (s : State) : State :=
  let d := getDie s die
  let b := d.bows.getD bow {}
  if !d.live ∨ b.st ≠ 4 ∨ s.time.now < (b.fails.getLast?.getD 0) + 100000000 then s
  else if pass then
    modDie die (fun d => { d with bows := lset d.bows bow { b with st := if d.bows.any (·.st = 3) then 2 else 3 } }) s
  else modDie die (fun d => { d with bows := lset d.bows bow (failBow s.time.now b) }) s

/-- The next DRBG of a round is reseeded: those of the functions in order, then the internal ones (R233). -/
def roundReseed (k : Nat) (seed : Bytes) (d : Die) : Die :=
  if k < 1024 then { d with fnInst := mset d.fnInst k (((mget d.fnInst k).getD {}).reseed seed) }
  else { d with intInst := mset d.intInst (k - 1024) (((mget d.intInst (k - 1024)).getD {}).reseed seed) }

/-- The reseed round takes seeds while there are any, at the lowest priority (R228, R233). -/
def roundSeeds : Nat → Nat → State → State
  | 0, _, s => s
  | f + 1, die, s =>
    let n := (getDie s die).roundLeft
    if n = 0 then s else
    match takeSeed die s with
    | none => s
    | some r => roundSeeds f die (modDie die (fun d => { roundReseed (1027 - n) r.1 d with roundLeft := n - 1 }) r.2)

/-- A 256-bit block is released to the FIFO, which holds 4 KiB, or discarded after a reload; the carder goes on to the next one, and the release
stage holds the one whose window has not ended (R222, R225). -/
def releaseBlock (die : Nat) (s : State) : State :=
  let d := getDie s die
  if !d.live ∨ !entropyUp d then s else
  let c := freeBytes 32 s
  if 0 < d.discard then modDie die (fun d => { d with discard := d.discard - 1, carder := c.1 }) c.2 else
  let b := freeBytes 32 c.2
  modDie die (fun d => { d with fifo := (d.fifo ++ d.stage.headD d.carder).take 4096, stage := [c.1], carder := b.1 }) b.2

/-- A reseed round starts on every live die; while one still runs on any die, an event is recorded instead (R233). -/
def startRound (b : Nat) (s : State) : State :=
  if (liveDies s).any (fun d => 0 < (getDie s d).roundLeft) then recEvent 0x0504 (leBytes 6 b ++ zeros 2) s
  else { s with dies := s.dies.map fun d => if d.live ∧ d.rngReady then { d with roundLeft := 1027 } else d }

/-- P (R233). -/
def reseedPeriod (s : State) : Nat := s.rngPeriod.getD (60 * s.ecfg.k)

/-- Item 4 of R77: a round starts at every boundary B for which (B − T0) mod P = 0. -/
def roundAt (b : Nat) (s : State) : State :=
  if s.rngT0 ≤ b ∧ (b - s.rngT0) % reseedPeriod s = 0 then startRound b s else s

/-- Start-up step 9 ends when every live die is READY or has failed its known-answer tests; step 10 begins (R73, R470). -/
def endEntropyStep (s : State) : State :=
  if s.startStep = 9 ∧ (liveDies s).all (fun d => (getDie s d).rngReady || (getDie s d).katFail) then
    { s with startStep := 10, time := { s.time with acqStart := s.time.now, acqDue := s.time.now + 10000000000 } }
  else s

/-- The bows of every live die are powered and under test (R229 step 1). -/
def powerBows (s : State) : State :=
  { s with dies := s.dies.map fun (d : Die) => if d.live then { d with bows := d.bows.map fun (_ : Bow) => { st := 1 } } else d }

/-- A bow after its start-up test: the lowest-numbered passing one is ACTIVE, the other passing ones STANDBY (R229 step 2). -/
def testedBow (now : Nat) (passing : List Nat) (first : Option Nat) (i : Nat) (b : Bow) : Bow :=
  if b.st ≠ 1 then b else if some i = first then { st := 3 } else if passing.contains i then { st := 2 } else failBow now b

/-- Start-up step 9 of a die: known-answer tests, then the start-up tests of its bows (R229). -/
def entropyStartup (die : Nat) (kat : Option Nat) (passing : List Nat) (s : State) : State :=
  let d := getDie s die
  if !d.live ∨ s.startStep ≠ 9 ∨ !(d.bows.any (·.st = 1)) then s else
  let first := (List.range 4).find? fun i => passing.contains i && decide ((d.bows.getD i {}).st = 1)
  let c := freeBytes 32 s
  let s1 := modDie die (fun d => { d with bows := d.bows.mapIdx (testedBow s.time.now passing first), katFail := kat.isSome, discard := 0, stage := [], carder := c.1 }) c.2
  match kat with
  | some n => reportDown die (recEventAt die 0 0x0503 (byte n :: zeros 7) s1)
  | none => if first.isNone then reportDown die s1 else s1

/-- Personalisation string of a function's DRBG (R231). -/
def fnPers (die f : Nat) : Bytes := ascii "XZFN" ++ [byte die] ++ leBytes 2 f

/-- Personalisation string of an internal DRBG (R231). -/
def intPers (die k : Nat) : Bytes := ascii "XZINT" ++ [byte die, byte k]

/-- The DRBGs of a die instantiated: 3 internal ones and 32 draw places from a full FIFO, then the 1,024 of the functions from the blocks released
since (R229 steps 3 to 5, R231; log entry 78). -/
def instantiateAll (die : Nat) (fifo more : Bytes) (d : Die) : Die :=
  let seed (b : Bytes) (i : Nat) := slice b (48 * i) 48
  let new (b : Bytes) (i n : Nat) (pers : Bytes) : Drbg := { v := Config.drbgInit (seed b i) (leBytes 16 (d.nonces + n)) pers }
  { d with
    intInst := (List.range 3).map fun k => (k, new fifo k k (intPers die k))
    drawDrbgs := d.drawDrbgs.map fun x => { x with ready := true, drbg := new fifo (3 + x.index) (3 + x.index) (drawPers die x) }
    fnInst := (List.range 1024).map fun f => (f, new more f (35 + f) (fnPers die f))
    fifo := fifo.drop 1680, nonces := d.nonces + 1059, rngReady := true, rngReinst := false, roundLeft := 0 }

/-- The FIFO of a die has been filled, its DRBGs are instantiated, and READY becomes 1 (R229, R235). -/
def entropyReady (die : Nat) (s : State) : State :=
  let d := getDie s die
  if !d.live ∨ d.rngReady ∨ !entropyUp d then s else
  let fill := freeBytes (4096 - d.fifo.length) s
  let more := freeBytes 49152 fill.2
  modDie die (instantiateAll die (d.fifo ++ fill.1) more.1) (countOn die 0x0D 0 1059 more.2)

/-- The DRBGs of a die zeroised and its FIFO emptied (R235). -/
def Die.wipeDrbgs (d : Die) : Die :=
  { d with fifo := [], rngReady := false, fnInst := [], intInst := [], roundLeft := 0
           drawDrbgs := d.drawDrbgs.map fun x => { x with ready := false, busy := none, drbg := {} } }

/-- ERASE on the entropy blocks: every DRBG is zeroised and every FIFO emptied; a die that was READY instantiates again (R235). -/
def eraseEntropy (s : State) : State :=
  { s with dies := s.dies.map fun (d : Die) => { d.wipeDrbgs with rngReinst := d.rngReady || d.rngReinst } }

/-! ## RANDOM (R236) -/

/-- LENGTH of a RANDOM. -/
def randomLen (x : Job) : Nat := x.d.f 32 4

/-- NOT_READY of a job whose die has no READY entropy. -/
def readyFails (s : State) (x : Job) : List Fail := failIf (!(getDie s x.die).rngReady) stNotReady (notReadyInfo s)

/-- The checks of RANDOM. -/
def randomOwn (s : State) (x : Job) : List Fail :=
  failIf (!(1 ≤ randomLen x && randomLen x ≤ 65536)) stLength 1 ++ failIf (48 < x.d.srcLen) stLength 2
    ++ failIf (1 < x.d.f 36 1) stInput 0xA7 ++ failIf x.d.indirect stInput 1
    ++ failAt (if x.d.srcLen = 0 then firstNonzero x.d.bytes (span 8 15) else none) ++ failIf (x.d.dst = 0) stInput 24
    ++ readyFails s x

/-- RANDOM reseeds where it must, or waits for entropy (R232, R234). -/
def randomGo (id : Nat) (s : State) : State :=
  let x := getJob s id
  match fnSeeded x.die x.fn (x.d.f 36 1 = 1) s with
  | some s1 => modJob id (fun y => { y with phase := .engine }) s1
  | none => awaitEntropy id s

/-- The generate request of a RANDOM ends, with SRC as its additional input (R236). -/
def randomFin (id : Nat) (s : State) : State :=
  let x := getJob s id
  let r := fnGen x.die x.fn (randomLen x) x.src s
  collect id stOk 0 [] r.1 none r.2

/-- RANDOM (R236). -/
def randomSem : OpSem where
  pfOnly := anyFn
  resv d := reservedBad d (offHandle ++ offAux ++ span 37 63)
  fenced := anyFn
  keyed := anyFn
  src := true
  len _ _ := []
  own := randomOwn
  go := randomGo
  fin := randomFin

/-! ## RNG_RESEED_SET (R233) -/

/-- RNG_RESEED_SET accepted. -/
def reseedGo (id : Nat) (s : State) : State :=
  let x := getJob s id
  acceptFenced id (targetOf x.d.targetField x.epoch) [.reseed (x.d.f 36 4)] s

/-- RNG_RESEED_SET (R233). -/
def reseedSem : OpSem where
  pfOnly := pfOnly
  resv d := reservedBad d (span 4 35 ++ span 40 55)
  fenced := pfOnly
  keyed := anyFn
  src := false
  len _ _ := []
  own _ x := failIf (x.d.f 36 4 = 0) stInput 0xAB
  go := reseedGo
  fin _ s := s

end Sys2Proof.Machine
end

