-- ==== Sys2Proof/Machine/Draws.lean ====
section
/-! DEFINITION. Draws: the mapper, placement, checks, leaves and records, immediate, scheduled and host-assisted draws, and their
commands (R237 to R254). -/

namespace Sys2Proof.Machine

/-! ## The mapper (R237, R238) -/

/-- uniform(m) over a run of 64-bit words: the value and the words left; none when the words run out. -/
def uniform (m : Nat) : List Nat → Option (Nat × List Nat)
  | [] => none
  | w :: ws => if w < 2 ^ 64 - 2 ^ 64 % m then some (w % m, ws) else uniform m ws

/-- The steps i, i + 1, … of draw_without, k of them, over the map M. -/
def drawWithoutFrom : Nat → Nat → Nat → KMap Nat → List Nat → Option (List Nat)
  | 0, _, _, _, _ => some []
  | k + 1, i, n, mp, ws =>
    match uniform (n - i) ws with
    | none => none
    | some (u, ws1) =>
      let j := i + u
      let vi := (mget mp i).getD i
      let vj := (mget mp j).getD j
      (drawWithoutFrom k (i + 1) n (mset mp j vi) ws1).map (vj :: ·)

/-- draw_without(n, k). -/
def drawWithout (n k : Nat) (ws : List Nat) : Option (List Nat) := drawWithoutFrom k 0 n [] ws

/-- draw_with(n, k). -/
def drawWith (n : Nat) : Nat → List Nat → Option (List Nat)
  | 0, _ => some []
  | k + 1, ws =>
    match uniform n ws with
    | none => none
    | some (u, ws1) => (drawWith n k ws1).map (u :: ·)

/-- shuffle(n): draw_without(n, n − 1), then the one value left. -/
def shuffle (n : Nat) (ws : List Nat) : Option (List Nat) :=
  (drawWithout n (n - 1) ws).map fun l => l ++ [((List.range n).find? fun v => !l.contains v).getD 0]

/-- The outcome of a draw by OP over a word stream (R238). -/
def mapDraw (op n k : Nat) (ws : List Nat) : Option (List Nat) :=
  if op = 0 then drawWithout n k ws else if op = 1 then drawWith n k ws else shuffle n ws

/-- Bytes as 64-bit little-endian words (R237). -/
def wordsOf : Nat → Bytes → List Nat
  | 0, _ => []
  | n + 1, b => field b 0 8 :: wordsOf n (b.drop 8)

/-- Outcome values as 4 bytes each (R243). -/
def outcomeBytes (l : List Nat) : Bytes := (l.map (leBytes 4)).flatten

/-! ## Parameters (R240) -/

/-- SHUFFLE. -/
def isShuffle (d : Desc) : Bool := d.op = 0x21
/-- A scheduled draw. -/
def scheduled (d : Desc) : Bool := d.f 33 1 = 1
/-- n of a draw. -/
def drawN (d : Desc) : Nat := d.f 36 4 + 1
/-- COUNT of a draw. -/
def drawCount (d : Desc) : Nat := if isShuffle d then drawN d else d.f 40 2
/-- OP of R242. -/
def drawOp (d : Desc) : Nat := if isShuffle d then 2 else d.f 32 1
/-- HOLD_LIMIT_S with its default. -/
def holdLimit (d : Desc) : Nat := if d.f 42 2 = 0 then 3600 else d.f 42 2

/-- The mode of a draw under the DRAW policy of its admission (R36, R44). -/
def drawMode (x : Job) : Option Bool := splitMode (x.policy 2) x.d.hostSplit

/-- The draw runs in host-assisted mode. -/
def drawHost (x : Job) : Bool := !scheduled x.d && (drawMode x).getD false

/-! ## Pending draws and the result store (R241, R253) -/

/-- A draw is resolved and its record is signed, or its outcome is lost. -/
def Draw.resolved (d : Draw) : Bool := (d.st = 3 || d.st = 4) && d.record ≠ [] || d.st = 5

/-- A pending draw: a scheduled one that is not resolved, or a host-assisted one whose mapping has not resolved it. -/
def Draw.pendingD (d : Draw) : Bool := !d.resolved

/-- Bytes that a scheduled draw reserves in the result store (R246). -/
def Draw.reserve (d : Draw) : Nat := if d.sched && d.st ≠ 5 then 320 + 4 * d.count else 0

/-- Free bytes of the result store (RNG_STORE). -/
def storeFree (s : State) : Nat := 4194304 - (s.draws.map Draw.reserve).sum

/-- Algorithms of the ALG table of R203. -/
def recordAlgs : List Nat := span 1 5

/-- Earliest time that the draw's entropy can be taken, in ns: the boundary of TARGET, or the admission Stamp less UNC. -/
def drawFrom (s : State) (x : Job) : Nat :=
  if scheduled x.d then
    let t := targetOf x.d.targetField x.epoch
    (s.ecfg.origin + t / s.ecfg.k) * 1000000000 + t % s.ecfg.k * (1000000000 / s.ecfg.k)
  else x.stamp.seconds * 1000000000 + x.stamp.ns - x.stamp.unc

/-- The checks on the game of a draw (R241). -/
def drawGame (s : State) (x : Job) : List Fail :=
  let g := x.d.f 34 2
  if g = 0 then [] else
  match ((mget (bankOf s x.die).close x.tenant).getD []).find? (·.game = g) with
  | none => [⟨stInput, 0xA4⟩]
  | some e => failIf (drawFrom s x < e.seconds * 1000000000 + e.ns) stInput 0xA5

/-- Trust of a draw: of the package when it is scheduled, else as the function sees it (R65, R241). -/
def drawTrust (s : State) (x : Job) : Bool := if scheduled x.d then pkgTrusted s else jobTrusted s x

/-- Output size that AUX must hold (R245, R246, R250). -/
def drawOut (x : Job) : Nat :=
  if scheduled x.d then (if x.d.dst = 0 then 0 else 64) else if drawHost x then 8 * x.d.f 44 4 else 320 + 4 * drawCount x.d

/-- The checks of R241. -/
def drawOwn (s : State) (x : Job) : List Fail :=
  let d := x.d
  let w := d.f 44 4
  failIf (!(d.srcLen = 0 || d.srcLen = 48)) stLength 2 ++ failIf (d.aux < drawOut x) stLength 3
    ++ failIf ((!isShuffle d && 1 < d.f 32 1) || 1 < d.f 33 1) stInput 0xA2
    ++ failIf (isShuffle d && !(2 ≤ drawN d && drawN d ≤ 65536)) stInput 0xA0
    ++ failIf (!isShuffle d && !(1 ≤ d.f 40 2 && d.f 40 2 ≤ 1024 && (d.f 32 1 ≠ 0 || d.f 40 2 ≤ drawN d))) stInput 0xA1
    ++ (if scheduled d then targetFail d.targetField x.epoch else failIf (d.targetField ≠ 0 || d.f 42 2 ≠ 0) stInput 0xA3)
    ++ drawGame s x
    ++ failIf (if drawHost x then !(drawCount d ≤ w && w ≤ 131072) else w ≠ 0) stInput 0xA6
    ++ failIf (!scheduled d && d.dst = 0) stInput 0xAC ++ failIf d.indirect stInput 1
    ++ failAt (if d.srcLen = 0 then firstNonzero d.bytes (span 8 15) else none)
    ++ failIf (if scheduled d then drawMode x ≠ some false else (drawMode x).isNone) stInput 0xFE
    ++ wideKeyFails x recordAlgs [0x14]
    ++ failIf ((getTenant s x.tenant).g.drbgs = 0) stQuota 0x11
    ++ failIf (256 ≤ (s.draws.filter fun y => y.pendingD && y.tenant = x.tenant).length
        || 4096 ≤ (s.draws.filter Draw.pendingD).length) stQuota 0x10
    ++ failIf (scheduled d && storeFree s < 320 + 4 * drawCount d) stQuota 0x12
    ++ (if scheduled d then failIf (!anyReady s) stNotReady (notReadyInfo s) else readyFails s x)
    ++ failIf (x.psn = 0) stNotReady 2
    ++ (if s.time.reasons.notAcquired then [⟨stUntrusted, 1⟩]
        else failIf ((scheduled d || d.f 34 2 ≠ 0) && !drawTrust s x) stUntrusted 0)

/-! ## Placement (R239) -/

/-- Dies in service that hold an instance of a tenant. -/
def holding (s : State) (t : Nat) : List Nat := (liveDies s).filter fun d => (getDie s d).drawDrbgs.any (·.tenant = t)

/-- A die holds an idle instance of the tenant, is READY and has its entropy up. -/
def drawReady (s : State) (t d : Nat) : Bool :=
  let x := getDie s d
  x.rngReady && entropyUp x && x.drawDrbgs.any fun i => i.tenant = t && i.busy = none && i.ready

/-- A job occupies its die from its placement until its result leaves the collector (R41). -/
def Job.onDie (j : Job) : Bool :=
  j.phase = .ring || j.phase = .table || j.phase = .source || j.phase = .engine || j.phase = .collector || j.phase = .wait 10

/-- Bytes of work placed on a die (R41). -/
def dieLoad (s : State) (d : Nat) : Nat := ((s.jobs.filter fun j => j.2.die = d ∧ j.2.onDie).map fun j => 64 + j.2.srcLen).sum

/-- The job waits for a lane of its die or holds one. -/
def atLanes (s : State) (id : Nat) (x : Job) : Bool :=
  let d := getDie s x.die
  d.rq.contains id || d.lanes.any fun u => u.job = some id || u.susp = some id

/-- Reckoner jobs outstanding on a die: SIGN, VERIFY and ECDH, and every other job that needs a lane there (R41, R280). -/
def rqLoad (s : State) (d : Nat) : Nat := (s.jobs.filter fun j => j.2.die = d ∧ j.2.onDie ∧ (reckonerOp j.2.d.op ∨ atLanes s j.1 j.2)).length

/-- The die with the least of a measure, the lowest index among equals. -/
def leastDie (f : Nat → Nat) (l : List Nat) : Option Nat :=
  l.foldl (fun b d => match b with
    | none => some d
    | some x => if f d < f x then some d else some x) none

/-- What R239 decides for an immediate draw of a tenant. -/
inductive DrawPlace where
  | fail (info : Nat)
  | die (d : Nat)
  | wait
  | waitEntropy
deriving DecidableEq, Repr

/-- The rows of R239, in order. -/
def drawPlace (s : State) (t : Nat) : DrawPlace :=
  let hs := holding s t
  if !anyReady s then .fail (notReadyInfo s)
  else if hs = [] then .fail 0x10
  else if hs.all (fun d => !(getDie s d).rngReady) then .fail (if hs.any fun d => (getDie s d).rngReinst then 0x11 else 0x10)
  else match leastDie (dieLoad s) (hs.filter (drawReady s t)) with
    | some d => .die d
    | none => if hs.any fun d => (getDie s d).rngReady && entropyUp (getDie s d) then .wait else .waitEntropy

/-- The first idle instance of a tenant in a list is held by a job. -/
def holdInst (t id : Nat) : List DrawDrbg → List DrawDrbg
  | [] => []
  | x :: xs => if x.tenant = t ∧ x.busy = none then { x with busy := some id } :: xs else x :: holdInst t id xs

/-- An immediate draw is placed on a die: it holds an instance there and enters internal ring G. -/
def placeDraw (id die : Nat) (s : State) : State :=
  let t := (getJob s id).tenant
  modDie die (fun d => { d with drawDrbgs := holdInst t id d.drawDrbgs, ringG := d.ringG ++ [id] })
    (modJob id (fun x => { x with die := die, phase := .ring }) s)

/-! ## Leaves and records (R242 to R244) -/

/-- FLAGS of a draw leaf. -/
def Draw.flags (d : Draw) (restated : Bool) : Nat :=
  bit d.sched 0 + bit d.host 1 + bit d.heldOnce 2 + bit d.flagged 3 + bit d.late 4 + bit d.rerun 5 + bit restated 6

/-- The 64-byte header of a draw leaf of a KIND (R242). -/
def drawHeader (kind : Nat) (d : Draw) (handle : Nat) : Bytes :=
  let c := kind = 0x10
  [1, byte kind, byte d.op, byte (d.flags (c && d.restated))] ++ leBytes 2 d.tenant ++ leBytes 2 d.fn ++ leBytes 8 d.id
    ++ leBytes 4 d.n1 ++ leBytes 4 d.count ++ leBytes 2 d.game ++ [byte (if kind = 0x12 then d.void else 0), byte (if c then 0 else d.die)]
    ++ leBytes 6 (if d.sched then d.target else 0) ++ leBytes 6 (if c then 0 else d.exec) ++ (if c then d.stamp else d.runStamp).bytes
    ++ leBytes 4 handle ++ leBytes 4 d.w

/-- SEED_DIGEST (R243). -/
def seedDigest (id : Nat) (seed : Bytes) : Bytes := digest384 ([0x0B] ++ leBytes 8 id ++ seed)
/-- WORDS_DIGEST (R243). -/
def wordsDigest (id : Nat) (words : Bytes) : Bytes := digest384 ([0x0D] ++ leBytes 8 id ++ words)
/-- OUTCOME_DIGEST (R243). -/
def outcomeDigest (out : Bytes) : Bytes := digest384 ([0x0F] ++ out)

/-- The draw key's handle with the generation in force (R242). -/
def signHandle (s : State) (h : Nat) : Nat := (slotOf (crownBank s) h).gen * 65536 + h % 65536

/-- A leaf of a draw: RD by KIND, TPAD zero (R242, R243). -/
def drawLeaf (s : State) (kind : Nat) (d : Draw) : Leaf :=
  { header := drawHeader kind d (signHandle s d.handle)
    rd := if kind = 0x10 then d.defn else if kind = 0x11 then digest384 ([0x0C] ++ (if d.host then d.wordsDig else d.seedDig) ++ d.outDig)
          else if kind = 0x12 then zeros 48 else d.wordsDig
    tpad := zeros 16 }

/-- UNSIGNED_REASON of a record made now; 0 when the key can sign (R203, R244): an empty slot of the handle's generation has no key, a slot whose
key is gone or has another purpose is stale or erased. -/
def unsignedReason (s : State) (h : Nat) : Nat :=
  let k := slotOf (crownBank s) h
  if s.locked then 3
  else if !k.inUse then (if genMatches k h then 1 else 2)
  else if k.mat = [] ∨ k.purpose ≠ 0x14 ∨ !recordAlgs.contains k.alg then 2 else 0

/-- Bytes 0 to 183 of a draw record (R244). -/
def recordHead (d : Draw) (alg slen reason : Nat) : Bytes :=
  d.header ++ fit 48 (if d.st = 4 then [] else if d.host then d.wordsDig else d.seedDig) ++ fit 48 (if d.st = 4 then [] else d.outDig)
    ++ leBytes 8 d.leafSeq ++ leBytes 8 d.commitSeq ++ [byte alg, byte slen, byte reason] ++ zeros 5

/-- The record of a draw, its header that of the appended leaf, signed on a die with the draw key in force (R244). -/
def makeRecord (die : Nat) (d : Draw) (s : State) : Bytes × State :=
  let k := slotOf (crownBank s) d.handle
  let r := unsignedReason s d.handle
  if r ≠ 0 then (recordHead d 0 0 r ++ zeros 136, s) else
  let h := recordHead d k.alg (sigLen k.alg) 0
  let g := deviceSign die k (signHandle s d.handle) ([0x0E] ++ h) s
  (h ++ fit 136 (fit (sigLen k.alg) g.1), g.2)

/-! ## Signatures of the device's own: draw records and ledger batches (R198, R244, R277, R278, R280) -/

/-- A job leaves every queue, buffer, core and lane of its die. -/
def unplace (id : Nat) (s : State) : State :=
  let die := (getJob s id).die
  modDie die (fun d => { d with
    ringP := d.ringP.filter (· ≠ id), ringG := d.ringG.filter (· ≠ id)
    macQ := d.macQ.filter (· ≠ id), rq := d.rq.filter (· ≠ id), fetching := d.fetching.filter (· ≠ id)
    collector := d.collector.filter (· ≠ id), skid := d.skid.filter fun k => k.2.2 ≠ id
    cores := d.cores.map fun c => if c.job = some id then { c with job := none } else c
    lanes := d.lanes.map (·.without id) }) s

/-- The live die with the fewest Reckoner jobs, among those with a healthy lane while there is one (R41, R47). -/
def signDie (s : State) : Nat :=
  let ok := (liveDies s).filter fun d => healthy (getDie s d) 1 0 none
  (leastDie (rqLoad s) (if ok = [] then liveDies s else ok)).getD 0

/-- A signing job with a key enters the Reckoner queue of a die, at class 3. -/
def startOwn (j : Job) (k : KeySlot) (s : State) : State :=
  queueLane s.nextJob { s with
    jobs := mset s.jobs s.nextJob { j with ring := ownRing, d := ⟨fit 64 [0x20]⟩, die := signDie s, phase := .engine, takenAt := s.time.now, key := some k }
    nextJob := s.nextJob + 1 }

/-- The job that signs the record of a draw; `tmp` is the host job that waits for it, plus 1. -/
def startSign (d : Draw) (hostJob : Nat) (s : State) : State := startOwn { psn := d.id, tmp := hostJob } (slotOf (crownBank s) d.handle) s

/-- A signing job exists for a draw. -/
def signStarted (s : State) (drawId : Nat) : Bool := s.jobs.any fun j => j.2.ring = ownRing && j.2.batch.isNone && j.2.psn = drawId

/-- A signing job exists for a batch. -/
def batchStarted (s : State) (no : Nat) : Bool := s.jobs.any fun j => j.2.batch = some no

/-- Every batch that waits for its signature has a signing job (R198). -/
def startBatchSigns (s : State) : State :=
  (s.signQ.filter fun b => b.sig.isNone && !batchStarted s b.no).foldl (fun s b => match batchKey s b with
    | some k => startOwn { batch := some b.no } k s
    | none => s) s

/-- Signing jobs whose batch does not wait for a signature any more are dropped. -/
def dropBatchSigns (s : State) : State :=
  (s.jobs.filter fun j => j.2.batch.any fun n => !(s.signQ.any fun b => b.no = n && b.sig.isNone)).foldl
    (fun s j => startLanes j.2.die (let s1 := unplace j.1 s; { s1 with jobs := mdel s1.jobs j.1 })) s

/-- The verified signature of a batch (R198, R277): it leaves with those that closed before it. -/
def batchEnd (id : Nat) (s : State) : State :=
  let x := getJob s id
  let s0 := freeLane id s
  let s1 := { s0 with jobs := mdel s0.jobs id }
  match s1.signQ.find? fun b => x.batch = some b.no && b.sig.isNone with
  | none => s1
  | some b =>
    match batchKey s1 b with
    | none => s1
    | some k =>
      let g := deviceSign x.die k b.key (batchMessage b k.alg) s1
      releaseSigned g.2.signQ.length { g.2 with signQ := g.2.signQ.map fun c => if c.no = b.no then { c with sig := some (k.alg, g.1) } else c }

/-- BATCH_SIGNED: the lane of the oldest batch that waits for its signature has made and verified it. -/
def signBatch (s : State) : State :=
  match s.signQ.find? (·.sig.isNone) with
  | none => s
  | some b =>
    match s.jobs.find? fun j => j.2.batch = some b.no && (laneOf s j.1).isSome with
    | some j => batchEnd j.1 s
    | none => s

/-- The host job whose draw record waits to be signed completes: the record, then the outcome, to DST (R245, R251). -/
def endDrawJob (id : Nat) (d : Draw) (record : Bytes) (s : State) : State :=
  let x := getJob s id
  if x.d.op = 0x99 then finishJob id stOk 0 (leBytes 8 d.id) (if 320 ≤ x.d.aux then record else []) s
  else finishJob id (if d.flagged then stFlagged else stOk) 0 (leBytes 8 d.id) (record ++ d.outcome) s

/-- The draw that a signing job is for. -/
def signedDraw (s : State) (x : Job) : Option Draw :=
  match (if x.tmp = 0 then none else (getJob s (x.tmp - 1)).draw) with
  | some d => if (s.draws.any (·.id = d.id)) then s.draws.find? (·.id = d.id) else some d
  | none => s.draws.find? (·.id = x.psn)

/-- The record of a draw is made: it is stored with the draw, and a waiting job completes. -/
def recordEnd (die hostJob : Nat) (d : Draw) (s : State) : State :=
  let r := makeRecord die d s
  let s1 := modDraw d.id (fun y => { y with record := r.1, signing := false }) r.2
  if hostJob = 0 then s1 else endDrawJob (hostJob - 1) d r.1 s1

/-- The lane ends a signature of the device's own. -/
def signEnd (id : Nat) (s : State) : State :=
  let x := getJob s id
  if x.batch.isSome then batchEnd id s else
  let s0 := freeLane id s
  let s1 := { s0 with jobs := mdel s0.jobs id }
  match signedDraw s0 x with
  | none => s1
  | some d => recordEnd x.die x.tmp d s1

/-! ## DRAW and SHUFFLE (R240 to R250) -/

/-- The draw that a job asks for, with its acceptance Stamp. -/
def drawOf (s : State) (x : Job) : Draw :=
  { id := x.psn, tenant := x.tenant, fn := x.fn, op := drawOp x.d, n1 := x.d.f 36 4, count := drawCount x.d, game := x.d.f 34 2
    sched := scheduled x.d, host := drawHost x, flagged := !scheduled x.d && !(x.stamp.flags.testBit 0)
    target := if scheduled x.d then targetOf x.d.targetField x.epoch else 0
    limit := holdLimit x.d, handle := x.d.handle, w := x.d.f 44 4, defn := fit 48 x.src
    stamp := if scheduled x.d then pkgStamp s else x.stamp, epoch := x.epoch, accAt := s.time.now }

/-- The pending entry is in the image, or need not be (R505): the commitment leaf may be appended. -/
def commitReady (id : Nat) (s : State) : State :=
  match (getJob s id).draw with
  | none => s
  | some d =>
    modJob id (fun x => { x with phase := .sequenced, leaf := some (drawLeaf s 0x10 d), st := stOk, info := 0, result := leBytes 8 d.id
                                 data := if x.d.dst = 0 then [] else d.commitHead })
      (modDraw d.id (fun y => { y with imaged := true }) s)

/-- Acceptance of a scheduled draw: the store is reserved and the pending entry with the commitment's header is to be written (R246). -/
def acceptDraw (id : Nat) (s : State) : State :=
  let x := getJob s id
  let d0 := drawOf s x
  let d := { d0 with commitHead := drawHeader 0x10 d0 (signHandle s d0.handle) }
  let s1 := modJob id (fun y => { y with draw := some d, phase := .wait 14, waitT := s.time.now }) { s with draws := putDraw d s.draws }
  if imageless s then commitReady id s1 else s1

/-- Changes the draw DRBG of a place on a die. -/
def setInst (die index : Nat) (f : Drbg → Drbg) (s : State) : State :=
  modDie die (fun d => { d with drawDrbgs := d.drawDrbgs.map fun i => if i.index = index then { i with drbg := f i.drbg } else i }) s

/-- n bytes of output of the draw DRBG of a place on a die (R237). -/
def drawBytes (die index n : Nat) (s : State) : Bytes × State :=
  let g := (((getDie s die).drawDrbgs.find? (·.index = index)).map (·.drbg)).getD {}
  let r := g.stream 32 n
  (r.1, setInst die index (fun _ => r.2) s)

/-- The place of the draw DRBG that a job holds. -/
def instOf (s : State) (id : Nat) : Nat := (((getDie s (getJob s id).die).drawDrbgs.find? (·.busy = some id)).map (·.index)).getD 32

/-- A draw reseeds its DRBG with prediction resistance and goes to the mapper, or waits for entropy (R234, R245). -/
def drawSeed (id : Nat) (s : State) : State :=
  let x := getJob s id
  match takeSeed x.die s with
  | none => awaitEntropy id s
  | some r =>
    let d := { x.draw.getD {} with die := x.die, exec := s.time.epoch, seedDig := seedDigest x.psn r.1, runStamp := jobStamp s x }
    setInst x.die (instOf s id) (·.reseed r.1) (modJob id (fun y => { y with phase := .engine, draw := some d, hostRun := d.host, flagged := d.flagged }) r.2)

/-- DRAW or SHUFFLE with its source held. -/
def drawGo (id : Nat) (s : State) : State :=
  let x := getJob s id
  if scheduled x.d then acceptDraw id s
  else if (x.draw).isSome then drawSeed id s
  else drawSeed id (modJob id (fun y => { y with draw := some (drawOf s x) }) s)

/-- Words that the mapper may take: twice the count, and 64 more; beyond them it has exceeded its worst-case time (R46). -/
def mapWords (count : Nat) : Nat := 2 * count + 64

/-- The outcome of a draw from the draw DRBG of a place on a die; none when the mapper exceeds its time (R237, R238). -/
def mapOn (die index : Nat) (d : Draw) (s : State) : Option Bytes × State :=
  let o := drawBytes die index (8 * mapWords d.count) s
  ((mapDraw d.op (d.n1 + 1) d.count (wordsOf (mapWords d.count) o.1)).map outcomeBytes, o.2)

/-- The mapper ends an immediate draw (R245, R250). -/
def drawFin (id : Nat) (s : State) : State :=
  let x := getJob s id
  match x.draw with
  | none => s
  | some d =>
    if d.host then
      let o := drawBytes x.die (instOf s id) (8 * d.w) s
      let d1 := { d with wordsDig := wordsDigest d.id o.1 }
      freeInst id (collect id (if d.flagged then stFlagged else stOk) 0 (leBytes 8 d.id) o.1 (some (drawLeaf o.2 0x13 d1))
        (modJob id (fun y => { y with draw := some d1 }) o.2))
    else
      let o := mapOn x.die (instOf s id) d s
      match o.1 with
      | none => freeInst id (collect id stRetry 0 [] [] none (modJob id (fun y => { y with draw := none }) o.2))
      | some ob =>
        let d1 := { d with outcome := ob, outDig := outcomeDigest ob, st := 3 }
        collect id stOk 0 [] [] (some (drawLeaf o.2 0x11 d1)) (freeInst id (modJob id (fun y => { y with draw := some d1 }) o.2))

/-- DRAW and SHUFFLE (R240). -/
def drawSem (shuf : Bool) : OpSem where
  pfOnly := anyFn
  resv d := reservedBad d ((if shuf then [32, 40, 41] else []) ++ span 48 55 ++ [62, 63])
  fenced := anyFn
  keyed := pfOnly
  src := true
  len _ _ := []
  own := drawOwn
  go := drawGo
  fin := drawFin

/-! ## Scheduled draws at their target (R247, R248) -/

/-- A result or void leaf of the device's own joins the order of eligibility (R187). -/
def leafOut (d : Draw) (leaf : Leaf) (s : State) : State :=
  let s1 := modDraw d.id (fun _ => { d with leaf := some leaf }) s
  { s1 with elig := s1.elig ++ [.draw d.id] }

/-- A draw ends void with a reason: a void leaf, a record (R248). EXEC, STAMP and DIE of a host-assisted draw are those of its words; of a scheduled
draw, whose entropy was never taken, they are this epoch, this instant and 0 (DESIGN CHOICE, log entry 34). -/
def voidDraw (d : Draw) (reason : Nat) (s : State) : State :=
  let d0 := { d with st := 4, void := reason, due := none, waitT := none, outcome := [] }
  let d1 := if d.host then d0 else { d0 with exec := s.time.epoch, runStamp := pkgStamp s, die := 0 }
  leafOut d1 (drawLeaf s 0x12 d1) s

/-- A due draw is held (R248). -/
def Draw.hold (d : Draw) : Draw := { d with st := 1, heldOnce := true, due := none, waitT := none }

/-- A draw as it was before its die was chosen: seed, words and outcome are wiped, and no leaf of the run exists (R51, R235, R257). -/
def Draw.undo (d : Draw) : Draw :=
  { d with st := if d.heldOnce then 1 else 0, leaf := none, die := 0, exec := 0, runStamp := {}, seedDig := [], outDig := [], outcome := [] }

/-- The result leaf of a scheduled draw has not been appended yet: it is in steps 3 to 5 of R247. -/
def Draw.inRun (d : Draw) : Bool := d.sched && d.st = 3 && d.leaf.isSome

/-- A live die with entropy holds an instance of the tenant (R247 step 1). -/
def drawPossible (s : State) (t : Nat) : Bool := (holding s t).any fun d => (getDie s d).rngReady && entropyUp (getDie s d)

/-- Start of the boundary of an epoch in TAI ns. -/
def boundaryNs (s : State) (e : Nat) : Nat :=
  (s.ecfg.origin + e / s.ecfg.k) * 1000000000 + e % s.ecfg.k * (1000000000 / s.ecfg.k)

/-- The close test of R247 step 2: the boundary time less U is at or after the game's close. -/
def salesClosed (s : State) (d : Draw) (b : Nat) : Bool :=
  d.game = 0 || (match ((mget (crownBank s).close d.tenant).getD []).find? (·.game = d.game) with
    | some e => e.seconds * 1000000000 + e.ns ≤ boundaryNs s b - uncertainty s
    | none => true)

/-- HOLD_LIMIT_S has passed since TARGET, or since acceptance of a host-assisted draw (R248, R251). -/
def limitPassed (s : State) (d : Draw) (b : Nat) : Bool :=
  if d.sched then boundaryNs s d.target + d.limit * 1000000000 ≤ boundaryNs s b
  else d.accAt + d.limit * 1000000000 ≤ s.time.now

/-- Steps 1 and 2 of R247 for one draw at boundary b, and the void rules of R248, R251 and R253. A scheduled draw whose commitment leaf is not
appended yet waits for it (R246; log entry 79). -/
def drawAt (b : Nat) (d : Draw) (s : State) : State :=
  if d.st = 2 then (if limitPassed s d b then voidDraw d 4 s else s)
  else if !(d.sched && d.st ≤ 1 && d.due = none && d.committed) then s
  else if d.passed then voidDraw d 3 s
  else if b < d.target then s
  else if limitPassed s d b then voidDraw d 1 s
  else if !(pkgTrusted s) || s.locked || !drawPossible s d.tenant then modDraw d.id (·.hold) s
  else if !salesClosed s d b then voidDraw d 2 s
  else modDraw d.id (fun y => { y with due := some b, waitT := none }) s

/-- Commitments of restored draws are stated again before any draw of the boundary runs (R254). -/
def restateDraws (s : State) : State :=
  settle { s with elig := s.elig ++ (s.draws.filter fun d => d.restate && !s.elig.contains (.restate d.id)).map fun d => .restate d.id }

/-- Item 3 of R77: restatements first, then every draw in DRAW_ID order, held ones before newly targeted ones (R247, R248, R254, R257). -/
def drawsAt (b : Nat) (s : State) : State :=
  let s1 := restateDraws s
  let old (d : Draw) : Bool := d.st = 1 || d.target < b
  settle ((s1.draws.filter old ++ s1.draws.filter fun d => !old d).foldl (fun s d => drawAt b d s) s1)

/-- The die that a due draw would take (R239). -/
def dueDie (s : State) (d : Draw) : Option Nat := leastDie (dieLoad s) ((holding s d.tenant).filter (drawReady s d.tenant))

/-- The order in which due draws start: by boundary, held ones before newly targeted ones, then by DRAW_ID (R247, R257). -/
def Draw.sooner (d e : Draw) : Bool :=
  let a := d.due.getD 0
  let b := e.due.getD 0
  let x := decide (d.target < a)
  let y := decide (e.target < b)
  a < b || (a = b && ((x && !y) || (x = y && d.id < e.id)))

/-- Another due draw that can start comes first. -/
def notFirst (s : State) (d : Draw) : Bool := s.draws.any fun e => e.due.isSome && e.waitT.isNone && (dueDie s e).isSome && e.sooner d

/-- A due draw begins to wait for entropy, or goes on waiting (R234). -/
def waitDraw (id : Nat) (s : State) : State := modDraw id (fun y => { y with waitT := some (y.waitT.getD s.time.now) }) s

/-- Steps 3 and 4 of R247 on a die with a seed, and the result leaf, which is appended next (step 5); EXEC is the boundary. -/
def runDraw (d : Draw) (b die : Nat) (seed : Bytes) (s : State) : State :=
  let index := (((getDie s die).drawDrbgs.find? fun i => i.tenant = d.tenant && i.busy = none && i.ready).map (·.index)).getD 32
  let o := mapOn die index d (setInst die index (·.reseed seed) s)
  match o.1 with
  | none => o.2
  | some ob =>
    let d1 := { d with st := 3, due := none, waitT := none, die := die, exec := b, runStamp := pkgStamp s
                       seedDig := seedDigest d.id seed, outcome := ob, outDig := outcomeDigest ob }
    leafOut d1 (drawLeaf s 0x11 d1) o.2

/-- A due draw takes its die and its seed, or waits for entropy. In HOLD no draw starts (R458). -/
def executeDraw (id : Nat) (s : State) : State :=
  if s.hold then s else
  match s.draws.find? (·.id = id) with
  | none => s
  | some d =>
    match d.due with
    | none => s
    | some b =>
      match dueDie s d with
      | none => if drawPossible s d.tenant then s else waitDraw id s
      | some die =>
        if notFirst s d then s else
        match takeSeed die s with
        | none => waitDraw id s
        | some r => runDraw d b die r.1 r.2

/-! ## DRAW_MAP and DRAW_QUERY (R251, R252) -/

/-- The pending host-assisted draw that DRAW_MAP names. -/
def mapTarget (s : State) (x : Job) : Option Draw := s.draws.find? fun d => d.id = x.d.f 32 8 && d.tenant = x.tenant && d.host && d.st = 2

/-- The checks of DRAW_MAP at admission, in its own order. -/
def drawMapOwn (s : State) (x : Job) : List Fail :=
  failIf (1 < x.d.f 40 1) stInput 40 ++
  (match mapTarget s x with
    | none => [⟨stInput, 0xA9⟩]
    | some d => if x.d.indirect then [] else failIf (x.d.srcLen ≠ 8 * d.w + (if x.d.f 40 1 = 0 then 4 * d.count else 0)) stLength 4)

/-- DRAW_MAP with its source held: digest, mapping, then the leaf. -/
def drawMapGo (id : Nat) (s : State) : State :=
  let x := getJob s id
  match mapTarget s x with
  | none => finishJob id stInput 0xA9 [] [] s
  | some d =>
    let ex := x.d.f 40 1 = 1
    if x.srcLen ≠ 8 * d.w + (if ex then 0 else 4 * d.count) then finishJob id stLength 4 [] [] s else
    let words := x.src.take (8 * d.w)
    let host := x.src.drop (8 * d.w)
    if wordsDigest d.id words ≠ d.wordsDig then finishJob id stInput 0xAA [] [] s else
    let out := (mapDraw d.op (d.n1 + 1) d.count (wordsOf d.w words)).map outcomeBytes
    if (if ex then out.isSome else out ≠ some host) then finishJob id stInput 0xA8 [] [] s else
    let d1 : Draw := if ex then { d with st := 4, void := 5 } else { d with st := 3, outcome := host, outDig := outcomeDigest host }
    modJob id (fun y => { y with phase := .sequenced, leaf := some (drawLeaf s (if ex then 0x12 else 0x11) d1), draw := some d1, die := 0 })
      (modDraw d.id (fun _ => d1) s)

/-- DRAW_MAP (R251). -/
def drawMapSem : OpSem where
  pfOnly := anyFn
  resv d := reservedBad d (offHandle ++ span 41 63)
  fenced := anyFn
  keyed := anyFn
  src := true
  len _ _ := []
  own := drawMapOwn
  go := drawMapGo
  fin _ s := s

/-- STATE that DRAW_QUERY shows: a draw that is due or whose record is not yet signed is still on its way. -/
def Draw.shown (d : Draw) : Nat := if d.resolved then d.st else if d.host then 2 else if d.heldOnce then 1 else 0

/-- The draw that DRAW_QUERY names. -/
def queryDraw (s : State) (x : Job) : Option Draw := s.draws.find? fun d => d.id = x.d.f 32 8 && d.tenant = x.tenant

/-- What DRAW_QUERY writes. -/
def Draw.outBytes (d : Draw) : Bytes := if d.resolved && d.st ≠ 5 then d.record ++ d.outcome else []

/-- DRAW_QUERY answers, or waits while WAIT = 1 and the draw is not resolved. -/
def drawQueryGo (id : Nat) (s : State) : State :=
  let x := getJob s id
  match queryDraw s x with
  | none => finishJob id stInput 0xA9 [] [] s
  | some d =>
    if (x.d.f 40 1).testBit 0 && !d.resolved then modJob id (fun y => { y with phase := .wait 15 }) s
    else if x.d.aux < d.outBytes.length then finishJob id stLength 3 [] [] s
    else
      okJob id ([byte d.shown] ++ zeros 3 ++ leBytes 4 d.outBytes.length) d.outBytes
        (if (x.d.f 40 1).testBit 1 && d.resolved then { s with draws := s.draws.filter (·.id ≠ d.id) } else s)

/-- DRAW_QUERY (R252). -/
def drawQuerySem : OpSem where
  pfOnly := anyFn
  resv d := match reservedBad d (span 4 19) with
    | some i => some i
    | none => if d.f 40 1 / 4 ≠ 0 then some 40 else firstNonzero d.bytes (span 41 63)
  fenced := anyFn
  keyed := anyFn
  src := false
  len _ _ := []
  own s x := failIf ((queryDraw s x).isNone) stInput 0xA9
  go := drawQueryGo
  fin _ s := s

/-! ## What follows other events -/

/-- Signing jobs are started for draws and draw jobs whose leaf has been appended; a record that cannot be signed is made at once (R244, R245). -/
def startSigns (s : State) : State :=
  let begin (d : Draw) (hostJob : Nat) (s : State) : State :=
    if signStarted s d.id then s else if unsignedReason s d.handle ≠ 0 then recordEnd 0 hostJob d s else startSign d hostJob s
  let s1 := (s.jobs.filter fun j => j.2.phase = .wait 13).foldl (fun s j =>
    match signedDraw s { tmp := j.1 + 1 } with
    | some d => begin d (j.1 + 1) s
    | none => s) s
  (s1.draws.filter (·.signing)).foldl (fun s d => begin d 0 s) s1

/-- DRAW_QUERY commands that wait answer once their draw is resolved. -/
def settleQueries (s : State) : State :=
  (s.jobs.filter fun j => j.2.phase = .wait 15).foldl (fun s j => drawQueryGo j.1 s) s

/-- A signing job of the device's own that has failed twice is placed again on another live die (R278). -/
def replaceSigns (s : State) : State :=
  (s.jobs.filter fun j => j.2.ring = ownRing && j.2.phase = .collector).foldl (fun s j =>
    let others := (liveDies s).filter fun d => d ≠ j.2.die && healthy (getDie s d) 1 0 none
    let die := (leastDie (rqLoad s) others).getD (signDie s)
    queueLane j.1 (modJob j.1 (fun x => { x with die := die, moved := false, bar := none, phase := .engine }) (unplace j.1 s))) s

/-- Batches that can leave the queue do, and every other one has its signing job. -/
def settleBatches (s : State) : State := startBatchSigns (dropBatchSigns (releaseSigned s.signQ.length s))

/-- Everything that follows from leaves, records and roots that have become possible: the sequencer's drain, the ledger rings, the signatures of
records and batches, proofs, queries and LDG_QUIESCE. -/
def settleAll (s : State) : State :=
  quiescePoll (settleProofs (settleQueries (startSigns (settleBatches (flushRings (settle (replaceSigns s)))))))

/-! ## Requests that wait for entropy (R228, R234) -/

/-- Requests on a die that wait for its entropy, with the reading from which they wait: a draw's seed, of a job or of the device's own. -/
def seedWaiters (die : Nat) (s : State) : List (Nat × Elig) :=
  (s.draws.filterMap fun d => if d.due.isSome then d.waitT.map fun w => (w, .draw d.id) else none)
    ++ (s.jobs.filter fun j => j.2.phase = .wait 10 ∧ j.2.die = die ∧ (j.2.d.op = 0x20 ∨ j.2.d.op = 0x21)).map fun j => (j.2.waitT, .job j.1)

/-- The jobs of a die that wait for entropy and are no draws: with prediction resistance, or with a reseed that a counter forces. -/
def reseedWaiters (die : Nat) (pr : Bool) (s : State) : List (Nat × Elig) :=
  (s.jobs.filter fun j => j.2.phase = .wait 10 ∧ j.2.die = die ∧ j.2.d.op ≠ 0x20 ∧ j.2.d.op ≠ 0x21
    ∧ decide (j.2.d.op = 0x22 ∧ j.2.d.f 36 1 = 1) = pr).map fun j => (j.2.waitT, .job j.1)

/-- Inserts a request after those that wait at least as long. -/
def byWait (x : Nat × Elig) : List (Nat × Elig) → List (Nat × Elig)
  | [] => [x]
  | y :: l => if x.1 < y.1 then x :: y :: l else y :: byWait x l

/-- Requests in the order in which they were made. -/
def inTime (l : List (Nat × Elig)) : List (Nat × Elig) := l.foldl (fun acc x => byWait x acc) []

/-- A request has waited 10 ms for entropy: ENTROPY_FAIL, or a scheduled draw is held; a signature of the device's own waits on (R234, R239, R248). -/
def entropyTimeout (id : Nat) (s : State) : State :=
  match mget s.jobs id with
  | some x =>
    if (x.phase = .wait 10 ∨ x.phase = .wait 12) ∧ x.waitT + 10000000 ≤ s.time.now then finishJob id stEntropy 0 [] [] s
    else if x.ring ≠ ownRing ∧ x.entWait.any (· + 10000000 ≤ s.time.now) ∧ (getDie s x.die).rq.contains id then
      collect id stEntropy 0 [] [] none (modDie x.die (fun d => { d with rq := d.rq.filter (· ≠ id), fetching := d.fetching.filter (· ≠ id) }) s)
    else s
  | none => modDraw id (fun d => if d.due.isSome && d.waitT.any (· + 10000000 ≤ s.time.now) then d.hold else d) s

/-- ENTROPY_WAIT_TIMEOUT (R234). -/
def execEntropyWaitTimeout (t job : Nat) (s : State) : Host.Outcome State Fault Refusal :=
  .next (settleAll (entropyTimeout job (tick t s)))

/-- A waiting immediate draw is tested again (R239). -/
def drawPlacement (job : Nat) (s : State) : State :=
  match mget s.jobs job with
  | none => s
  | some x =>
    if x.phase = .wait 11 ∨ x.phase = .wait 12 then
      match drawPlace s x.tenant with
      | .fail i => finishJob job stNotReady i [] [] s
      | .die d => placeDraw job d s
      | .wait => modJob job (fun y => { y with phase := .wait 11 }) s
      | .waitEntropy => modJob job (fun y => { y with phase := .wait 12, waitT := if y.phase = .wait 12 then y.waitT else s.time.now }) s
    else s

/-- DRAW_PLACEMENT (R239). -/
def execDrawPlacement (t job : Nat) (s : State) : Host.Outcome State Fault Refusal :=
  .next (settleAll (drawPlacement job (tick t s)))

/-- SCHEDULED_DRAW_EXECUTE (R247). -/
def execScheduledDrawExecute (t drawId : Nat) (s : State) : Host.Outcome State Fault Refusal :=
  .next (settleAll (executeDraw drawId (tick t s)))

end Sys2Proof.Machine
end

