-- ==== Sys2Proof/Machine/KeyTree.lean ====
section
/-! DEFINITION. The key tree and the key store: derivation, material and its validation, slot allocation, scrubbing of jobs, erasure, the
persistent image and what waits for its writes (R288 to R301, R304, R309, R505). -/

namespace Sys2Proof.Machine

/-! ## Derivation (R288 to R290) -/

/-- KDF (R289): n output bytes. -/
def kdf (k : Bytes) (label : String) (context : Bytes) (n : Nat) : Bytes := beBytes n (Config.kmac256 k context (8 * n) label)

/-- LCS code (R347). -/
def Lcs.code : Lcs → Nat
  | .blank => 1
  | .test => 2
  | .provision => 3
  | .field => 4
  | .ret => 5
  | .scrap => 6
  | .invalid => 0x0F

/-- MN under a key-world digest, while PR is held. -/
def mnOf (s : State) (kw : Bytes) : Option Bytes :=
  s.vault.pr.map fun pr => kdf pr "XZMEAS" (leBytes 1 s.lcs.code ++ beBytes 48 (Config.romDigest s.rev).toNat ++ kw) 32

/-- MN of the running key world. -/
def mn (s : State) : Option Bytes := mnOf s s.vault.kw

/-- TR_t; zeros while it cannot be formed (jobs answer NOT_READY then, R288). -/
def tenantRoot (s : State) (t : Nat) : Bytes := kdf ((mn s).getD (zeros 32)) "XZTENANT" (leBytes 2 t ++ (getTenant s t).salt.getD (zeros 16)) 32

/-- C of R290. -/
def attrContext (k : KeySlot) : Bytes :=
  leBytes 1 (if k.purpose = 2 then 1 else k.purpose) ++ leBytes 1 (bit k.wide 0) ++ leBytes 1 k.alg ++ leBytes 2 k.game ++ leBytes 6 k.first
    ++ leBytes 6 k.last ++ leBytes 4 k.index

/-- Bytes that a derivation or a generation takes for a key: those of R290. -/
def materialLen (k : KeySlot) (curve : Bytes) : Nat :=
  if !k.wide then 32 else
  match curveOf k.alg curve with
  | some c => cdiv (bitlen c.n + 64) 8
  | none => if k.alg = 5 then 57 else 32

/-- Material from uniform bytes: d := (c mod (n − 1)) + 1 for a curve, else the bytes themselves (R290). -/
def materialOf (k : KeySlot) (curve raw : Bytes) : Bytes :=
  if !k.wide then raw else
  match curveOf k.alg curve with
  | some c => beBytes (orderLen c) (beNat raw % (c.n - 1) + 1)
  | none => raw

/-- Material of a derived key (R290). -/
def deriveMat (s : State) (k : KeySlot) (curve : Bytes) : Bytes :=
  materialOf k curve (kdf (tenantRoot s k.tenant) "XZUSE" (attrContext k) (materialLen k curve))

/-- The curve block that an algorithm of a tenant names. -/
def blockOf (s : State) (t alg : Nat) : Bytes := if tableAlg alg then (mget (crownBank s).curves (t * 16 + (alg - 0x20))).getD [] else []

/-! ## RSA material (R304) -/

/-- Half the modulus length, as the length of RSA material gives it. -/
def rsaHalf (m : Bytes) : Nat := (m.length - 4) / 5

/-- Part i of p, q, dp, dq, qinv. -/
def rsaPart (m : Bytes) (i : Nat) : Nat := beNat (slice m (i * rsaHalf m) (rsaHalf m))

/-- e. -/
def rsaE (m : Bytes) : Nat := beNat (m.drop (5 * rsaHalf m))

/-- A legal modulus size (R260). -/
def rsaSize (bits : Nat) : Bool := 2048 ≤ bits && bits ≤ 8192 && bits % 64 = 0

/-- The checks of R304 on RSA material, with bases for the 64 rounds on p and q. -/
def rsaOk (m : Bytes) (bp bq : List Bytes) : Bool :=
  let p := rsaPart m 0
  let q := rsaPart m 1
  m.length = 5 * rsaHalf m + 4 && isPrime p bp && isPrime q bq && rsaSize (bitlen (p * q)) && bitlen (p * q) = 16 * rsaHalf m
    && rsaE m % 2 = 1 && 3 ≤ rsaE m && rsaE m * rsaPart m 2 % (p - 1) = 1 && rsaE m * rsaPart m 3 % (q - 1) = 1 && q * rsaPart m 4 % p = 1

/-- The public half of private material in the encoding of R262. -/
def publicKey (alg : Nat) (curve m : Bytes) : Bytes :=
  match curveOf alg curve with
  | some c => match ptMul c (bitlen c.n) (beNat m) (some (c.gx, c.gy)) with
    | some q => [4] ++ beBytes (fieldLen c) q.1 ++ beBytes (fieldLen c) q.2
    | none => []
  | none => if alg = 6 then beBytes (2 * rsaHalf m) (rsaPart m 0 * rsaPart m 1) ++ beBytes 4 (rsaE m)
            else fit (pubLen alg 0 []) (Config.publicOf alg curve m)

/-- Imported material is valid for its key (R304). -/
def materialOk (k : KeySlot) (curve m : Bytes) (bp bq : List Bytes) : Bool :=
  if !k.wide then m.length = 32 else
  match curveOf k.alg curve with
  | some c => m.length = orderLen c && 1 ≤ beNat m && beNat m ≤ c.n - 1
  | none => if k.alg = 6 then rsaOk m bp bq else m.length = (if k.alg = 5 then 57 else 32)

/-- A slot with private material put into it. -/
def withMaterial (k : KeySlot) (curve m : Bytes) : KeySlot :=
  { k with
    mat := m, pub := if k.wide then publicKey k.alg curve m else []
    rsaLen := if k.wide ∧ k.alg = 6 then 2 * rsaHalf m else 0
    span := if k.wide then (if k.alg = 6 then cdiv (m.length) 768 else 1) else 0 }

/-- A public-only slot with a key put into it. -/
def withPublic (k : KeySlot) (pub : Bytes) : KeySlot :=
  { k with mat := [], pub := pub, rsaLen := if k.alg = 6 then pub.length - 4 else 0, span := 1 }

/-! ## Slots (R292, R294, R297) -/

/-- Changes of key slots that are staged or scheduled. -/
def keyChanges (s : State) : List (Nat × Nat × KeySlot) :=
  s.fence.flatMap fun f => f.changes.filterMap fun c => match c.2 with
    | .key n k _ => some (f.target, n, k)
    | _ => none

/-- The staged change of a slot: its target and the contents at it. -/
def slotPending (s : State) (n : Nat) : Option (Nat × KeySlot) := ((keyChanges s).find? (·.2.1 = n)).map fun c => (c.1, c.2.2)

/-- A command that waits for its image write holds a change of the slot. -/
def slotWaiting (s : State) (n : Nat) : Bool := s.jobs.any fun j => j.2.phase = .wait 20 && (j.2.slot.any fun k => k.1 = n)

/-- A slot may not be rotated or destroyed on schedule: a change is staged, or a die still holds a superseded generation (R297). -/
def slotBusy (s : State) (n : Nat) : Bool :=
  (slotPending s n).isSome || slotWaiting s n || s.dies.any fun d => d.live && d.held.any (·.1 = n)

/-- The lowest free narrow slot (R292). -/
def lowestSlot (s : State) : Option Nat :=
  let busy := ((crownBank s).slots.filter fun k => k.2.st ≠ 0).map (·.1) ++ (slotsComing s).map (·.1)
  ((List.range (busy.length + 1)).find? fun n => !busy.contains n).filter (· < 65536)

/-- The lowest free run of wide slots (R292). -/
def lowestWide (s : State) (span : Nat) : Option Nat :=
  let used := ((slotsHeld s).filter fun k => k.2.wide).map fun k => (k.2.wideIdx, k.2.span)
  let free (w : Nat) : Bool := w + span ≤ 2048 && used.all fun u => w + span ≤ u.1 || u.1 + u.2 ≤ w
  (((0 :: used.map fun u => u.1 + u.2).filter free).foldl insertNat []).head?

/-- A destroyed slot: EMPTY with its generation advanced, or RETIRED at the last generation (R294). -/
def clearedSlot (k : KeySlot) : KeySlot := if k.gen = 0xFFFF then { gen := 0xFFFF, st := 4 } else { gen := k.gen + 1 }

/-! ## Jobs stopped by an erasure (R38, R320) -/

/-- A job ends with a status wherever it is; an instance that it holds is freed. -/
def stopJob (id st info : Nat) (s : State) : State := finishJob id st info [] [] (unplace id s)

/-- The job uses its key: admitted and not past its engine. -/
def Job.usesKey (x : Job) (slots : List Nat) : Bool :=
  x.d.handle ≠ 0 && x.key.isSome && slots.contains (x.d.handle % 65536) && (x.phase = .table || x.phase = .source || x.phase = .engine)

/-- Admitted jobs that use one of the slots complete with ABORTED (R38, R320). -/
def abortUsers (slots : List Nat) (except : Nat) (s : State) : State :=
  (s.jobs.filter fun j => j.1 ≠ except && j.2.ring ≠ ownRing && j.2.usesKey slots).foldl (fun s j => stopJob j.1 stAborted 0 s) s

/-- Withdraws the staged changes of slots; their commands complete with ABORTED. -/
def dropKeyChanges (slots : List Nat) (s : State) : State :=
  let hit : Change → Bool := fun c => match c with
    | .key n _ _ => slots.contains n
    | _ => false
  let ids := (s.fence.flatMap fun f => (f.changes.filter fun c => hit c.2).map (·.1)).filter fun j => (getJob s j).phase = .fence
  ids.foldl (fun s j => finishJob j stAborted 0 [] [] s) (dropChanges (fun _ c => hit c.2) s)

/-- Clears slots at once on every die: engine registers, key caches, replicas (R307, R309). -/
def clearSlots (slots : List Nat) (except : Nat) (s : State) : State :=
  let s1 := dropKeyChanges slots (abortUsers slots except s)
  { s1 with dies := s1.dies.map fun (d : Die) => { d with
      cores := d.cores.map fun c => { c with cache := c.cache.filter fun k => !slots.contains k.1 }
      held := d.held.filter fun h => !slots.contains h.1
      bank := { d.bank with slots := slots.foldl (fun m n => mset m n (clearedSlot ((mget m n).getD {}))) d.bank.slots } } }

/-! ## Superseded generations (R297) -/

/-- An admitted job on the die has not yet loaded this generation of a slot. -/
def notLoaded (s : State) (die slot gen : Nat) : Bool :=
  let d := getDie s die
  s.jobs.any fun j => j.2.die = die && j.2.d.handle = gen * 65536 + slot && j.2.key.isSome
    && (j.2.phase = .table || j.2.phase = .source || (j.2.phase = .engine && (d.macQ.contains j.1 || d.rq.contains j.1)))

/-- After a swap each live die holds on to a superseded generation that some admitted job still has to load. -/
def holdOld (old : KMap KeySlot) (s : State) : State :=
  let gone := old.filter fun k => k.2.st = 2 ∧ ((mget (crownBank s).slots k.1).getD {}).gen ≠ k.2.gen
  { s with dies := s.dies.mapIdx fun i (d : Die) =>
      if d.live then { d with
        held := d.held ++ (gone.filter fun k => notLoaded s i k.1 k.2.gen).map fun k => (k.1, k.2.gen)
        cores := d.cores.map (dropStale s d.bank) } else d }

/-- A die drops the superseded generations of a slot whose last job has loaded its key. -/
def dropOld (die slot : Nat) (s : State) : State :=
  modDie die (fun d => { d with held := d.held.filter fun h => h.1 ≠ slot || notLoaded s die h.1 h.2 }) s

/-- GENERATION_DROP (R297). -/
def execGenerationDrop (t die slot : Nat) (s : State) : Host.Outcome State Fault Refusal := .next (dropOld die slot (tick t s))

/-! ## Erasure (R309, R320) -/

/-- Every quorum session ends, its QUORUM_OPEN with ABORTED and INFO 0x01 (R320). -/
def endSessions (s : State) : State :=
  (List.range 4).foldl (fun s r =>
    let q := s.vault.sessions.getD r {}
    let s1 := putSession r {} s
    match q.job with
    | some j => finishJob j stAborted 1 [] [] s1
    | none => s1) s

/-- An admitted job whose leaf is on its way to the journal and not appended yet. -/
def Job.leafComing (x : Job) : Bool := x.leaf.isSome && !x.appended && (x.phase = .collector || x.phase = .ingress || x.phase = .sequenced)

/-- An erasure of the keys ends the job: it runs with a key, its leaf is on its way to the journal, or it is a key command that waits for an image
write. -/
def Job.keyErased (x : Job) : Bool :=
  ((x.key.isSome && x.d.handle ≠ 0) && (x.phase = .table || x.phase = .source || x.phase = .engine || x.leafComing)) || [20, 22, 24, 25].any fun w => x.phase = .wait w

/-- An erasure of the DRBGs ends the job: it runs on one, or waits for entropy (R235, R255). -/
def Job.drbgErased (x : Job) : Bool :=
  x.phase = .wait 10 || (x.d.op = 0x22 && (x.phase = .source || x.phase = .engine)) || (x.draw.isSome && x.phase = .engine)

/-- The admission of a work-ring job failed and its completion has not been posted: an erasure that would have ended the job, had it been
admitted, replaces the result (R18; log entry 88). -/
def Job.refusedWork (x : Job) : Bool := x.phase = .done && x.refused && x.ring ≠ ownRing && queueKind x.ring = 0

/-- Erases every engine key register and replica; jobs running with a key, and those whose leaf is not appended yet, complete with ABORTED, as
do key commands that wait for an image write, which no LK is left for; an urgent destruction has acted and completes; refused jobs whose completion waits are ABORTED too (R18, R38, R179,
R307, R309). -/
def eraseReplicas (s : State) : State :=
  let sr := (s.jobs.filter fun j => j.2.refusedWork && j.2.d.handle ≠ 0).foldl (fun s j => replaceResult j.1 stAborted s) s
  let s0 := (sr.jobs.filter fun j => j.2.phase = .wait 21).foldl (fun s j => okJob j.1 [] [] s) sr
  let s1 := (s0.jobs.filter fun j => j.2.ring ≠ ownRing && j.2.keyErased).foldl (fun s j => stopJob j.1 stAborted 0 s) s0
  let slots := ((crownBank s1).slots.map (·.1)) ++ (keyChanges s1).map (·.2.1)
  let s2 := dropKeyChanges slots s1
  { s2 with dies := s2.dies.map fun (d : Die) => { d with
      bank := { d.bank with slots := [] }, held := [], refetch := [], passing := false
      cores := d.cores.map fun c => { c with cache := [] }
      lanes := d.lanes.map fun u => { u with key := [], suspKey := [], blind := [], suspBlind := [] } } }

/-- Scheduled draws at an ERASE: one that is due or running is held, and its seed, words and outcome are wiped (R235, R248). -/
def eraseDraws (s : State) : State :=
  { s with
    elig := s.elig.filter fun e => !(s.draws.any fun d => d.inRun && e = .draw d.id)
    draws := s.draws.map fun d => if d.inRun then d.undo.hold else if d.due.isSome then d.hold else d }

/-- ERASE on the entropy blocks: jobs that run on a DRBG or wait for entropy complete with ABORTED, scheduled draws that run are held, the DRBGs
are zeroised and the FIFOs emptied (R235). -/
def eraseRandom (s : State) : State :=
  let sr := (s.jobs.filter fun j => j.2.refusedWork && 0x20 ≤ j.2.d.op && j.2.d.op ≤ 0x22).foldl (fun s j => replaceResult j.1 stAborted s) s
  eraseEntropy (eraseDraws ((sr.jobs.filter fun j => j.2.ring ≠ ownRing && j.2.drbgErased).foldl (fun s j => stopJob j.1 stAborted 0 s) sr))

/-- The erasure of R309 for an ERASE response: replicas, MN and PR in SRAM, the DRBGs; sessions end, and batches that wait for their signature
are written unsigned with reason 2 (R220, R235, R286, R320). LK is left to the caller. -/
def eraseKeys (s : State) : State :=
  let s1 := endSessions (flushUnsigned 2 (eraseRandom (eraseReplicas s)))
  { s1 with vault := { s1.vault with pr := none, alt := none } }

/-- LK is overwritten or lost (R309). -/
def loseLk (s : State) : State := { s with lining := { s.lining with lk := none } }

/-! ## The persistent image (R299, R505) -/

/-- What the image holds when it is written now. -/
def imageNow (s : State) (lk : Bytes) : Image :=
  { ver := s.lining.imgCount + 1, lk := lk, mn := mn s, alt := s.vault.alt
    slots := (crownBank s).slots
    pend := (s.fence.flatMap fun f => f.changes.map (·.2)).filter (·.imaged)
    salts := s.tenants.filterMap fun t => t.2.salt.map fun x => (t.1, x)
    rosters := s.vault.rosters, auths := s.authorities, epc := s.epc, psn := s.psnCeil, period := s.rngPeriod
    config := ((0xFFFF, s.pkg) :: s.ledgers).map fun l => (l.1, (l.2.key, l.2.batch, l.2.deadline))
    ckpt := match s.ckptReq with
      | some c => some c
      | none => (s.images.head?).bind (·.ckpt)
    signedTo := s.time.signedTo
    draws := s.draws.filter fun d => d.sched && d.imaged
    curves := (crownBank s).curves
    tamper := some (s.tamper.classes, s.tamper.enable, s.tamper.high) }

/-- Writes the image into the older flash copy and advances the counter. -/
def putImage (i : Image) (s : State) : State :=
  { s with images := (i :: s.images).take 2, lining := { s.lining with imgCount := i.ver } }

/-- A write of the image as it now stands; without LK there is none. -/
def writeImage (s : State) : State :=
  match s.lining.lk with
  | some lk => putImage (imageNow s lk) s
  | none => s

/-- The copy that a restore accepts: VERSION equal to the counter, or one above it, authenticated under LK (R299). -/
def acceptedImage (s : State) : Option Image :=
  match s.lining.lk with
  | none => none
  | some lk =>
    match s.images.find? fun i => i.ver = s.lining.imgCount + 1 ∧ i.lk = lk with
    | some i => some i
    | none => s.images.find? fun i => i.ver = s.lining.imgCount ∧ i.lk = lk

/-- A command begins to wait for an image write. -/
def awaitImage (why id : Nat) (s : State) : State := modJob id (fun x => { x with phase := .wait why, waitT := s.time.now }) s

/-- NOT_READY while the Crown's KEYGEN, NONCE and BLIND instances are not instantiated (R319, R471). -/
def crownReady (s : State) : List Fail := failIf (!(getDie s 0).rngReady) stNotReady (if (getDie s 0).rngReinst then 0x11 else 0x10)

end Sys2Proof.Machine
end

