-- ==== Sys2Proof/Machine/Cards.lean ====
section
/-! DEFINITION. Quorum sessions, rosters and the custodian card ports (R310 to R314, R322 to R346). -/

namespace Sys2Proof.Machine

/-! ## Frames (R326, R327) -/

/-- One bit into CRC7: generator x^7 + x^3 + 1. -/
def crc7Bit (c : Nat) (b : Bool) : Nat := let n := c * 2 % 128; if (64 ≤ c) != b then n ^^^ 9 else n

/-- CRC7 of a run of bytes, most significant bit first (R327). -/
def crc7 (bs : Bytes) : Nat := bs.foldl (fun c b => ((List.range 8).map fun i => b.toNat.testBit (7 - i)).foldl crc7Bit c) 0

/-- The 6 bytes of a command (R326). -/
def cardCommand (idx arg : Nat) : Bytes := let b := byte (64 + idx) :: beBytes 4 arg; b ++ [byte (crc7 b * 2 + 1)]

/-- A response is well formed: start and direction 0, CRC7 good, end bit 1. -/
def frameOk (f : Bytes) : Bool :=
  f.length = 6 && field f 0 1 < 64 && field f 5 1 = crc7 (f.take 5) * 2 + 1

/-- The card status word of a response (R334). -/
def cardStatus (f : Bytes) : Nat := beNat (slice f 1 4)

/-! ## Ports -/

/-- A card port. -/
def getPort (s : State) (p : Nat) : Port := s.ports.getD p {}

/-- Changes one card port. -/
def modPort (p : Nat) (f : Port → Port) (s : State) : State := { s with ports := lset s.ports p (f (getPort s p)) }

/-- Name of a port's PWR_EN. -/
def pwrPin (p : Nat) : String := if p = 0 then "CC0_PWR_EN" else if p = 1 then "CC1_PWR_EN" else if p = 2 then "CC2_PWR_EN" else "CC3_PWR_EN"

/-- Names of a port's CLK, CMD and D[3:0]. -/
def linePins (p : Nat) : List String :=
  let n := if p = 0 then "CC0_" else if p = 1 then "CC1_" else if p = 2 then "CC2_" else "CC3_"
  [n ++ "CLK", n ++ "CMD", n ++ "D0", n ++ "D1", n ++ "D2", n ++ "D3"]

/-- The device drives CLK, CMD and D[3:0] of a port low, before or while PWR_EN is low (R324, R343). -/
def linesOff (p : Nat) (s : State) : State :=
  (linePins p).foldl (fun s n => emit (.pin n false) s) (modPort p (fun x => { x with linesLow := true }) s)

/-- The first clocks after power-up, with CMD and D high (R340 step 2). -/
def linesOn (p : Nat) (s : State) : State :=
  ((linePins p).drop 1).foldl (fun s n => emit (.pin n true) s) (modPort p (fun x => { x with linesLow := false }) s)

/-- Sends a command on a port and waits in a step. -/
def sendCard (p idx arg : Nat) (step : CardStep) (s : State) : State :=
  emit (.card p idx arg (cardCommand idx arg)) (modPort p (fun x => { x with step := step, waits := 0, probing := false }) s)

/-- An exchange is running on the port. -/
def Port.inExchange (x : Port) : Bool := x.step != .idle

/-- Power comes on for an exchange or for another attempt (R340 step 1). -/
def powerCard (p : Nat) (s : State) : State :=
  emit (.pin (pwrPin p) true) (modPort p (fun x => { x with
    powered := true, phase := 1, step := .powering, speed := 0, wide := false, again := 0, redo := 0, waits := 0, probing := false, cardSt := 0
    vNow := x.vcard, speedNow := x.maxSpeed, wideNow := x.width4, answer := [], block := [], resp := [] }) s)

/-- Step 1 of R340 on a port that is in use and holds a card. -/
def startExchange (p : Nat) (s : State) : State :=
  let x := getPort s p
  if x.enable && x.present && !x.inExchange then
    powerCard p (modPort p (fun x => { x with attempt := 0, role := 0, session := 0, eph := [] }) s)
  else s

/-- LAST_RESULT of a reason (R342). -/
def resultOf (reason : Nat) : Nat := if reason = 0 then 1 else if reason < 10 then 2 else 3

/-- SERIAL of the Reset Answer. -/
def Port.serial (x : Port) : Bytes := slice x.answer 8 16

/-- SIGN_COUNT when known: of the response block, else of the Reset Answer. -/
def Port.signCount (x : Port) : Nat := if x.resp ≠ [] then field x.resp 4 4 else field x.answer 26 4

/-- Data of the record of an exchange (R342, R398). -/
def exchangeData (p reason : Nat) (x : Port) : Bytes :=
  [byte p, byte reason, byte x.role, byte x.phase] ++ leBytes 2 x.session ++ leBytes 2 (x.signCount % 65536)
    ++ (if x.answer = [] then [] else fit 8 x.serial)

/-- Counts an exchange in KEY_CARDS and CCP_PORT_ERR_n; an enrolment does not count as accepted. -/
def countExchange (p reason : Nat) (enrolled : Bool) (s : State) : State :=
  let s1 := modPort p (fun x => { x with
    timeouts := if reason = 11 then satAdd x.timeouts 1 255 else x.timeouts
    removals := if reason = 10 then satAdd x.removals 1 255 else x.removals }) s
  { s1 with vault := { s1.vault with
      accepted := if reason = 0 ∧ !enrolled then satAdd s1.vault.accepted 1 255 else s1.vault.accepted
      refused := if resultOf reason = 2 then satAdd s1.vault.refused 1 255 else s1.vault.refused
      incomplete := if resultOf reason = 3 then satAdd s1.vault.incomplete 1 255 else s1.vault.incomplete } }

/-- The exchange serves, or could still serve, the enrolment that waits on its port: no session has been chosen for its card. -/
def Port.serves (x : Port) : Bool := x.session = 0

/-- The end of an exchange: ABANDON where the card is PENDING or CHALLENGED, RESET, lines and PWR_EN low; result, counters, record. An
enrolment that it has not completed fails with 0xDD; one that ROLE_SET brought while the port served a session gets the next exchange,
unless the card is gone (R340, R342, R343; log entry 80). -/
def endExchange (p reason : Nat) (s : State) : State :=
  let x := getPort s p
  if !x.inExchange then s else
  let gone := reason = 10
  let s1 := if !gone ∧ x.powered ∧ (x.cardSt = 2 ∨ x.cardSt = 3) then emit (.card p 11 0x10 (cardCommand 11 0x10)) s else s
  let s2 := if !gone ∧ x.powered then emit (.card p 0 0 (cardCommand 0 0)) s1 else s1
  let s3 := emit (.pin (pwrPin p) false) (linesOff p (recEvent 0x0801 (exchangeData p reason x) s2))
  let s4 := countExchange p reason (x.serves && x.enrol.isSome) s3
  let closes := x.serves || gone || reason = 12
  let s5 := modPort p (fun y => { y with
    step := .idle, powered := false, phase := if gone then 0 else 5, present := y.present && !gone
    result := resultOf reason, reason := reason, changed := true, probing := false, waits := 0
    block := [], eph := [], resp := [], answer := [], enrol := if closes then none else y.enrol, speed := 0, wide := false }) s4
  match x.enrol with
  | some j => if !closes then startExchange p s5 else if x.serves && reason = 0 then s5 else finishJob j stInput 0xDD [] [] s5
  | none => s5

/-- Ends every exchange that serves a role's session with a reason (R344). -/
def endRole (role reason : Nat) (except : Option Nat) (s : State) : State :=
  (List.range 4).foldl (fun s p =>
    let x := getPort s p
    if some p ≠ except ∧ x.inExchange ∧ x.session ≠ 0 ∧ x.role = role then endExchange p reason s else s) s

/-- ERASE ends every exchange with reason 12 (R344). -/
def eraseCards (s : State) : State := (List.range 4).foldl (fun s p => endExchange p 12 s) s

/-- The erasure of R309 with the card exchanges that it ends. -/
def eraseAll (s : State) : State := eraseKeys (eraseCards s)

/-! ## The exchange (R336 to R341) -/

/-- The Reset Answer checks of R335 in table order: the reason of the first failure. -/
def answerReason (x : Port) (a : Bytes) : Option Nat :=
  let volts := field a 5 1
  let serial := slice a 8 16
  if slice a 0 4 ≠ [0x44, 0x50, 0x58, 0x31] ∨ field a 4 1 ≠ 1 then some 1
  else if 4 ≤ volts ∨ !volts.testBit (if x.vNow then 1 else 0) then some 2
  else if 8 ≤ field a 6 1 ∨ field a 7 1 < 1 ∨ 25 < field a 7 1 ∨ serial.all (· = 0) ∨ serial.all (· = 0xFF) ∨ 2 < field a 24 1
    ∨ field a 25 1 ≠ 0 ∨ field a 30 2 ≠ 0 then some 1
  else none

/-- Modes in the order in which R336 tries them: speed and 4-bit width. -/
def modeList (x : Port) : List (Nat × Bool) :=
  let m := field x.answer 6 1
  let sp := (if m.testBit 1 ∧ 2 ≤ x.speedNow then [2] else []) ++ (if m.testBit 0 ∧ 1 ≤ x.speedNow then [1] else [])
  let wide := m.testBit 2 && x.wideNow
  sp.map (fun v => (v, wide)) ++ (if !wide then [] else if sp.contains 1 then [(1, false)] else [(0, true)]) ++ [(0, false)]

/-- The mode of this attempt. -/
def modeNow (x : Port) : Nat × Bool := (modeList x).getD x.attempt (0, false)

/-- After the Reset Answer: SWITCH, or STATUS at once for 400 kHz and 1-bit (R336). -/
def chooseMode (p : Nat) (s : State) : State :=
  let m := modeNow (getPort s p)
  if m = (0, false) then sendCard p 2 0 .status s else sendCard p 3 (bit m.2 1 + 16 * m.1) .switch s

/-- A failed mode check: power off for 10 ms, then the next attempt (R336). -/
def restartMode (p : Nat) (s : State) : State :=
  emit (.pin (pwrPin p) false) (modPort p (fun x => { x with
    step := .off, probing := false, powered := false, attempt := x.attempt + 1, crcErrors := satAdd x.crcErrors 1 255 }) (linesOff p s))

/-- Role whose roster holds a serial. -/
def roleOf (s : State) (serial : Bytes) : Option Nat :=
  (List.range 4).find? fun r => (s.vault.rosters.getD r {}).cards.any (·.serial = serial)

/-- CHAL (R313). -/
def chalOf (s : State) (session role : Nat) (nonce intent : Bytes) : Bytes :=
  digest384 ([0x11] ++ s.otp.packageId ++ leBytes 2 session ++ leBytes 1 role ++ nonce ++ intent)

/-- The challenge block of R338. -/
def challengeBlock (s : State) (session role : Nat) (collect enrol : Bool) (nonce intent eph : Bytes) : Bytes :=
  fit 512 ([1, byte role] ++ leBytes 2 session ++ [byte (bit collect 0 + bit enrol 1)] ++ zeros 3 ++ s.otp.packageId ++ nonce ++ fit 48 intent
    ++ chalOf s session role nonce (fit 48 intent) ++ fit 65 (if collect then eph else []))

/-- Step 4 of R340: NONCE, the ephemeral key when components are collected, and the challenge block. -/
def challenge (p session role : Nat) (collect enrol : Bool) (intent : Bytes) (s : State) : State :=
  let n := crownBytes 1 32 s
  let e := if collect then crownBytes 0 40 n.2 else ([], n.2)
  let d := beBytes 32 (beNat e.1 % (curveP256.n - 1) + 1)
  let s1 := e.2
  sendCard p 9 0x10 .writeCmd (modPort p (fun x => { x with
    role := role, session := session, phase := 2, again := 0, redo := 0, eph := if collect then d else []
    block := challengeBlock s session role collect enrol n.1 intent (if collect then publicKey 1 [] d else []) }) s1)

/-- Step 3 of R340 after STATUS: activation, then the enrolment or the session that the card is for. -/
def identify (p st : Nat) (s : State) : State :=
  let x := getPort s p
  if !st.testBit 8 then endExchange p 3 s else
  let enrol := x.enrol.filter fun j => (getJob s j).src.take 16 = x.serial
  match enrol with
  | some j => let y := getJob s j; challenge p 0 (y.d.f 32 1) false true (intentOf y) s
  | none =>
    match (roleOf s x.serial).filter fun r => (s.vault.sessions.getD r {}).st = 1 with
    | none => endExchange p 4 s
    | some r =>
      let q := s.vault.sessions.getD r {}
      if q.cards.contains x.serial then endExchange p 5 (modPort p (fun x => { x with role := r, session := q.num }) s)
      else challenge p q.num r q.collect false q.intent s

/-- Command index and argument that a step waits for. -/
def stepCommand (x : Port) : Nat × Nat :=
  match x.step with
  | .reset => (0, 0)
  | .answer => (1, 0)
  | .switch => (3, bit (modeNow x).2 1 + 16 * (modeNow x).1)
  | .writeCmd => (9, 0x10)
  | .commit => (10, 0x10)
  | .sign => (16, 0)
  | .read => (8, 0x11)
  | _ => (2, 0)

/-- The command of the present step again. -/
def resend (p : Nat) (s : State) : State :=
  let x := getPort s p
  let c := stepCommand x
  sendCard p c.1 c.2 x.step s

/-- A step that waits for a response. -/
def Port.awaits (x : Port) : Bool :=
  match x.step with
  | .reset | .answer | .switch | .modeCheck | .status | .writeCmd | .commit | .commitCheck | .sign | .read => true
  | _ => false

/-- A good response to the command of the present step. -/
def goodResponse (p st : Nat) (s : State) : State :=
  let x := getPort s p
  let s1 := modPort p (fun y => { y with cardSt := st % 16, again := 0 }) s
  match x.step with
  | .reset => sendCard p 1 0 .answer s1
  | .answer => modPort p (fun y => { y with step := .answerData }) s1
  | .switch => sendCard p 2 0 .modeCheck (modPort p (fun y => { y with speed := (modeNow x).1, wide := (modeNow x).2 }) s1)
  | .modeCheck =>
    if bits st 4 2 = bit (modeNow x).2 1 ∧ bits st 6 2 = (modeNow x).1 then identify p st s1 else restartMode p s1
  | .status => identify p st s1
  | .writeCmd => emit (.card p 0x100 0 x.block) (modPort p (fun y => { y with step := .token }) s1)
  | .commit => sendCard p 16 0 .sign (modPort p (fun y => { y with phase := 3 }) s1)
  | .commitCheck =>
    if st % 16 = 3 then sendCard p 16 0 .sign (modPort p (fun y => { y with phase := 3 }) s1)
    else if st % 16 = 2 ∧ x.redo = 0 then sendCard p 10 0x10 .commit (modPort p (fun y => { y with redo := 1 }) s1)
    else endExchange p 6 s1
  | .sign => sendCard p 8 0x11 .read (modPort p (fun y => { y with phase := 4, redo := 0 }) s1)
  | .read => modPort p (fun y => { y with step := .readData }) s1
  | _ => s1

/-- STATUS, sent to see whether a card whose response was lost is still there (R337). -/
def probe (p : Nat) (s : State) : State :=
  emit (.card p 2 0 (cardCommand 2 0)) (modPort p (fun y => { y with probing := true, waits := 0 }) s)

/-- A response whose CRC7 is bad, or that reports CRC_ERR: the command again, up to 2 more times, then reason 6; a mode check fails at once (R336, R337). -/
def badResponse (p : Nat) (s : State) : State :=
  let x := getPort s p
  if x.step = .modeCheck then restartMode p s else
  let s1 := modPort p (fun y => { y with crcErrors := satAdd y.crcErrors 1 255 }) s
  if 2 ≤ x.again then endExchange p 6 s1
  else
    let s2 := modPort p (fun y => { y with again := x.again + 1 }) s1
    if x.probing then probe p s2 else resend p s2

/-- A response arrives on a port (R326, R337). After a STATUS that probed a lost response the command is sent again. -/
def cardResponse (p : Nat) (f : Bytes) (s : State) : State :=
  let x := getPort s p
  if !x.awaits then s else
  let want := if x.probing then 2 else (stepCommand x).1
  let st := cardStatus f
  if !frameOk f ∨ st.testBit 9 then badResponse p s
  else if st.testBit 10 ∨ field f 0 1 ≠ want then endExchange p 6 s
  else if x.probing then resend p (modPort p (fun y => { y with cardSt := st % 16, again := 0 }) s)
  else goodResponse p st s

/-- A response timeout (R337): STATUS once, then reason 11; a lost COMMIT response is looked up with STATUS. -/
def cardTimeout (p : Nat) (s : State) : State :=
  let x := getPort s p
  if x.step = .token ∨ x.step = .busy ∨ x.step = .answerData ∨ x.step = .readData then endExchange p 11 s
  else if !x.awaits then s
  else if x.step = .modeCheck then restartMode p s
  else if x.step = .commit then sendCard p 2 0 .commitCheck (modPort p (fun y => { y with again := 0 }) s)
  else if x.probing ∨ x.step = .status ∨ x.step = .commitCheck then endExchange p 11 s
  else probe p (modPort p (fun y => { y with again := 0 }) s)

/-- A wait-extension byte; the 201st counts as a response timeout (R328). -/
def waitByte (p : Nat) (s : State) : State :=
  let x := getPort s p
  if !x.awaits then s else if 200 ≤ x.waits then cardTimeout p s else modPort p (fun y => { y with waits := y.waits + 1 }) s

/-- A Reset Answer or a response block arrives (R330, R335, R337). -/
def cardData (p : Nat) (data : Bytes) (ok : Bool) (s : State) : State :=
  let x := getPort s p
  let s0 := if ok then s else modPort p (fun y => { y with crcErrors := satAdd y.crcErrors 1 255 }) s
  if x.step = .answerData then
    if !ok then endExchange p 6 s0 else
    match answerReason x (fit 32 data) with
    | some r => endExchange p r (modPort p (fun y => { y with answer := if r = 2 then fit 32 data else [] }) s0)
    | none => chooseMode p (modPort p (fun y => { y with answer := fit 32 data }) s0)
  else if x.step = .readData then
    if ok then modPort p (fun y => { y with resp := fit 512 data, step := .checking }) s0
    else if x.redo = 0 then sendCard p 8 0x11 .read (modPort p (fun y => { y with redo := 1 }) s0)
    else endExchange p 6 s0
  else s

/-- The CRC status token of a written block: 2 accepted, 5 bad CRC16, 6 refused (R331, R337). -/
def crcToken (p token : Nat) (s : State) : State :=
  let x := getPort s p
  if x.step ≠ .token then s
  else if token = 2 then modPort p (fun y => { y with step := .busy, cardSt := 2 }) s
  else if token = 5 ∧ x.redo = 0 then
    sendCard p 9 0x10 .writeCmd (modPort p (fun y => { y with redo := 1, crcErrors := satAdd y.crcErrors 1 255 }) s)
  else endExchange p 6 (if token = 5 then modPort p (fun y => { y with crcErrors := satAdd y.crcErrors 1 255 }) s else s)

/-- Busy ends: COMMIT. -/
def busyRelease (p : Nat) (s : State) : State :=
  if (getPort s p).step = .busy then sendCard p 10 0x10 .commit (modPort p (fun y => { y with again := 0, redo := 0 }) s) else s

/-! ## Acceptance (R313, R341) -/

/-- The card key that the response is checked against: of the enrolment, else of the roster. -/
def cardKey (s : State) (x : Port) : Bytes :=
  if x.session = 0 then (match x.enrol with
    | some j => slice (getJob s j).src 16 65
    | none => [])
  else (((s.vault.rosters.getD x.role {}).cards.find? (·.serial = x.serial)).map (·.key)).getD []

/-- SIG is a valid ECDSA P-256 signature over CHAL and passes R275. -/
def cardSigOk (s : State) (x : Port) : Bool :=
  let key := cardKey s x
  let rep := representative 1 1 (slice x.block 104 48)
  let sig := slice x.resp 24 64
  key.length = 65 && firstCheck (keyFails 1 [] key ++ sigFails 1 [] sig 0 ++ messageFails 1 [] rep) = none && Config.verifyOf 1 0 false [] key rep sig

/-- The card's component, when COLLECT = 1 and it unwraps (R339). -/
def cardComponent (s : State) (x : Port) : Option Bytes :=
  let z := fit 32 (Config.ecdhOf 1 [] x.eph (cardKey s x))
  (Config.kwpUnwrap (kdf z "XZCOMPT" (slice x.block 104 48) 32) (slice x.resp 88 40)).filter (·.length = 32)

/-- The reason of the first failing check of R341; of one card on two ports the later one is not counted (R320). -/
def checkReason (s : State) (x : Port) : Option Nat :=
  let r := x.resp
  let res := field r 1 1
  let q := s.vault.sessions.getD x.role {}
  let collect := (field x.block 4 1).testBit 0
  if field r 0 1 ≠ 1 ∨ field r 2 2 ≠ 0 ∨ (r.drop 128).any (· ≠ 0) then some 6
  else if res ≠ 0 then some (if res = 1 then 3 else if res = 3 then 8 else 7)
  else if slice r 8 16 ≠ x.serial then some 7
  else if !cardSigOk s x then some 7
  else if collect ∧ cardComponent s x = none then some 8
  else if x.session = 0 then (match x.enrol with
    | some _ => none
    | none => some 9)
  else if q.st ≠ 1 ∨ q.num ≠ x.session then some 9
  else if q.cards.contains x.serial then some 5 else none

/-- A card is in some roster. -/
def enrolled (s : State) (serial : Bytes) : Bool := (roleOf s serial).isSome

/-- Adds a card to a role's roster and ends its ROLE_SET with OK; the session that approved it is consumed. Of two enrolments that end, the
roster rules of R311 hold for the later one as well. -/
def enrolCard (j : Nat) (s : State) : State :=
  let y := getJob s j
  let role := y.d.f 32 1
  let r := s.vault.rosters.getD role {}
  let c : CardId := { serial := y.src.take 16, key := slice y.src 16 65 }
  let s1 := { s with vault := { s.vault with rosters := lset s.vault.rosters role { r with cards := r.cards ++ [c] } } }
  if 32 ≤ r.cards.length ∨ enrolled s c.serial then finishJob j stInput 0xDC [] [] s
  else okJob j [] [] (if (s.otp.w.headD none).isSome ∧ quorumOpenFor s y 0 then consume [0] s1 else s1)

/-- A card is accepted in its session; with M cards the session opens and QUORUM_OPEN completes (R312, R313). -/
def acceptCard (p : Nat) (s : State) : State :=
  let x := getPort s p
  let q := s.vault.sessions.getD x.role {}
  let q1 := { q with cards := q.cards ++ [x.serial], comps := q.comps ++ (if q.collect then (cardComponent s x).toList else []) }
  let full := (s.vault.rosters.getD x.role {}).m ≤ q1.cards.length
  let s1 := endExchange p 0 (putSession x.role (if full then { q1 with st := 2, job := none } else q1) s)
  if !full then s1 else
  let s2 := endRole x.role 9 (some p) s1
  match q.job with
  | some j => okJob j (leBytes 2 q.num ++ leBytes 1 q1.cards.length ++ zeros 5) [] s2
  | none => s2

/-- A response block whose component is unwrapped: Z is computed with blinding values of the Crown (R276, R339). -/
def blindCheck (x : Port) (s : State) : State :=
  if (field x.block 4 1).testBit 0 then (crownBytes 2 104 s).2 else s

/-- The lane checks of a response block end (R341); HOLD and a restart of the key world delay them (R344). -/
def checkDone (p : Nat) (s : State) : State :=
  let x := getPort s p
  if x.step ≠ .checking ∨ s.hold ∨ (getDie s 0).mandrel.kw.st = 1 then s else
  let s := blindCheck x s
  match checkReason s x with
  | some r => endExchange p r s
  | none =>
    match (if x.session = 0 then x.enrol else none) with
    | some j => enrolCard j (endExchange p 0 s)
    | none => acceptCard p s

/-- A removal is declared (R343). -/
def cardRemove (p : Nat) (s : State) : State :=
  let x := getPort s p
  if x.inExchange then endExchange p 10 s else if !x.enable then s else modPort p (fun y => { y with present := false, phase := 0 }) s

/-- A debounced insertion (R340). -/
def cardInsert (p : Nat) (s : State) : State :=
  let x := getPort s p
  if !x.enable ∨ x.present ∨ s.ports.length ≤ p then s else startExchange p (modPort p (fun y => { y with present := true }) s)

/-- The supply has been on for 10 ms: RESET (R340 step 2). -/
def cardPower (p : Nat) (s : State) : State := if (getPort s p).step = .powering then sendCard p 0 0 .reset (linesOn p s) else s

/-- The supply has been off for 10 ms: power again for the next attempt (R336). -/
def cardRepower (p : Nat) (s : State) : State := if (getPort s p).step = .off then powerCard p s else s

/-! ## QUORUM_OPEN, QUORUM_STATUS, QUORUM_CANCEL (R312) -/

/-- ROLE is one of the four (R9). -/
def roleRange (x : Job) : List Fail := failIf (3 < x.d.f 32 1) stInput 32

/-- A session opens for collection; ports that hold a card start an exchange. -/
def quorumOpenGo (id : Nat) (s : State) : State :=
  let x := getJob s id
  let role := x.d.f 32 1
  let n := s.vault.nextSession
  let q : Session := { st := 1, num := n, endAt := s.time.now + x.d.f 33 1 * 60000000000, intent := x.src, collect := x.d.f 34 1 = 1, job := some id }
  let s1 := putSession role q (modJob id (fun y => { y with phase := .wait 23 }) s)
  let s2 := { s1 with vault := { s1.vault with nextSession := if n = 0xFFFF then 1 else n + 1 } }
  (List.range 4).foldl (fun s p => startExchange p s) s2

/-- QUORUM_OPEN. -/
def quorumOpenSem : OpSem where
  pfOnly _ := true
  resv d := match reservedBad d (offHandle ++ offAux ++ offDst) with
    | some i => some i
    | none => if 2 ≤ d.f 34 1 then some 34 else firstNonzero d.bytes (span 35 63)
  fenced _ := false
  keyed _ := false
  src := true
  len _ n := failIf (n ≠ 48) stLength 0
  own s x := roleRange x ++ failIf (!(1 ≤ x.d.f 33 1 && x.d.f 33 1 ≤ 30)) stInput 33
    ++ failIf ((s.vault.rosters.getD (x.d.f 32 1) {}).m = 0) stInput 0xDC
    ++ failIf ((s.vault.sessions.getD (x.d.f 32 1) {}).st ≠ 0) stInput 0xDE ++ crownReady s
  go := quorumOpenGo
  fin _ s := s

/-- One entry of QUORUM_STATUS. -/
def sessionEntry (s : State) (q : Session) : Bytes :=
  if q.st = 0 then zeros 16 else
  leBytes 1 q.st ++ leBytes 1 q.cards.length ++ leBytes 2 q.num ++ leBytes 4 ((q.endAt - s.time.now) / 1000000000) ++ slice q.intent 8 8

/-- QUORUM_STATUS. -/
def quorumStatusSem : OpSem where
  pfOnly _ := true
  resv d := reservedBad d (offHandle ++ offSrc ++ offAux ++ span 32 63)
  fenced _ := false
  keyed _ := false
  src := false
  len _ _ := []
  own _ x := failIf (x.d.dst = 0) stInput 0xDA
  go id s := okJob id [] (s.vault.sessions.map (sessionEntry s)).flatten s
  fin _ s := s

/-- A session ends without its quorum; its QUORUM_OPEN completes with a status (R312, R344). -/
def closeSession (role st info : Nat) (s : State) : State :=
  let q := s.vault.sessions.getD role {}
  let s1 := endRole role 9 none (putSession role {} s)
  match q.job with
  | some j => finishJob j st info [] [] s1
  | none => s1

/-- QUORUM_CANCEL. -/
def quorumCancelSem : OpSem where
  pfOnly _ := true
  resv d := reservedBad d (span 4 31 ++ span 33 63)
  fenced _ := false
  keyed _ := false
  src := false
  len _ _ := []
  own s x := roleRange x ++ failIf ((s.vault.sessions.getD (x.d.f 32 1) {}).st = 0) stInput 0xDE
  go id s := okJob id [] [] (closeSession ((getJob s id).d.f 32 1) stAborted 1 s)
  fin _ s := s

/-- The window of a role's session ends (R312). -/
def windowEnd (role : Nat) (s : State) : State :=
  let q := s.vault.sessions.getD role {}
  if q.st ≠ 0 ∧ q.endAt ≤ s.time.now then closeSession role stInput 0xE0 s else s

/-! ## ROLE_SET (R311) -/

/-- The roster rules of R311, once the source is held. -/
def roleSetFails (s : State) (x : Job) : List Fail :=
  let r := s.vault.rosters.getD (x.d.f 32 1) {}
  let act := x.d.f 33 1
  let m := x.d.f 34 1
  let n := r.cards.length
  let serial := x.src.take 16
  failIf ((s.otp.w.headD none).isSome && !quorumOpenFor s x 0) stInput 0xD0
    ++ (if act = 0 then failAt ((firstNonzero x.src (span 81 127))) ++ failIf (32 < n + 1 || enrolled s serial) stInput 0xDC
          ++ failIf (!(getPort s (x.d.f 35 1)).present) stInput 0xDD
        else if act = 1 then failIf (!(r.cards.any (·.serial = serial)) || (2 ≤ r.m && n - 1 < r.m)) stInput 0xDC
        else failIf (!(2 ≤ m && m ≤ n)) stInput 0xDC)

/-- ROLE_SET with its source held: an enrolment waits for its card. -/
def roleSetGo (id : Nat) (s : State) : State :=
  let x := getJob s id
  let role := x.d.f 32 1
  let r := s.vault.rosters.getD role {}
  let put (r : Roster) : State :=
    let s1 := { s with vault := { s.vault with rosters := lset s.vault.rosters role r } }
    okJob id [] [] (if (s.otp.w.headD none).isSome then consume [0] s1 else s1)
  match firstFail (roleSetFails s x) with
  | some f => failJob id f s
  | none =>
    if x.d.f 33 1 = 0 then
      let p := x.d.f 35 1
      if (getPort s p).enrol.isSome then finishJob id stInput 0xDD [] [] s
      else startExchange p (modPort p (fun y => { y with enrol := some id }) (modJob id (fun y => { y with phase := .wait 23 }) s))
    else if x.d.f 33 1 = 1 then put { r with cards := r.cards.filter (·.serial ≠ x.src.take 16) }
    else put { r with m := x.d.f 34 1 }

/-- ROLE_SET. -/
def roleSetSem : OpSem where
  pfOnly _ := true
  resv d := reservedBad d (offHandle ++ (if d.f 33 1 = 2 then offSrc else []) ++ offAux ++ offDst ++ span 36 63)
  fenced _ := false
  keyed _ := false
  src := true
  len x n := failIf (x.d.f 33 1 < 2 && n ≠ 128) stLength 0
  own s x := roleRange x ++ failIf (2 < x.d.f 33 1) stInput 33 ++ failIf (3 < x.d.f 35 1) stInput 35 ++ (if x.d.f 33 1 = 0 then crownReady s else [])
  go := roleSetGo
  fin _ s := s

/-! ## The commands -/

/-- QUORUM_WINDOW_END (R312). -/
def execQuorumWindowEnd (t role : Nat) (s : State) : Host.Outcome State Fault Refusal := .next (windowEnd role (tick t s))
/-- CARD_INSERT (R340). -/
def execCardInsert (t port : Nat) (s : State) : Host.Outcome State Fault Refusal := .next (cardInsert port (tick t s))
/-- CARD_POWER_TIMER (R340). -/
def execCardPowerTimer (t port : Nat) (s : State) : Host.Outcome State Fault Refusal := .next (cardPower port (tick t s))
/-- CARD_RESPONSE (R326). -/
def execCardResponse (t port : Nat) (frame : Bytes) (s : State) : Host.Outcome State Fault Refusal := .next (cardResponse port frame (tick t s))
/-- CARD_WAIT_BYTE (R328). -/
def execCardWaitByte (t port : Nat) (s : State) : Host.Outcome State Fault Refusal := .next (waitByte port (tick t s))
/-- CARD_DATA_BLOCK (R330). -/
def execCardDataBlock (t port : Nat) (data : Bytes) (crcOk : Bool) (s : State) : Host.Outcome State Fault Refusal := .next (cardData port data crcOk (tick t s))
/-- CARD_CRC_TOKEN (R331). -/
def execCardCrcToken (t port token : Nat) (s : State) : Host.Outcome State Fault Refusal := .next (crcToken port token (tick t s))
/-- CARD_BUSY_RELEASE (R331). -/
def execCardBusyRelease (t port : Nat) (s : State) : Host.Outcome State Fault Refusal := .next (busyRelease port (tick t s))
/-- CARD_TIMEOUT (R337). -/
def execCardTimeout (t port : Nat) (s : State) : Host.Outcome State Fault Refusal := .next (cardTimeout port (tick t s))
/-- CARD_CHECK_DONE (R341). -/
def execCardCheckDone (t port : Nat) (s : State) : Host.Outcome State Fault Refusal := .next (checkDone port (tick t s))
/-- CARD_REMOVE (R343). -/
def execCardRemove (t port : Nat) (s : State) : Host.Outcome State Fault Refusal := .next (cardRemove port (tick t s))
/-- POWER_REMOVAL_BETWEEN_ATTEMPTS (R336). -/
def execPowerRemovalBetweenAttempts (t port : Nat) (s : State) : Host.Outcome State Fault Refusal := .next (cardRepower port (tick t s))

end Sys2Proof.Machine
end

