-- ==== Sys2Proof/Machine/KeyCmds.lean ====
section
/-! DEFINITION. Key commands: creation, rotation, destruction, export and inspection of keys, tenant retirement, package initialisation,
migration, authority keys (R291, R302 to R308, R314 to R318). -/

namespace Sys2Proof.Machine

/-! ## What a fenced key command does once its image write has ended (R302, R305 order 10) -/

/-- The change of a key command and its target. -/
def keyChange (x : Job) : List Change :=
  let sub := x.d.targetField
  if x.d.op = 0x8A then [.retire (x.d.f 32 2) sub]
  else if x.d.op = 0x96 then [.authority (x.d.f 32 1 = 0) (slice x.d.bytes 40 8) x.src sub]
  else match x.slot with
    | some (n, k) => [.key n k sub]
    | none => []

/-- The slots that a scheduled KEY_DESTROY clears at T. -/
def destroySlots (s : State) (x : Job) : List Nat :=
  if x.d.f 32 1 = 0 then [x.d.handle % 65536]
  else ((crownBank s).slots.filter fun k => k.2.st = 2 ∧ (x.d.f 32 1 = 2 ∨ k.2.tenant = x.tenant)).map (·.1)

/-- The epoch range of the key meets order 10 of R305. -/
def rangeBad (k : KeySlot) (tgt : Nat) : Bool := k.last < k.first || k.last < tgt

/-- T is fixed from the epoch in which the image write ended; order 10 is checked, then TARGET against that epoch (R504), and the change is
scheduled (R302, R305). -/
def keyAccept (id : Nat) (s : State) : State :=
  let x := getJob s id
  let e := s.time.epoch
  let tgt := targetOf x.d.targetField e
  let late := x.d.targetField ≠ 0 ∧ x.d.targetField < e + 2
  if x.slot.any (fun r => rangeBad r.2 tgt) then finishJob id stInput 0xD3 [] [] s
  else if late then finishJob id stInput 0xFD [] [] s
  else if x.d.op = 0x85 then
    acceptFenced id tgt ((destroySlots s x).map fun n => .key n (clearedSlot (slotOf (crownBank s) n)) x.d.targetField) s
  else match x.slot with
    | some (n, k) =>
      let out := if x.d.op = 0x84 then [] else attrRecord n k 2 0
      acceptFenced id tgt (keyChange x) (modJob id (fun y => { y with data := out }) s)
    | none => acceptFenced id tgt (keyChange x) s

/-- A fenced key command whose checks have passed: it waits for its image write, or goes on at once where no image is written (R299, R505). -/
def keyCommit (id : Nat) (s : State) : State := if imageless s then keyAccept id s else awaitImage 20 id s

/-! ## Creation (R303 to R305) -/

/-- PURPOSE is defined and matches the kind that the command produces (order 1). -/
def purposeOk (op p opt : Nat) : Bool :=
  if op = 0x82 ∧ opt.testBit 1 then p = 0x11
  else if op = 0x88 ∨ op = 0x89 then 1 ≤ p && p ≤ 4
  else (1 ≤ p && p ≤ 4) || p = 0x10 || (0x12 ≤ p && p ≤ 0x15)

/-- ALG is legal for PURPOSE (order 2, R293). -/
def algOk (p alg : Nat) : Bool :=
  if p = 1 ∨ p = 2 ∨ p = 3 then alg = 1 || alg = 2
  else if p = 4 then alg = 3
  else if p = 0x10 ∨ p = 0x11 then wideAlg alg
  else if p = 0x12 then (1 ≤ alg && alg ≤ 3) || tableAlg alg
  else if p = 0x13 ∨ p = 0x14 then 1 ≤ alg && alg ≤ 5
  else alg = 2

/-- The slot's attributes as a creation command gives them (R295, R303). -/
def newSlot (x : Job) : KeySlot :=
  let p := x.d.f 32 1
  let op := x.d.op
  let last := x.d.f 42 6
  let pubOnly := op = 0x82 ∧ (x.d.f 52 1).testBit 1
  { st := 2, wide := 0x10 ≤ p, purpose := p, alg := x.d.f 33 1, tenant := x.tenant, game := x.d.f 34 2, first := x.d.f 36 6
    last := if last = 0 then 0xFFFFFFFFFFFF else last
    origin := if op = 0x80 then 1 else if op = 0x81 then 2 else if op = 0x82 then 3 else if op = 0x88 then 4 else 5
    flags := bit ((x.d.f 52 1).testBit 0) 0 + bit pubOnly 1, span := 0, index := if op = 0x80 then x.d.f 48 4 else 0 }

/-- A handle that must be a current key of the tenant with a purpose (R305 order 6); handle 0 names none (R15; log entry 59 on INFO). -/
def handleFails (s : State) (h tenant purpose : Nat) : List Fail :=
  let k := slotOf (crownBank s) h
  failIf (h = 0) stUsage 1 ++ failIf (h ≠ 0 && !(genMatches k h && k.inUse)) stStale 0 ++ failIf (k.tenant ≠ tenant) stUsage 6 ++ failIf (k.purpose ≠ purpose) stUsage 2

/-- The internal DRBG of the Crown that a creation draws on: KEYGEN for generated material, BLIND for prime tests and a blinded ECDH (R264, R276). -/
def createKeyRng (x : Job) : Option Nat :=
  if x.d.op = 0x81 then some 0
  else if x.d.op = 0x88 ∨ (x.d.op = 0x82 ∧ !(x.d.f 52 1).testBit 1 ∧ 0x10 ≤ x.d.f 32 1 ∧ x.d.f 33 1 = 6) then some 2 else none

/-- Orders 1 to 6 of R305, with the quorum of KEY_COMPONENT and the checks on DST and AUX before them. -/
def createKeyOwn (s : State) (x : Job) : List Fail :=
  let op := x.d.op
  let p := x.d.f 32 1
  let alg := x.d.f 33 1
  let opt := x.d.f 52 1
  failIf (op = 0x89 && !(quorumOpenFor s x 1 && (s.vault.sessions.getD 1 {}).collect)) stInput 0xD0
    ++ failIf (x.d.dst = 0) stInput 0xDA
    ++ failIf (!purposeOk op p opt) stInput 0xD1 ++ failIf (!algOk p alg || (op = 0x80 && alg = 6 && 0x10 ≤ p)) stInput 0xD2
    ++ failIf (0x10 ≤ p && tableAlg alg && (blockOf s x.tenant alg = [] || unloadPending s x.tenant (alg - 0x20))) stInput 0xC3
    ++ failIf (x.d.f 34 2 ≠ 0 && !(p = 1 || p = 2)) stInput 0xD4
    ++ failIf ((opt.testBit 0 && !(op = 0x81 || op = 0x82)) || (opt.testBit 1 && op ≠ 0x82)) stInput 0xD5
    ++ (if op = 0x82 ∧ !opt.testBit 1 then handleFails s x.d.handle x.tenant 4 else if op = 0x88 then handleFails s x.d.handle x.tenant 0x12 else [])
    ++ (if (createKeyRng x).isSome then crownReady s else [])

/-- LENGTH of the source of a creation: a public key or a peer point in its encoding (R319). -/
def createKeyLen (s : State) (x : Job) (n : Nat) : List Fail :=
  let alg := x.d.f 33 1
  if x.d.op = 0x82 ∧ (x.d.f 52 1).testBit 1 then
    failIf (if alg = 6 then !(n ≥ 260 && rsaSize (8 * (n - 4))) else n ≠ pubLen alg 0 (blockOf s x.tenant alg)) stLength 0x10
  else if x.d.op = 0x88 then
    let k := slotOf (crownBank s) x.d.handle
    match curveOf k.alg (blockOf s x.tenant k.alg) with
    | some c => failIf (n ≠ 1 + 2 * fieldLen c) stLength 0x10
    | none => []
  else []

/-- Bytes combined by exclusive or. -/
def xorBytes (a b : Bytes) : Bytes := List.zipWith (· ^^^ ·) a b

/-- Imported private material under a WRAP key: orders 7 and 8 of R305. -/
def importMat (s : State) (k : KeySlot) (wrapHandle : Nat) (src : Bytes) : Except Fail KeySlot × State :=
  let curve := blockOf s k.tenant k.alg
  match Config.kwpUnwrap (slotOf (crownBank s) wrapHandle).mat src with
  | none => (.error ⟨stInput, 0xD6⟩, s)
  | some m =>
    let n := if k.wide ∧ k.alg = 6 then 64 else 0
    let a := blindBases n s
    let b := blindBases n a.2
    if materialOk k curve m a.1 b.1 then (.ok (withMaterial k curve m), b.2) else (.error ⟨stInput, 0xD7⟩, b.2)

/-- A public key is validated under R275. -/
def importPub (s : State) (k : KeySlot) (src : Bytes) : Except Fail KeySlot :=
  match firstCheck (keyFails k.alg (blockOf s k.tenant k.alg) src) with
  | some i => .error ⟨stInput, i⟩
  | none => .ok (withPublic k src)

/-- Fresh material of a generated key. An RSA modulus size is a free choice among the legal sizes. -/
def generateMat (s : State) (k : KeySlot) : KeySlot × State :=
  let curve := blockOf s k.tenant k.alg
  if k.wide ∧ k.alg = 6 then
    let n := internalGen 0 0 33 [] s
    (withMaterial k curve (Config.rsaGenerate (2048 + 64 * ((n.1.headD 0).toNat % 97)) (n.1.drop 1)), n.2)
  else
    let n := internalGen 0 0 (materialLen k curve) [] s
    (withMaterial k curve (materialOf k curve n.1), n.2)

/-- The key that a creation makes: orders 7 and 8 of R305. -/
def createdKey (s : State) (x : Job) : Except Fail KeySlot × State :=
  let k := newSlot x
  let op := x.d.op
  if op = 0x80 then (.ok (withMaterial k (blockOf s k.tenant k.alg) (deriveMat s k (blockOf s k.tenant k.alg))), s)
  else if op = 0x81 then let r := generateMat s k; (.ok r.1, r.2)
  else if op = 0x82 then
    if (x.d.f 52 1).testBit 1 then (importPub s k x.src, s) else importMat s k x.d.handle x.src
  else if op = 0x88 then
    let e := slotOf (crownBank s) x.d.handle
    let blk := blockOf s x.tenant e.alg
    match curveOf e.alg blk with
    | none => (.error ⟨stInput, 0xC3⟩, s)
    | some c =>
      match firstCheck (pointFails c x.src) with
      | some i => (.error ⟨stInput, i⟩, s)
      | none =>
        (.ok (withMaterial k [] (kdf (fit (fieldLen c) (Config.ecdhOf e.alg blk e.mat x.src)) "XZAGREE" (attrContext k) 32))
          , (internalGen 0 2 (8 + 2 * orderLen c + fieldLen c) [] s).2)
  else
    let comps := (s.vault.sessions.getD 1 {}).comps
    (.ok (withMaterial k [] (kdf (comps.foldl xorBytes (zeros 32)) "XZCOMP" (attrContext k) 32)), s)

/-- Order 9 of R305: a slot, and wide slots for a wide key, in the tenant's grant. -/
def allocate (s : State) (k : KeySlot) : Except Fail (Nat × KeySlot) :=
  let g := (getTenant s k.tenant).g
  match lowestSlot s with
  | none => .error ⟨stQuota, 0x20⟩
  | some n =>
    if g.narrow ≤ narrowUsed s k.tenant then .error ⟨stQuota, 0x20⟩ else
    let k1 := { k with gen := (slotOf (crownBank s) n).gen + 1 }
    if !k.wide then .ok (n, k1) else
    match lowestWide s k.span with
    | none => .error ⟨stQuota, 0x21⟩
    | some w => if g.wide < wideUsed s k.tenant + k.span then .error ⟨stQuota, 0x21⟩ else .ok (n, { k1 with wideIdx := w })

/-- Orders 7 to 9 of R305, then the image write. -/
def createKeyNow (id : Nat) (s : State) : State :=
  let r := createdKey s (getJob s id)
  match r.1 with
  | .error f => failJob id f r.2
  | .ok k =>
    match allocate r.2 k with
    | .error f => failJob id f r.2
    | .ok a => keyCommit id (modJob id (fun y => { y with slot := some a }) r.2)

/-- A creation with its source held; an RSA key is generated on a Crown lane at class 2 (R303). -/
def createKeyGo (id : Nat) (s : State) : State :=
  let x := getJob s id
  match firstFail (createKeyLen s x x.src.length) with
  | some f => failJob id f s
  | none => withRng (createKeyRng x) id (if x.d.op = 0x81 ∧ 0x10 ≤ x.d.f 32 1 ∧ x.d.f 33 1 = 6 then laneGo id else createKeyNow id) s

/-- The lane ends an RSA generation. -/
def createKeyFin (id : Nat) (s : State) : State :=
  match laneOf s id with
  | none => s
  | some _ => withInternal 0 id (createKeyNow id) (freeLane id s)

/-- Reserved bytes of a creation: OPTIONS [7:2], bytes 53 to 55, INDEX except for KEY_DERIVE, KEY_HANDLE and SRC where not taken. -/
def createKeyResv (d : Desc) : Option Nat :=
  let handle := d.op = 0x88 ∨ (d.op = 0x82 ∧ !(d.f 52 1).testBit 1)
  let src := d.op = 0x82 ∨ d.op = 0x88
  match reservedBad d ((if handle then [] else offHandle) ++ (if src then [] else offSrc) ++ (if d.op = 0x80 then [] else span 48 51)) with
  | some i => some i
  | none => if 4 ≤ d.f 52 1 then some 52 else firstNonzero d.bytes (span 53 55)

/-- The five creation commands (R303). -/
def createKeySem (src : Bool) : OpSem where
  pfOnly := anyFn
  resv := createKeyResv
  fenced := pfOnly
  keyed := pfOnly
  src := src
  len x _ := failIf (x.d.aux < 64) stLength 0x11
  own := createKeyOwn
  go := createKeyGo
  fin := createKeyFin

/-- KEY_DERIVE. -/
def keyDeriveSem : OpSem := createKeySem false
/-- KEY_GENERATE. -/
def keyGenerateSem : OpSem := createKeySem false
/-- KEY_IMPORT. -/
def keyImportSem : OpSem := createKeySem true
/-- KEY_AGREE. -/
def keyAgreeSem : OpSem := createKeySem true
/-- KEY_COMPONENT. -/
def keyComponentSem : OpSem := createKeySem false

/-! ## KEY_ROTATE (R306) -/

/-- The handle is current and of the tenant; handle 0 names no key (R15). -/
def currentFails (s : State) (h tenant : Nat) : List Fail :=
  let k := slotOf (crownBank s) h
  failIf (h = 0) stUsage 1 ++ failIf (h ≠ 0 && !(genMatches k h && k.inUse)) stStale 0 ++ failIf (k.tenant ≠ tenant) stUsage 6

/-- An imported key with private material: it needs new wrapped material to be rotated. -/
def needsWrap (k : KeySlot) : Bool := k.origin = 3 && !k.flags.testBit 1

/-- A derived or carried key. -/
def derivedKey (k : KeySlot) : Bool := k.origin = 1 || k.flags.testBit 2

/-- The internal DRBG of the Crown that a rotation draws on. -/
def rotateRng (k : KeySlot) : Option Nat :=
  if derivedKey k then none
  else if k.origin = 2 then some 0
  else if k.wide ∧ k.alg = 6 ∧ !k.flags.testBit 1 then some 2 else none

/-- The checks of KEY_ROTATE at admission (R297, R306). -/
def rotateOwn (s : State) (x : Job) : List Fail :=
  let k := slotOf (crownBank s) x.d.handle
  let cur := x.d.handle ≠ 0 && genMatches k x.d.handle && k.inUse
  let src := cur && k.origin = 3
  currentFails s x.d.handle x.tenant
    ++ failAt (if src then none else firstNonzero x.d.bytes (span 8 19))
    ++ failAt (if cur && needsWrap k then none else firstNonzero x.d.bytes (span 32 35))
    ++ failIf (cur && !derivedKey k && (k.origin = 4 || k.origin = 5)) stInput 0xD5
    ++ failIf (cur && (slotBusy s (x.d.handle % 65536) || k.gen = 0xFFFF)) stInput 0xD8
    ++ (if cur && needsWrap k && !derivedKey k then handleFails s (x.d.f 32 4) x.tenant 4 else [])
    ++ (if cur && (rotateRng k).isSome then crownReady s else [])

/-- The slot with its new generation, range and INDEX (R306). -/
def rotatedSlot (s : State) (x : Job) : KeySlot :=
  let k := slotOf (crownBank s) x.d.handle
  let a := x.d.f 36 6
  let z := x.d.f 42 6
  let idx := x.d.f 48 4
  { k with
    gen := k.gen + 1
    first := if a = 0 ∧ z = 0 then k.first else a
    last := if a = 0 ∧ z = 0 then k.last else if z = 0 then 0xFFFFFFFFFFFF else z
    index := if derivedKey k then (if idx = 0 then (k.index + 1) % 4294967296 else idx) else k.index
    flags := if k.flags.testBit 2 then k.flags - 4 else k.flags }

/-- New material of a rotation: orders 7 and 8 of R305. -/
def rotatedKey (s : State) (x : Job) : Except Fail KeySlot × State :=
  let k := rotatedSlot s x
  let blk := blockOf s k.tenant k.alg
  if derivedKey (slotOf (crownBank s) x.d.handle) then (.ok (withMaterial k blk (deriveMat s k blk)), s)
  else if k.origin = 2 then let r := generateMat s k; (.ok r.1, r.2)
  else if k.flags.testBit 1 then (importPub s k x.src, s)
  else importMat s k (x.d.f 32 4) x.src

/-- The rotated slot keeps its wide slots, or takes a new run where its SPAN has changed. -/
def replaceWide (s : State) (old k : KeySlot) : Except Fail KeySlot :=
  if !k.wide || k.span = old.span then .ok k else
  match lowestWide s k.span with
  | none => .error ⟨stQuota, 0x21⟩
  | some w => if (getTenant s k.tenant).g.wide + old.span < wideUsed s k.tenant + k.span then .error ⟨stQuota, 0x21⟩ else .ok { k with wideIdx := w }

/-- Orders 7 to 9 for a rotation, then the image write. -/
def rotateNow (id : Nat) (s : State) : State :=
  let x := getJob s id
  let r := rotatedKey s x
  match r.1 with
  | .error f => failJob id f r.2
  | .ok k =>
    match replaceWide r.2 (slotOf (crownBank s) x.d.handle) k with
    | .error f => failJob id f r.2
    | .ok k1 => keyCommit id (modJob id (fun y => { y with slot := some (x.d.handle % 65536, k1) }) r.2)

/-- KEY_ROTATE with its source held. -/
def rotateGo (id : Nat) (s : State) : State :=
  let x := getJob s id
  let k := slotOf (crownBank s) x.d.handle
  let pubBad := k.flags.testBit 1 && (if k.alg = 6 then !(x.src.length ≥ 260 && rsaSize (8 * (x.src.length - 4))) else x.src.length ≠ pubLen k.alg 0 (blockOf s k.tenant k.alg))
  if pubBad then finishJob id stLength 0x10 [] [] s
  else withRng (rotateRng k) id (if k.origin = 2 ∧ k.wide ∧ k.alg = 6 then laneGo id else rotateNow id) s

/-- The lane ends the RSA generation of a rotation. -/
def rotateFin (id : Nat) (s : State) : State :=
  match laneOf s id with
  | none => s
  | some _ => withInternal 0 id (rotateNow id) (freeLane id s)

/-- KEY_ROTATE (R306). -/
def keyRotateSem : OpSem where
  pfOnly := anyFn
  resv d := reservedBad d (offAux ++ offDst ++ span 52 55)
  fenced := pfOnly
  keyed := pfOnly
  src := true
  len _ _ := []
  own := rotateOwn
  go := rotateGo
  fin := rotateFin

/-! ## KEY_DESTROY (R307) -/

/-- URGENT = 1. -/
def urgent (d : Desc) : Bool := d.f 33 1 = 1

/-- The checks of KEY_DESTROY (R297, R307). -/
def destroyKeyOwn (s : State) (x : Job) : List Fail :=
  failIf (2 < x.d.f 32 1) stInput 32 ++ failIf (1 < x.d.f 33 1) stInput 33
    ++ (if x.d.f 32 1 = 0 then currentFails s x.d.handle x.tenant else [])
    ++ failIf (!urgent x.d && (if x.d.f 32 1 = 0 then let k := slotOf (crownBank s) x.d.handle
                               genMatches k x.d.handle && k.inUse && slotBusy s (x.d.handle % 65536)
                             else (destroySlots s x).any (slotBusy s))) stInput 0xD8

/-- KEY_DESTROY accepted: at T, at once, or as emergency erasure. -/
def destroyKeyGo (id : Nat) (s : State) : State :=
  let x := getJob s id
  if !urgent x.d then keyCommit id s
  else if x.d.f 32 1 = 2 then okJob id [] [] (loseLk (eraseAll s))
  else
    let pend := ((keyChanges s).filter fun c => x.d.f 32 1 = 1 ∧ c.2.2.tenant = x.tenant).map (·.2.1)
    let s1 := clearSlots (destroySlots s x ++ pend) id s
    if imageless s1 then okJob id [] [] s1 else awaitImage 21 id s1

/-- KEY_DESTROY (R307). -/
def keyDestroySem : OpSem where
  pfOnly d := d.f 32 1 = 2
  resv d := reservedBad d ((if d.f 32 1 = 0 then [] else offHandle) ++ offSrc ++ offAux ++ offDst ++ span 34 55 ++ (if urgent d then span 56 63 else []))
  fenced d := !urgent d
  keyed := pfOnly
  src := false
  len _ _ := []
  own := destroyKeyOwn
  go := destroyKeyGo
  fin _ s := s

/-! ## KEY_EXPORT, KEY_PUBLIC, KEY_INFO (R308) -/

/-- Length of a KWP output. -/
def kwpLen (n : Nat) : Nat := cdiv n 8 * 8 + 8

/-- The key of KEY_EXPORT or KEY_PUBLIC, when current and of the tenant. -/
def currentKey (s : State) (x : Job) : Option KeySlot :=
  let k := slotOf (crownBank s) x.d.handle
  if x.d.handle ≠ 0 && genMatches k x.d.handle && k.inUse && k.tenant = x.tenant then some k else none

/-- The checks of KEY_EXPORT. -/
def exportOwn (s : State) (x : Job) : List Fail :=
  (match currentKey s x with
    | some k => failIf (x.d.aux < kwpLen k.mat.length) stLength 0x11
    | none => [])
    ++ failIf (!quorumOpenFor s x 1) stInput 0xD0 ++ failIf (x.d.dst = 0) stInput 0xDA
    ++ failIf ((currentKey s x).any fun k => !k.flags.testBit 0) stInput 0xD9
    ++ currentFails s x.d.handle x.tenant ++ handleFails s (x.d.f 32 4) x.tenant 4

/-- KEY_EXPORT. -/
def exportGo (id : Nat) (s : State) : State :=
  let x := getJob s id
  let out := Config.kwpWrap (slotOf (crownBank s) (x.d.f 32 4)).mat (slotOf (crownBank s) x.d.handle).mat
  let n := kwpLen (slotOf (crownBank s) x.d.handle).mat.length
  okJob id (leBytes 4 n ++ zeros 4) (fit n out) (consume [1] s)

/-- KEY_EXPORT (R308). -/
def keyExportSem : OpSem where
  pfOnly := anyFn
  resv d := reservedBad d (offSrc ++ span 36 63)
  fenced := anyFn
  keyed := pfOnly
  src := false
  len _ _ := []
  own := exportOwn
  go := exportGo
  fin _ s := s

/-- The checks of KEY_PUBLIC. -/
def publicOwn (s : State) (x : Job) : List Fail :=
  (match currentKey s x with
    | some k => failIf (k.wide && x.d.aux < k.pub.length) stLength 0x11 ++ failIf (!k.wide) stInput 0xD8
    | none => [])
    ++ failIf (x.d.dst = 0) stInput 0xDA ++ currentFails s x.d.handle x.tenant

/-- KEY_PUBLIC. -/
def publicGo (id : Nat) (s : State) : State :=
  let k := slotOf (crownBank s) (getJob s id).d.handle
  okJob id (leBytes 2 k.pub.length ++ zeros 6) k.pub s

/-- KEY_PUBLIC (R308). -/
def keyPublicSem : OpSem where
  pfOnly := anyFn
  resv d := reservedBad d (offSrc ++ span 32 63)
  fenced := anyFn
  keyed := pfOnly
  src := false
  len _ _ := []
  own := publicOwn
  go := publicGo
  fin _ s := s

/-- A slot as KEY_INFO shows it: PENDING for a staged creation, CLOSING for a staged destruction (R294). -/
def infoRecord (s : State) (n : Nat) : Bytes :=
  let k := slotOf (crownBank s) n
  match slotPending s n with
  | none => attrRecord n k k.st 0
  | some (t, k1) => if k.st = 2 then attrRecord n k (if k1.st = 2 then 2 else 3) t else attrRecord n k1 1 t

/-- Tenant of a slot, a staged creation included; none for an EMPTY one. -/
def slotTenant (s : State) (n : Nat) : Option Nat :=
  let k := slotOf (crownBank s) n
  if k.st = 2 then some k.tenant else (slotPending s n).bind fun c => if c.2.st = 2 then some c.2.tenant else none

/-- The PF reads any slot (R308). -/
def readsAny (x : Job) : Bool := x.fn = 0 && x.d.f 35 1 = 1

/-- The checks of KEY_INFO. -/
def infoOwn (s : State) (x : Job) : List Fail :=
  failIf (1 < x.d.f 34 1) stInput 34 ++ failIf (1 < x.d.f 35 1) stInput 35 ++ failIf (x.d.dst = 0) stInput 0xDA
    ++ failIf (x.d.f 34 1 = 0 && !readsAny x && slotTenant s (x.d.f 32 2) ≠ some x.tenant) stInput 0xD8

/-- Slots that KEY_INFO MODE 1 lists from a number on. -/
def infoSlots (s : State) (x : Job) : List Nat :=
  let all := ((crownBank s).slots.map (·.1) ++ (keyChanges s).map (·.2.1)).foldl insertNat []
  all.filter fun n => x.d.f 32 2 ≤ n && (match slotTenant s n with
    | some t => readsAny x || t = x.tenant
    | none => false)

/-- KEY_INFO. -/
def infoGo (id : Nat) (s : State) : State :=
  let x := getJob s id
  if x.d.f 34 1 = 0 then okJob id [] (infoRecord s (x.d.f 32 2)) s
  else
    let l := (infoSlots s x).take (x.d.aux / 64)
    okJob id (leBytes 4 l.length ++ zeros 4) (l.map (infoRecord s)).flatten s

/-- KEY_INFO (R308). -/
def keyInfoSem : OpSem where
  pfOnly := anyFn
  resv d := reservedBad d (offHandle ++ offSrc ++ span 36 63)
  fenced := anyFn
  keyed := pfOnly
  src := false
  len x _ := failIf (x.d.aux < 64) stLength 0x11
  own := infoOwn
  go := infoGo
  fin _ s := s

/-! ## TENANT_RETIRE (R318) -/

/-- A draw of the tenant is pending. -/
def drawsPending (s : State) (t : Nat) : Bool := s.draws.any fun d => d.tenant = t && !d.resolved

/-- The tenant cannot be retired. -/
def retireBad (s : State) (t : Nat) : Bool :=
  t = 0 || !(getTenant s t).granted || (s.fns.any fun f => f.2.present && f.2.tenant = t) || drawsPending s t

/-- TENANT_RETIRE (R318). -/
def tenantRetireSem : OpSem where
  pfOnly := pfOnly
  resv d := reservedBad d (offHandle ++ offSrc ++ offAux ++ offDst ++ span 34 55)
  fenced := pfOnly
  keyed := pfOnly
  src := false
  len _ _ := []
  own s x := failIf (!quorumOpenFor s x 0) stInput 0xD0 ++ failIf (retireBad s (x.d.f 32 2)) stInput 0xDB
  go := keyCommit
  fin _ s := s

/-- A tenant whose retirement has reached T, and whose ledger has nothing left to sign: its slots, salt and blobs are erased and its
grants return to the pool (R318). -/
def finishRetire (t : Nat) (s : State) : State :=
  let l := getLedger s t
  if (getTenant s t).retiring.isNone ∨ l.pend ≠ [] ∨ l.closing ≠ [] ∨ l.uncovered ≠ [] ∨ (s.signQ.any (·.tenant = t)) then s else
  let slots := ((crownBank s).slots.filter fun k => k.2.st = 2 ∧ k.2.tenant = t).map (·.1)
  let s1 := clearSlots slots s.nextJob s
  { s1 with
    tenants := mset s1.tenants t {}
    ledgers := mdel s1.ledgers t
    dies := s1.dies.map fun (d : Die) => { d with drawDrbgs := d.drawDrbgs.filter (·.tenant ≠ t), bank := { d.bank with close := mdel d.bank.close t, ledgerPol := mdel d.bank.ledgerPol t } } }

/-- Every retirement that is due. -/
def finishRetires (s : State) : State :=
  (s.tenants.filter fun t => t.2.retiring.isSome).foldl (fun s t => finishRetire t.1 s) s

/-! ## KEY_PACKAGE_INIT (R317) -/

/-- W_d is present in OTP. -/
def prPresent (s : State) : Bool := (s.otp.w.headD none).isSome

/-- PR, LK, W_d on every die and SALT_0, from KEYGEN; then the image under the new LK. -/
def packageInitNow (id : Nat) (s : State) : State :=
  let a := internalGen 0 0 32 [] s
  let b := internalGen 0 0 32 [] a.2
  let c := internalGen 0 0 16 [] b.2
  let s1 := modTenant 0 (fun t => { t with salt := some c.1 }) c.2
  awaitImage 22 id { s1 with
    vault := { s1.vault with pr := some a.1 }
    lining := { s1.lining with lk := some b.1 }
    otp := { s1.otp with w := s1.otp.w.mapIdx fun i w => if i < dieCount s then some a.1 else w } }

/-- KEY_PACKAGE_INIT once KEYGEN can serve it. -/
def packageInitGo (id : Nat) (s : State) : State := withInternal 0 id (packageInitNow id) s

/-- KEY_PACKAGE_INIT runs, once no HOLD bars OTP and flash writes. -/
def packageInitStart (id : Nat) (s : State) : State := if s.hold then awaitImage 45 id s else packageInitGo id s

/-- KEY_PACKAGE_INIT (R317). -/
def keyPackageInitSem : OpSem where
  pfOnly := pfOnly
  resv d := reservedBad d (offHandle ++ offSrc ++ offAux ++ offDst ++ span 32 63)
  fenced := anyFn
  keyed := anyFn
  src := false
  len _ _ := []
  own s x := failIf (s.lcs ≠ .provision || prPresent s) stLocked 0 ++ failIf (!quorumOpenFor s x 0) stInput 0xD0 ++ crownReady s
  go := packageInitStart
  fin _ s := s

/-! ## EPC_AUTHORITY_SET (R316) and KEY_MIGRATE (R291) -/

/-- The authority keys as they will stand with every pending change. -/
def authoritiesAt (s : State) : List Authority :=
  (s.fence.flatMap fun f => f.changes).foldl (fun l c => match c.2 with
    | .authority i a k _ => if i then l ++ [{ aki := a, key := k }] else l.filter (·.aki ≠ a)
    | _ => l) s.authorities

/-- The checks of EPC_AUTHORITY_SET once its source is held. -/
def authorityFails (s : State) (x : Job) : List Fail :=
  let l := authoritiesAt s
  let aki := slice x.d.bytes 40 8
  let here := l.any (·.aki = aki)
  failIf (!quorumOpenFor s x 3) stInput 0xD0
    ++ (if x.d.f 32 1 = 0 then
          failIf here stInput 0xD8 ++ (match firstCheck (keyFails 2 [] x.src) with
            | some i => [⟨stInput, i⟩]
            | none => []) ++ failIf (4 ≤ l.length) stQuota 0x22
        else failIf (!here) stInput 0xD8)

/-- EPC_AUTHORITY_SET. -/
def authorityGo (id : Nat) (s : State) : State :=
  match firstFail (authorityFails s (getJob s id)) with
  | some f => failJob id f s
  | none => keyCommit id s

/-- EPC_AUTHORITY_SET (R316). -/
def authoritySem : OpSem where
  pfOnly := pfOnly
  resv d := reservedBad d (offHandle ++ (if d.f 32 1 = 0 then [] else offSrc) ++ offAux ++ offDst ++ span 33 39 ++ span 48 55)
  fenced := pfOnly
  keyed := pfOnly
  src := true
  len x n := failIf (x.d.f 32 1 = 0 && n ≠ 97) stLength 0x10
  own _ x := failIf (1 < x.d.f 32 1) stInput 32
  go := authorityGo
  fin _ s := s

/-- KEY_MIGRATE: the second blob set under MN' of the staged image. -/
def migrateGo (id : Nat) (s : State) : State :=
  let x := getJob s id
  if !(quorumOpenFor s x 0 && quorumOpenFor s x 1) then finishJob id stInput 0xD0 [] [] s else
  let s1 := { s with vault := { s.vault with alt := mnOf s x.src } }
  if imageless s1 then okJob id [] [] (consume [0, 1] s1) else awaitImage 24 id s1

/-- KEY_MIGRATE (R291). -/
def keyMigrateSem : OpSem where
  pfOnly := pfOnly
  resv d := reservedBad d (offHandle ++ offAux ++ offDst ++ span 32 63)
  fenced := anyFn
  keyed := pfOnly
  src := true
  len _ n := failIf (n ≠ 48) stLength 0
  own _ _ := []
  go := migrateGo
  fin _ s := s

end Sys2Proof.Machine
end

