-- ==== Sys2Proof/Machine/TimeCmds.lean ====
section
/-! DEFINITION. Time commands: beacons, EPC_QUERY, the game close tables, configuration of time, STAMP (R58 to R62, R79 to R88). -/

namespace Sys2Proof.Machine

/-! ## EPC_BEACON (R58 to R62) -/

/-- Checks 3 to 8 of R61 on a beacon admitted at an instant, with the authority keys of its admission. -/
def beaconFails (s : State) (auths : List Authority) (b : Bytes) (t : Nat) : List Fail :=
  let key := (auths.find? (·.aki = slice b 12 8)).map (·.key)
  failIf (field b 0 1 ≠ 1) stInput 1 ++ failIf (4 ≤ field b 1 1 || field b 10 2 ≠ 0 || field b 24 8 ≠ 0) stInput 2
    ++ failIf key.isNone stInput 3
    ++ failIf (!Config.verifyOf 2 0 false [] (key.getD []) (digest384 (b.take 32)) (slice b 32 96)) stInput 4
    ++ failIf (!(s.time.edgePair && s.time.base.getD 0 ≤ t + 500000000)) stInput 5
    ++ failIf (s.time.labels.contains (nearestRoll s t)) stInput 6

/-- Check 9: TAI_SEC is the device's second at the rollover, or sets it. -/
def labelAgrees (s : State) (b : Bytes) (t : Nat) : Bool :=
  !acquired s || beaconSec b + s.time.labelRoll = s.time.labelSec + nearestRoll s t

/-- What acquisition completes besides the time state: the ledger's pending DISCONTINUITY records, the reseed origin, the dies' epoch
counts, restored changes and draws whose target has passed, and start-up itself (R73, R219, R233, R253, R299, R470). -/
def acquire (s : State) : State :=
  let e := s.time.epoch
  let due := (s.fence.filter fun f => f.target ≤ e + 1).flatMap (·.changes)
  let later := s.fence.filter fun f => e + 1 < f.target
  let first : List FenceTarget := if due = [] then [] else
    [{ target := e + 1, changes := due, staging := true, staged := true, acks := liveDies s, confirmed := true }]
  let s1 := { s with
    rngT0 := e, ckptAt := s.time.now, startStep := if s.startStep = 10 then 11 else s.startStep
    fence := first ++ later
    draws := s.draws.map fun (d : Draw) => if d.sched ∧ d.st ≤ 1 then { d with passed := decide (d.target ≤ e) } else d
    dies := s.dies.map fun (d : Die) => if d.live then
        { d with epoch := e, staged := if due = [] then d.staged else some { target := e + 1, confirmed := true, changes := due } }
      else d }
  settleAll (stagingStart (writeDiscs (if s1.ckptDirty then requestCkpt false s1 else s1)))

/-- The lane ends the verification of a beacon (R60, R61). -/
def beaconFin (id : Nat) (s : State) : State :=
  match laneOf s id with
  | none => s
  | some _ =>
    let x := getJob s id
    let s1 := freeLane id s
    match inOrder (beaconFails s1 x.auths x.src x.admAt) with
    | some f => failJob id f s1
    | none =>
      if !labelAgrees s1 x.src x.admAt then
        finishJob id stInput 7 [] [] (refreshTrust (modTime (fun m => { m with reasons := { m.reasons with labelMismatch := true } }) s1))
      else
        let first := !acquired s1
        let s2 := refreshTrust (applyBeacon x.src x.admAt s1)
        let s3 := okJob id (leBytes 6 (beaconSec x.src) ++ [byte (match s2.time.st with
          | .unset => 0
          | .acquiring => 1
          | .locked => 2
          | .holdover => 3), byte s2.time.reasons.num]) [] s2
        if first then acquire s3 else s3

/-- EPC_BEACON. -/
def beaconSem : OpSem where
  pfOnly := pfOnly
  resv d := reservedBad d (offHandle ++ offAux ++ offDst ++ span 32 63)
  fenced := anyFn
  keyed := anyFn
  src := true
  len _ n := failIf (n ≠ 128) stLength 0
  own _ _ := []
  go := laneGo
  fin := beaconFin

/-! ## EPC_QUERY (R86) -/

/-- STATE of R66. -/
def TimeSt.num : TimeSt → Nat
  | .unset => 0
  | .acquiring => 1
  | .locked => 2
  | .holdover => 3

/-- A signed number in n bytes. -/
def leInt (n : Nat) (v : Int) : Bytes := leBytes n (if v < 0 then 256 ^ n - v.natAbs else v.natAbs)

/-- The 64 bytes of EPC_QUERY. -/
def epcBlock (s : State) (x : Job) : Bytes :=
  x.stamp.bytes ++ leBytes 6 s.time.epoch ++ leBytes 2 s.ecfg.k ++ [byte s.time.st.num, byte s.time.reasons.num]
    ++ leBytes 2 s.epc.stability ++ leBytes 4 s.epc.trustLimit ++ leBytes 6 (if s.time.labelled then s.time.labelSec else 0)
    ++ leBytes 2 s.time.taiUtc ++ leInt 4 s.time.phi1 ++ leBytes 2 s.time.outOfWindow ++ leBytes 2 s.time.narrow ++ leBytes 6 s.ecfg.origin ++ zeros 10

/-- EPC_QUERY. -/
def epcQuerySem : OpSem where
  pfOnly := anyFn
  resv d := reservedBad d (span 4 23 ++ span 32 63)
  fenced := anyFn
  keyed := anyFn
  src := false
  len _ _ := []
  own _ _ := []
  go id s := okJob id [] (epcBlock s (getJob s id)) s
  fin _ s := s

/-! ## Game close tables (R79 to R83) -/

/-- CLOSE of GAME_CLOSE_SET in ns. -/
def closeNs (sec ns : Nat) : Nat := sec * 1000000000 + ns

/-- The tenant's close table as it will stand at T. -/
def closeAtT (s : State) (x : Job) : List CloseEntry := (mget (bankAt s (targetOf x.d.targetField x.epoch)).close x.tenant).getD []

/-- The checks of R82 in table order, then the grant. An NS of CLOSE that no Stamp has (R63) is out of range (R9), tested with the other
checks on CLOSE itself (log entry 64). -/
def closeSetOwn (s : State) (x : Job) : List Fail :=
  let game := x.d.f 32 2
  let act := x.d.f 34 1
  let c := closeNs (x.d.f 36 6) (x.d.f 42 4)
  let b := boundaryNs s (targetOf x.d.targetField x.epoch)
  let tab := closeAtT s x
  let old := (tab.find? (·.game = game)).map fun e => closeNs e.seconds e.ns
  failIf (game = 0) stInput 0x20 ++ failIf (1 < act) stInput 0x24
    ++ (if act = 0 then
          failIf (x.d.f 46 4 ≠ 0 || x.d.f 50 2 ≠ 0) stInput 0x23 ++ failIf (999999999 < x.d.f 42 4) stInput 42 ++ failIf (c < b) stInput 0x22
            ++ failIf (old.any fun o => b < o && o < c) stInput 0x21
            ++ failIf (old.isNone && (getTenant s x.tenant).g.close ≤ tab.length) stQuota 0
        else [])

/-- GAME_CLOSE_SET accepted. -/
def closeSetGo (id : Nat) (s : State) : State :=
  let x := getJob s id
  let c : Change := if x.d.f 34 1 = 0 then .closeSet x.tenant { game := x.d.f 32 2, seconds := x.d.f 36 6, ns := x.d.f 42 4 } else .closeRetire x.tenant (x.d.f 32 2)
  acceptFenced id (targetOf x.d.targetField x.epoch) [c] s

/-- GAME_CLOSE_SET (R81). -/
def closeSetSem : OpSem where
  pfOnly := anyFn
  resv d := reservedBad d (span 4 31 ++ [35] ++ span 52 55)
  fenced := pfOnly
  keyed := anyFn
  src := false
  len _ _ := []
  own := closeSetOwn
  go := closeSetGo
  fin _ s := s

/-- The tenant's CURRENT table on the Crown. -/
def closeNow (s : State) (x : Job) : List CloseEntry := (mget (crownBank s).close x.tenant).getD []

/-- The earliest pending change of a game: 1 close change or 2 retire, and its target. -/
def closePending (s : State) (t game : Nat) : Nat × Nat :=
  ((s.fence.flatMap fun f => f.changes.filterMap fun c => match c.2 with
    | .closeSet a e => if a = t ∧ e.game = game then some (1, f.target) else none
    | .closeRetire a g => if a = t ∧ g = game then some (2, f.target) else none
    | _ => none).head?).getD (0, 0)

/-- One entry of GAME_CLOSE_READ (R83). -/
def closeEntryBytes (s : State) (x : Job) (e : CloseEntry) : Bytes :=
  let p := closePending s x.tenant e.game
  leBytes 2 e.game ++ [if closeOk x.stamp e.seconds e.ns then 0 else 1, byte p.1] ++ leBytes 6 p.2 ++ zeros 6
    ++ ({ seconds := e.seconds, ns := e.ns, unc := 0, flags := 0 } : Stamp).bytes

/-- GAME_CLOSE_READ. -/
def closeReadGo (id : Nat) (s : State) : State :=
  let x := getJob s id
  let l := closeNow s x
  okJob id (leBytes 4 l.length ++ zeros 4) (l.map (closeEntryBytes s x)).flatten s

/-- GAME_CLOSE_READ (R83). -/
def closeReadSem : OpSem where
  pfOnly := anyFn
  resv d := reservedBad d (span 4 19 ++ span 32 63)
  fenced := anyFn
  keyed := anyFn
  src := false
  len _ _ := []
  own s x := failIf (x.d.aux < 32 * (closeNow s x).length) stLength 0
  go := closeReadGo
  fin _ s := s

/-! ## EPC_CONFIGURE and EPC_EPOCH_SETUP (R87, R88) -/

/-- The values of EPC_CONFIGURE. -/
def epcOf (d : Desc) : EpcParams :=
  { trustLimit := d.f 36 4, stability := d.f 34 2, refUnc := d.f 40 4, grace := d.f 52 2, floor := d.f 44 4, limit := d.f 48 4 }

/-- The parameters as they will stand at T. -/
def epcAt (s : State) (x : Job) : EpcParams :=
  (changesTo s (targetOf x.d.targetField x.epoch)).foldl (fun p c => match c with
    | .epcParams m q => epcMerge p q m
    | _ => p) s.epc

/-- Range checks of R87: INFO is the offset of the field; of several values out of range the one at the lowest offset is reported (DESIGN
CHOICE, log entry 65). -/
def epcRange (s : State) (x : Job) : List Fail :=
  let m := x.d.f 32 1
  let p := epcOf x.d
  let q := epcMerge (epcAt s x) p m
  failIf (m.testBit 1 && !(1 ≤ p.stability && p.stability ≤ 10000)) stInput 34
    ++ failIf (m.testBit 0 && !(1000 ≤ p.trustLimit && p.trustLimit ≤ 1000000000)) stInput 36
    ++ failIf (m.testBit 2 && 1000000 < p.refUnc) stInput 40
    ++ failIf (m.testBit 4 && !(100000 ≤ p.floor && p.floor ≤ 100000000)) stInput 44
    ++ failIf (m.testBit 5 && !(q.floor ≤ p.limit && p.limit ≤ 1000000000)) stInput 48
    ++ failIf (m.testBit 3 && !(2 ≤ p.grace && p.grace ≤ 3600)) stInput 52

/-- EPC_CONFIGURE: at T, or at once before acquisition. It waits for no image write: the values reach the image with the next one written
(DESIGN CHOICE, log entry 66). -/
def epcConfigureGo (id : Nat) (s : State) : State :=
  let x := getJob s id
  let m := x.d.f 32 1
  if acquired s then acceptFenced id (targetOf x.d.targetField x.epoch) [.epcParams m (epcOf x.d)] s
  else okJob id [] [] (consume (fencedRoles s x) { s with epc := epcMerge s.epc (epcOf x.d) m })

/-- EPC_CONFIGURE (R87). -/
def epcConfigureSem : OpSem where
  pfOnly := pfOnly
  resv d := match reservedBad d (span 4 31) with
    | some i => some i
    | none => if 64 ≤ d.f 32 1 then some 32 else firstNonzero d.bytes [33, 54, 55]
  fenced := pfOnly
  keyed := anyFn
  src := false
  len _ _ := []
  own s x := failIf ((fencedRoles s x).any fun r => !quorumOpenFor s x r) stInput 0xD0 ++ epcRange s x
  go := epcConfigureGo
  fin _ s := s

/-- K is legal (R70). -/
def legalK (k : Nat) : Bool := 1 ≤ k && k ≤ 10000 && 1000000000 % k = 0

/-- EPC_EPOCH_SETUP is accepted in this time state and life-cycle state (R88). -/
def epochSetupOpen (s : State) : Bool :=
  s.time.st.num ≤ 1 && (s.lcs = .blank || s.lcs = .test || (s.lcs = .provision && !s.otp.marker))

/-- The programmings of the epoch values, the marker last (R349, R362). -/
def epochSteps (x : Job) : List OtpStep :=
  [.originLow (x.d.f 32 6 % 4294967296), .originHigh (x.d.f 32 6 / 4294967296), .kWord (x.d.f 38 2) ((x.d.f 40 1).testBit 0), .marker]

/-- Programs OTP words for a command; one that finds another at work waits for it (R370). -/
def startBurn (id : Nat) (todo : List OtpStep) (s : State) : State :=
  { modJob id (fun x => { x with phase := .wait 46 }) s with life := { s.life with burn := some { job := id, todo := todo } } }

/-- A bit of the OTP words is set that the new values do not have (R362). -/
def otpConflict (s : State) (x : Job) : Bool :=
  s.lcs = .provision && ((s.otp.origin ||| x.d.f 32 6) ≠ x.d.f 32 6 || (s.otp.k ||| x.d.f 38 2) ≠ x.d.f 38 2 || (s.otp.falling && !(x.d.f 40 1).testBit 0))

/-- EPC_EPOCH_SETUP: volatile values, or the OTP words of R349 in PROVISION, where what an earlier command has programmed meanwhile is looked at
again (R72, R88, R362). -/
def epochSetupGo (id : Nat) (s : State) : State :=
  let x := getJob s id
  if s.lcs ≠ .provision then
    okJob id [] [] { s with ecfg := { k := x.d.f 38 2, origin := x.d.f 32 6, falling := (x.d.f 40 1).testBit 0, fromOtp := false } }
  else if s.life.burn.isSome then modJob id (fun x => { x with phase := .wait 47 }) s
  else if s.otp.marker then finishJob id stLocked 0 [] [] s
  else if otpConflict s x then finishJob id stInput 0xE9 [] [] s
  else startBurn id (epochSteps x) s

/-- EPC_EPOCH_SETUP (R88). -/
def epochSetupSem : OpSem where
  pfOnly := pfOnly
  resv d := match reservedBad d (span 4 31) with
    | some i => some i
    | none => if 2 ≤ d.f 40 1 then some 40 else firstNonzero d.bytes (span 41 63)
  fenced := anyFn
  keyed := anyFn
  src := false
  len _ _ := []
  own s x := failIf (!epochSetupOpen s) stLocked 0 ++ failIf (!legalK (x.d.f 38 2)) stInput 0x26 ++ failIf (otpConflict s x) stInput 0xE9
  go := epochSetupGo
  fin _ s := s

/-! ## STAMP (R84, R85) -/

/-- The checks of STAMP. -/
def stampOwn (s : State) (x : Job) : List Fail :=
  let m := x.d.f 40 1
  failAt (if m = 0 then firstNonzero x.d.bytes offHandle else none) ++ failIf (1 < m) stInput 0x28 ++ failIf (x.d.dst = 0) stInput 0x29
    ++ (if m = 1 then wideKeyFails x [2] [0x15] else []) ++ stampFails s x false

/-- Result bytes of STAMP: SECONDS and FLAGS. -/
def stampResult (x : Job) : Bytes := leBytes 6 x.stamp.seconds ++ leBytes 2 x.stamp.flags

/-- A STAMP ends: OK, or OK_FLAGGED when the Stamp is untrusted (R69). -/
def stampEnd (id : Nat) (out : Bytes) (s : State) : State :=
  let x := getJob s id
  let ok := x.stamp.flags.testBit 0
  finishJob id (if ok then stOk else stFlagged) 0 (stampResult x) out (modJob id (fun y => { y with flagged := !ok }) s)

/-- STAMP: the Stamp at once, or a token from a lane. Under TIME policy 3 it runs in host-assisted mode (R45). -/
def stampGo (id : Nat) (s : State) : State :=
  let s1 := modJob id (fun y => { y with hostRun := y.onlyBeacon }) s
  if (getJob s id).d.f 40 1 = 0 then stampEnd id (getJob s id).stamp.bytes s1 else laneGo id s1

/-- Bytes 0 to 31 of a time token (R85). -/
def tokenHead (x : Job) : Bytes := x.stamp.bytes ++ leBytes 6 x.epoch ++ leBytes 2 x.fn ++ slice x.d.bytes 32 8

/-- The lane ends a token. -/
def stampFin (id : Nat) (s : State) : State :=
  match laneOf s id with
  | none => s
  | some _ =>
    let x := getJob s id
    let h := tokenHead x
    let g := slotSign x.die (x.key.getD {}) x.d.handle 0 false [] (digest384 h) s
    stampEnd id (h ++ fit 96 g.1) (freeLane id g.2)

/-- STAMP (R84). -/
def stampSem : OpSem where
  pfOnly := anyFn
  resv d := reservedBad d (span 8 23 ++ span 41 63)
  fenced := anyFn
  keyed d := d.f 40 1 = 1
  src := false
  len _ _ := []
  own := stampOwn
  go := stampGo
  fin := stampFin

end Sys2Proof.Machine
end

