-- ==== Sys2Proof/Machine/DieRegs.lean ====
section
/-! DEFINITION. The per-die registers of the set-up map (R482; layouts R143, R183, R256, R287, R419, R451, R474). -/

namespace Sys2Proof.Machine

/-- Bits from a list of conditions, the first at bit 0. -/
def maskOf (l : List Bool) : Nat := (l.mapIdx fun i b => bit b i).sum

/-- The registers of a die sub-window: window number of R481 and offset. -/
def dieRegs : List (Nat × Nat) :=
  [(1, 0), (3, 0), (5, 0), (5, 4), (6, 0), (6, 4), (6, 8), (7, 0), (10, 0), (10, 4), (11, 0), (11, 4), (11, 8), (12, 0), (12, 4), (12, 8), (12, 0xC)]

/-- SATURATED flags of 32 counters from the given one on (R451). -/
def satFlags (d : Die) (from_ : Nat) : Nat := maskOf ((List.range 32).map fun i => ((mget d.cnt (from_ + i)).getD {}).sat)

/-- RNG_STATUS_Dn (R256). -/
def rngStatus (now : Nat) (d : Die) : Nat :=
  (d.bows.mapIdx fun i b => b.shown now * 8 ^ i).sum + bit d.rngReady 12 + bit (entropyDown d) 13 + bit d.rngReinst 14 + fifoUnits d * 65536

/-- Reading of a sensor, 0 before the first sample. -/
def readingOf (s : State) (id : Nat) : Int := (mget s.hatter.readings id).getD 0

/-- A number in 16 bits of two's complement. -/
def tc16 (v : Int) : Nat := leNat (leInt 2 v)

/-- TEMP_MAX of a die: the highest of its four readings (R451). -/
def tempMax (s : State) (die : Nat) : Int :=
  let r (i : Nat) : Int := readingOf s (0x100 + 16 * die + i)
  max (max (r 0) (r 1)) (max (r 2) (r 3))

/-- The live value of a per-die register, by window and offset; none where no register lies. -/
def dieValue (s : State) (die win off : Nat) : Option Nat :=
  let d := getDie s die
  let m := d.mandrel
  let up := d.live && d.coresUp
  match win, off with
  | 1, 0 => some d.pollIv
  | 3, 0 => some (if up then maskOf (d.cores.map (!·.retired)) else 0)
  | 5, 0 => some (rngStatus s.time.now d)
  | 5, 4 => some (d.rct + d.apt * 256 + d.bias * 65536 + d.switches * 16777216)
  | 6, 0 => some ((if up then maskOf (d.lanes.map (!·.retired)) else 0) + 256 * maskOf (d.lanes.map (·.susp.isSome)))
  | 6, 4 => some (min d.rq.length 4095 + 4096 * min d.fetching.length 4095)
  | 6, 8 => some (d.verifyFail + 65536 * d.laneFault)
  | 7, 0 => some (m.kw.st + 4 * m.sw.st + 256 * min m.kw.restarts 255 + 65536 * min m.sw.restarts 255)
  | 10, 0 => some (m.viols + 32768 * m.region + 2097152 * m.kind + 8388608 * m.reason + 134217728 * m.master)
  | 10, 4 => some (m.addr % 4294967296)
  | 11, 0 => some (satFlags d 0)
  | 11, 4 => some (satFlags d 32)
  | 11, 8 => some (d.sampler.recs.length + bit (decide (4096 ≤ d.sampler.recs.length)) 13 + 65536 * d.sampler.dropped)
  | 12, 0 => some (tc16 (tempMax s die))
  | 12, 4 => some (tc16 (readingOf s (0x104 + 16 * die)) + 65536 * tc16 (readingOf s (0x105 + 16 * die)))
  | 12, 8 => some (m.req + 256 * m.held + 65536 * m.gated)
  | 12, 0xC => some (bit d.inverted 0 + bit d.passing 1 + 65536 * d.passes)
  | _, _ => none

/-- Key of a register in the copy of a fenced die. -/
def dieKey (win off : Nat) : Nat := win * 256 + off

/-- The value that a fenced die's copy keeps: HEALTHY and READY clear (R482). -/
def frozenValue (win off v : Nat) : Nat :=
  if win = 3 ∧ off = 0 then 0
  else if win = 6 ∧ off = 0 then v / 64 * 64
  else if win = 5 ∧ off = 0 then v - bit (v.testBit 12) 12
  else v

/-- The Crown's copy of a die's registers at its fence (R482). -/
def freezeDie (die : Nat) (s : State) : State :=
  let m := dieRegs.filterMap fun (r : Nat × Nat) => (dieValue s die r.1 r.2).map fun v => (dieKey r.1 r.2, frozenValue r.1 r.2 v)
  modDie die (fun d => { d with frozen := m }) s

/-- A per-die register as the host reads it (R482): 0 for an absent die, the last copy for a fenced one. -/
def dieReg (s : State) (die win off : Nat) : Option Nat :=
  if dieRegs.contains (win, off) then
    if dieCount s ≤ die then some 0
    else if (getDie s die).fenced.isSome then some ((mget (getDie s die).frozen (dieKey win off)).getD 0)
    else dieValue s die win off
  else none

end Sys2Proof.Machine
end

