-- ==== Sys2Proof/Machine/Band.lean ====
section
/-! DEFINITION. Band links, memory errors, die fencing and the Crown fault (chapter 01). -/

namespace Sys2Proof.Machine

/-! ## LIVE_MASK -/

/-- LIVE_MASK (R22). -/
def liveMask (s : State) : Nat := ((liveDies s).map fun d => 2 ^ d).sum

/-! ## Die fence (R48, R49) -/

/-- A job that a die fence ends: placed on the die and not yet journalled. -/
def Job.fenceHit (x : Job) (die : Nat) : Bool :=
  x.die = die && x.ring != ownRing && x.phase != .done && !x.appended && x.phase != .fence

/-- A job of the die whose failed admission has not been posted (R18). -/
def Job.refusedOn (x : Job) (die : Nat) : Bool := x.die = die && x.ring != ownRing && x.phase = .done && x.refused

/-- The draw instances of a fenced die are assigned again to live dies; those that find no place are lost, and recorded (R239). -/
def moveInstances (die : Nat) (s : State) : State :=
  let mine := (getDie s die).drawDrbgs
  let ts := (mine.map (·.tenant)).foldl insertNat []
  ts.foldl (fun s t =>
    let n := (mine.filter (·.tenant = t)).length
    let count (s : State) : Nat := ((s.dies.map fun (d : Die) => (d.drawDrbgs.filter (·.tenant = t)).length)).sum
    let s1 := assignDrbgs t n s
    let got := count s1 - count s
    if got < n then recEvent 0x0505 (leBytes 2 t ++ leBytes 1 (count s1) ++ zeros 5) s1 else s1)
    (modDie die (fun d => { d with drawDrbgs := [] }) s)

/-- A scheduled draw that a fenced die is running runs again on another die, with fresh entropy (R257). -/
def rerunDraws (die : Nat) (s : State) : State :=
  let hit (d : Draw) : Bool := d.inRun && d.die = die
  { s with
    elig := s.elig.filter fun e => !(s.draws.any fun d => hit d && e = .draw d.id)
    draws := s.draws.map fun d => if hit d then { d.undo with due := some d.exec, rerun := true } else d }

/-- What a fenced die holds of the leaves that it would fold, and the results of its skid buffers, are gone. -/
def Die.dropTrees (d : Die) : Die := { d with acks := [], treeBuf := [], subtrees := [], skid := [] }

/-- The device's own signing jobs of a fenced die are placed again on another live die (R278). -/
def moveSigns (die : Nat) (s : State) : State :=
  (s.jobs.filter fun j => j.2.ring = ownRing && j.2.die = die).foldl (fun s j =>
    let s1 := unplace j.1 s
    queueLane j.1 (modJob j.1 (fun x => { x with die := signDie s1 }) s1)) s

/-- TMP_MONITOR_TEST commands whose last test has ended complete; the start-up tests of steps 4 and 7 end their steps (R392, R470). -/
def endTests (s : State) : State :=
  let busy (o : Option Nat) : Bool := s.tamper.tests.any (·.job = o)
  let s1 := (s.jobs.filter fun j => j.2.phase = .wait 40 && !busy (some j.1)).foldl
    (fun s j => okJob j.1 (leBytes 2 j.2.tmp ++ leBytes 2 j.2.tmp2) [] s) s
  if busy none then s1
  else if s1.startStep = 4 then { s1 with startStep := 5 }
  else if s1.startStep = 7 ∧ s1.pwr.booting then
    { s1 with startStep := 8, pwr := { s1.pwr with booting := false }, dies := s1.dies.map fun (d : Die) => { d with coresUp := d.live } }
  else s1

/-- The tests of a die that has left service are over. -/
def dropTests (die : Nat) (s : State) : State :=
  if s.tamper.tests.any (·.die = die) then endTests { s with tamper := { s.tamper with tests := s.tamper.tests.filter (·.die ≠ die) } } else s

/-- One die goes out of service (R49): its jobs that are not journalled end with FAULT_RETRY, and so do its refused jobs whose completion
has not been posted (R18). A job whose leaf is journalled is left alone, so that every completed seal stays in exactly one root (R50). -/
def fenceOne (die cause : Nat) (s : State) : State :=
  if die = 0 ∨ !(getDie s die).live then s else
  let s1 := modDie die (fun d => { d with live := false, fenced := some cause, staged := none, sampler := { d.sampler with recs := [] } }) (freezeDie die s)
  let s2 := urgentAll 3 die (recEventAt die 0 0x0B04 ([byte cause, byte (liveMask s1)] ++ zeros 6) (raiseFnEvent 0 { s1 with dieChanged := true }))
  let hit := s2.jobs.filter fun j => j.2.fenceHit die
  let refused := s2.jobs.filter fun j => j.2.refusedOn die
  let s3 := hit.foldl (fun s j => stopJob j.1 stRetry 0 s) (refused.foldl (fun s j => replaceResult j.1 stRetry s) s2)
  endEntropyStep (dropTests die (settleStaging (moveSigns die (modDie die Die.dropTrees (moveInstances die (rerunDraws die s3))))))

/-- A die fence; fencing a relay fences every leaf behind it with cause 5 (R48). -/
def fenceDie (die cause : Nat) (s : State) : State :=
  if die = 0 ∨ !(getDie s die).live then s else
  settleAll ((leavesOf s die).foldl (fun s l => fenceOne l 5 s) (fenceOne die cause s))

/-! ## Ports (R23 to R27) -/

/-- A port is down: the die behind it is fenced (R25, R48). -/
def portDown (die port : Nat) (s : State) : State :=
  let s1 := modBand die port (fun p => { p with down := true, training := false }) s
  match cutOff s die port with
  | some d => fenceDie d 0 s1
  | none => s1

/-- A retrain starts; the third within one second declares the port down (R25). -/
def startRetrain (die port : Nat) (s : State) : State :=
  let l := ((getBand s die port).retrains.filter fun t => s.time.now < t + 1000000000) ++ [s.time.now]
  if 3 ≤ l.length then portDown die port (modBand die port (fun p => { p with retrains := l }) s)
  else modBand die port (fun p => { p with retrains := l, training := true, replays := 0 }) s

/-- The ACK field of a good flit: acknowledged flits leave the retry buffer; a NAK replays the rest, and the fifth call for the same
flit retrains the port (R25). -/
def ackFlit (die port : Nat) (f : Bytes) (s : State) : State :=
  let p := getBand s die port
  let a := bits (field f 2 2) 0 12
  let n := if a = p.acked then p.replays else 0
  let s0 := modBand die port (fun p => { p with acked := a, replays := n, retry := ackedUpTo p.retry a }) s
  if (field f 2 2).testBit 12 then
    let s1 := countOn die 0x0B 0 1 (modBand die port (fun p => { p with replays := n + 1 }) s0)
    if 4 ≤ n then startRetrain die port s1 else replay die port s1
  else s0

/-- A keepalive flit of a port; it carries the acknowledgement or the NAK that is due (R25, R27). -/
def keepaliveFlit (s : State) (die port : Nat) : Flit :=
  { cls := 3, dst := (portPeer s die port).getD 0, src := die, typ := (Config.flitType 0).toNat }

/-- A good flit for another die goes on towards it (R20). -/
def forwardFlit (die : Nat) (f : Flit) (s : State) : State :=
  if f.dst = die ∨ f.cls = 3 ∨ s.dies.length ≤ f.dst then s else sendFlit die (portTo s die f.dst) f s

/-- A flit arrives at a port (R24, R25); `worst` is the largest number of wrong bits in one code word of its body, of which two are
corrected (R31). A bad one is discarded and answered with NAK and the last good FSEQ, and every later one is discarded until the sender
has replayed. -/
def flitReceive (die port : Nat) (f : Bytes) (worst : Nat) (s : State) : State :=
  let p := getBand s die port
  if !portUp s die port ∨ p.training then s
  else if !flitOk f || 2 < worst then
    transmit die port (keepaliveFlit s die port) (modBand die port (fun p => { p with nak := true }) s)
  else
    let s1 := modBand die port (fun p => { p with lastRx := s.time.now }) s
    let seq := bits (field f 0 2) 0 12
    if seq = (p.rxSeq + 1) % 4096 then
      forwardFlit die (flitOf f) (ackFlit die port f (modBand die port (fun p => { p with rxSeq := seq, nak := false }) s1))
    else s1

/-- No other flit has been sent for 1 µs: a keepalive flit (R27). -/
def keepalive (die port : Nat) (s : State) : State :=
  let p := getBand s die port
  if portUp s die port ∧ !p.training ∧ p.lastTx + 1000 ≤ s.time.now then transmit die port (keepaliveFlit s die port) s else s

/-- No valid flit for 4 µs: a retrain (R27). -/
def silence (die port : Nat) (s : State) : State :=
  let p := getBand s die port
  if portUp s die port ∧ !p.training ∧ p.lastRx + 4000 ≤ s.time.now then startRetrain die port s else s

/-- A retrain ends at x4, at x2 (R26), or fails. A port at x2 stays there. The retry buffer is replayed across the change, and what has
waited meanwhile is sent. -/
def retrainDone (die port width : Nat) (s : State) : State :=
  let p := getBand s die port
  if !p.training then s
  else if width ≠ 4 ∧ width ≠ 2 then portDown die port s
  else
    let w := min p.wide width
    let s1 := modBand die port (fun p => { p with training := false, wide := w, nak := false, lastRx := s.time.now }) s
    drainPort die port (replay die port (if w < p.wide then recEventAt die 0 0x0B01 (byte port :: zeros 7) s1 else s1))

/-- A brim die without an upstream flit for 24 µs clears its key registers and its replica and halts; the Crown has fenced it before (R51). -/
def upstreamTimeout (die : Nat) (s : State) : State :=
  if die = 0 ∨ s.dies.length ≤ die ∨ s.time.now < (getBand s die 0).lastRx + 24000 then s else
  modDie die (fun d => { d with
    halted := true, held := [], bank := { d.bank with slots := [] }
    cores := d.cores.map fun c => { c with cache := [], job := none }
    lanes := d.lanes.map fun u => { u with job := none, susp := none, key := [], suspKey := [], blind := [], suspBlind := [] }
    macQ := [], rq := [], fetching := [], ringP := [], ringG := [], collector := [] }) (fenceDie die 0 s)

/-! ## Clock offset and confirmation (R37, R39) -/

/-- A die whose epoch offset exceeds 50 ns is fenced (R39). -/
def offsetCheck (die : Nat) (offset : Int) (s : State) : State := if 50 < offset.natAbs then fenceDie die 3 s else s

/-- 10 µs before T: a live die that has not acknowledged is fenced, and the change is confirmed by one urgent flit (R37 step 4). While the
Crown's own Mandrel has not staged it, or the Crown key world does not run, every change of T is withdrawn. -/
def fenceConfirm (tgt : Nat) (s : State) : State :=
  match s.fence with
  | [] => s
  | f :: _ =>
    if !(f.staging && f.target = tgt && acquired s) || boundaryAt s tgt > s.time.now + 10000 then s
    else if !f.acks.contains 0 ∨ (getDie s 0).mandrel.kw.st ≠ 0 then withdrawTarget tgt s
    else
      let late := (liveDies s).filter fun d => !f.acks.contains d
      let s1 := urgentAll 5 tgt (late.foldl (fun s d => fenceDie d 4 s) s)
      settleStaging { s1 with fence := s1.fence.map fun (g : FenceTarget) => if g.target = tgt then { g with confirmed := true } else g }

/-! ## Crown fault (R52) -/

/-- A queue of a function stops with the package: vector 0 of the function, and RING_STOPPED (R52, R97, R116). -/
def stopQueues (fn : Nat) (s : State) : State :=
  if (getFn s fn).queues.any fun q => q.2.st = .running then
    raiseFnEvent 4 (signal fn 0 (modFn fn (fun f => { f with
      queues := mmap (fun _ (q : Queue) => if q.st = .running then { q with st := .stopped, copies := [], failAt := none, hold := none } else q) f.queues }) s))
  else s

/-- A Crown fault (R52): nothing more is taken, every job not yet journalled completes with FAULT_FATAL, a failed admission that has not
been posted gives way to it (R18), and every ring stops. This is the one fault that stops every ring, until a package reset (R50). -/
def crownFail (addr : Nat) (s : State) : State :=
  if s.crownFault then s else
  let ids := (s.jobs.filter fun j => j.2.phase ≠ .done ∧ !j.2.appended).map (·.1)
  let refused := (s.jobs.filter fun j => j.2.phase = .done && j.2.refused).map (·.1)
  let s1 := refused.foldl (fun s j => replaceResult j stFatal s) { s with crownFault := true, lining := { s.lining with crownFault := true } }
  let s2 := ids.foldl (fun s j => if (getJob s j).ring = ownRing then dropJob j (unplace j s) else stopJob j stFatal 0 s) s1
  aerError 0 2 addr (s2.fns.foldl (fun s f => stopQueues f.1 s) s2)

/-! ## Memory errors (R32) -/

/-- Slots whose Crown copy has an uncorrectable word: invalidated on every die, generation advanced; admitted jobs that use it answer KEY_STALE. -/
def slotLost (slot : Nat) (s : State) : State :=
  let users := s.jobs.filter fun j => j.2.ring ≠ ownRing && j.2.usesKey [slot]
  clearSlots [slot] s.nextJob (users.foldl (fun s j => stopJob j.1 stStale 0 s) s)

/-- A word read with so many wrong bits, stored at the given address, is corrected: at most two bits, and the word of this address (R31). -/
def wordCorrected (errors stored addr : Nat) : Bool := errors ≤ 2 && stored = addr

/-- A memory error (R31, R32): a word read at `addr` with `errors` wrong bits, which had been stored at `stored`. The unit is a core (0 to 15),
a lane (16 to 21), a tree hasher (22 and up) or a slot, by the code. World memory is left to the caller. Errors are counted: corrected ones
as event 0x0C, uncorrectable ones in MEM_ERRORS of the die (log entry 58). -/
def memoryError (die errors stored code unit addr : Nat) (s : State) : State :=
  if s.dies.length ≤ die ∨ (errors = 0 ∧ stored = addr) then s
  else if wordCorrected errors stored addr then countOn die 0x0C 0 1 s
  else
    let s1 := recEventAt die 0 0x0B02 (byte code :: zeros 7 ++ leBytes 8 addr) (modDie die (fun d => { d with memErrors := d.memErrors + 1 }) s)
    if code = 0 then settleAll (if unit < 16 then coreFault die 0 unit s1 else if unit < 22 then coreFault die 1 (unit - 16) s1 else coreFault die 2 (unit - 22) s1)
    else if code = 1 then (if die = 0 ∨ !(getDie s1 die).live then s1 else modDie die (fun d => { d with refetch := insertNat d.refetch unit }) s1)
    else if code = 2 then (if die = 0 then settleAll (slotLost unit s1) else s1)
    else if 3 ≤ code ∧ code ≤ 7 then (if die = 0 then crownFail addr s1 else s1)
    else if code = 9 ∨ code = 10 then fenceDie die 2 s1
    else s1

/-- A refetched slot has arrived: the jobs that wait for it go on (R32). -/
def refetchDone (die slot : Nat) (s : State) : State :=
  if (getDie s die).refetch.contains slot then
    startLanes die (startMac die (modDie die (fun d => { d with
      refetch := d.refetch.filter (· ≠ slot)
      bank := { d.bank with slots := match mget (crownBank s).slots slot with
        | some k => mset d.bank.slots slot k
        | none => mdel d.bank.slots slot } }) s))
  else s

/-! ## The commands -/

/-- OFFSET_CHECK (R39). -/
def execOffsetCheck (t die : Nat) (offset : Int) (s : State) : Host.Outcome State Fault Refusal := .next (offsetCheck die offset (tick t s))
/-- FENCE_CONFIRM (R37). -/
def execFenceConfirm (t target : Nat) (s : State) : Host.Outcome State Fault Refusal := .next (fenceConfirm target (tick t s))
/-- FLIT_RECEIVE (R25). -/
def execFlitReceive (t die port : Nat) (flit : Bytes) (worst : Nat) (s : State) : Host.Outcome State Fault Refusal :=
  .next (flitReceive die port flit worst (tick t s))
/-- KEEPALIVE_TIMER (R27). -/
def execKeepaliveTimer (t die port : Nat) (s : State) : Host.Outcome State Fault Refusal := .next (keepalive die port (tick t s))
/-- LINK_SILENCE_TIMEOUT (R27). -/
def execLinkSilenceTimeout (t die port : Nat) (s : State) : Host.Outcome State Fault Refusal := .next (silence die port (tick t s))
/-- PORT_RETRAIN_DONE (R25). -/
def execPortRetrainDone (t die port width : Nat) (s : State) : Host.Outcome State Fault Refusal := .next (retrainDone die port width (tick t s))
/-- UPSTREAM_TIMEOUT (R51). -/
def execUpstreamTimeout (t die : Nat) (s : State) : Host.Outcome State Fault Refusal := .next (upstreamTimeout die (tick t s))
/-- MANDREL_WATCHDOG (R48). -/
def execMandrelWatchdog (t die : Nat) (s : State) : Host.Outcome State Fault Refusal := .next (fenceDie die 1 (tick t s))
/-- CROWN_FAULT (R52): a fault of the Crown's own Band logic, which has no address (log entry 60). -/
def execCrownFault (t : Nat) (s : State) : Host.Outcome State Fault Refusal := .next (crownFail 0 (tick t s))
/-- SLOT_REFETCH_DONE (R32). -/
def execSlotRefetchDone (t die slot : Nat) (s : State) : Host.Outcome State Fault Refusal := .next (refetchDone die slot (tick t s))

end Sys2Proof.Machine
end

