-- ==== Sys2Proof/Machine/Lifecycle.lean ====
section
/-! DEFINITION. Life-cycle states and their OTP encoding, transitions, tokens, the RETURN unlock and debug grants (chapter 11). -/

namespace Sys2Proof.Machine

/-! ## OTP encoding (R350, R351, R360) -/

/-- A state from its code. -/
def lcsOf (code : Nat) : Lcs :=
  if code = 1 then .blank else if code = 2 then .test else if code = 3 then .provision else if code = 4 then .field
  else if code = 5 then .ret else if code = 6 then .scrap else .invalid

/-- Decoding of words 0 to 7: an exact match, or INVALID (R351). -/
def decodeLcs (words : List Nat) : Lcs :=
  match (span 1 6).find? fun c => lcsPattern c = words with
  | some c => lcsOf c
  | none => .invalid

/-- A token digest slot is programmed. -/
def slotProgrammed (d : Bytes) : Bool := d.any (· ≠ 0)

/-- The digest that a transition to a target needs (R352): the mask ROM's for TEST, else an OTP slot. -/
def tokenDigest (s : State) (target : Nat) : Option Bytes :=
  if target = 2 then some (beBytes 48 Config.romTokenDigest.toNat) else
  let d := s.otp.slots.getD (if target = 6 then 4 else target - 3) []
  if slotProgrammed d then some d else none

/-! ## LCS_TRANSITION (R352, R354, R355, R360) -/

/-- A transition of R352 from a state to a target code. -/
def legalTransition (from_ target : Nat) : Bool :=
  [(1, 2), (2, 3), (3, 4), (4, 5), (2, 6), (3, 6), (4, 6), (5, 6)].contains (from_, target)

/-- The transition needs a Security Officer quorum. -/
def transitionQuorum (from_ : Nat) : Bool := from_ = 3 || from_ = 4

/-- A draw is pending (R241). -/
def anyDrawPending (s : State) : Bool := s.draws.any fun d => !d.resolved

/-- Checks 4 to 10 of R355, in order. -/
def transitionFails (s : State) (x : Job) : List Fail :=
  let t := x.d.f 32 1
  let f := s.lcs.code
  let bad : List Fail := match tokenDigest s t with
    | some d => failIf (digest384 x.src ≠ d) stInput 0xED
    | none => []
  if s.lcs = .invalid then failIf (t ≠ intentTarget s || t = 0) stInput 0xEE ++ failIf (tokenDigest s t).isNone stInput 0xE9 ++ bad
  else
    failIf (!legalTransition f t) stInput 0xE8 ++ failIf (transitionQuorum f && !quorumOpenFor s x 0) stInput 0xD0
      ++ failIf ((tokenDigest s t).isNone || (f = 2 && t = 3 && !(s.otp.slots.all slotProgrammed))) stInput 0xE9
      ++ failIf (transitionQuorum f && anyDrawPending s) stInput 0xEA
      ++ failIf (((f = 3 && t = 4) || (f = 4 && t = 5)) && !s.quiesced) stInput 0xEB
      ++ failIf (f = 3 && t = 4 && !(prPresent s && s.otp.marker)) stInput 0xEC ++ bad

/-- The programming that a transition needs, of bits that are still 0 (R356 steps 4 to 6). -/
def otpSteps (s : State) (target : Nat) : List OtpStep :=
  let pat := lcsPattern target
  let words := (List.range 8).filterMap fun i => if s.otp.words.getD i 0 ≠ pat.getD i 0 then some (OtpStep.word i (pat.getD i 0)) else none
  let dies := List.range (dieCount s)
  [.intent target] ++ words ++ (if target = 5 then dies.map .wipeW else if target = 6 then dies.map .fill else [])

/-- Closes every granted enable (R368, R369). -/
def endGrant (s : State) : State :=
  if s.life.grantOn then { s with life := { s.life with enables := s.life.enables - (s.life.enables &&& s.life.granted), granted := 0, grantOn := false } } else s

/-- Every job not yet admitted, or running, ends: LOCKED with INFO 0x01, or ABORTED (R356 steps 1 and 2). The commands of a quorum session or an
enrolment end with their session or exchange; another transition that waits is not yet taken (R370). -/
def sweepJobs (id : Nat) (s : State) : State :=
  let all := s.jobs.filter fun j => j.1 ≠ id && j.2.phase ≠ .done && j.2.phase ≠ .wait 23 && !j.2.appended
  all.foldl (fun s j =>
    if j.2.ring = ownRing then dropJob j.1 (unplace j.1 s)
    else if j.2.unhanded ∨ j.2.phase = .wait 30 ∨ j.2.phase = .wait 47 then stopJob j.1 stLocked 1 s
    else stopJob j.1 stAborted 0 s) s

/-- The transition writes an image: not from BLANK, and not from TEST to SCRAP (R505). -/
def transitionImaged (from_ target : Nat) : Bool := !(target = 2 || (from_ = 2 && target = 6) || from_ = 0x0F)

/-- Steps 1 and 2 of R356; the repeat of R360 starts at step 4. -/
def beginTransition (id : Nat) (s : State) : State :=
  let t := (getJob s id).d.f 32 1
  let f := s.lcs.code
  let s0 := modJob id (fun x => { x with phase := .wait 32 }) (endGrant s)
  let img := transitionImaged f t
  let n := if img then crownBytes 0 32 (sweepJobs id s0) else ([], if f = 0x0F then s0 else sweepJobs id s0)
  let s1 := if f = 0x0F then n.2 else eraseAll n.2
  let s2 := if img then { s1 with lining := { s1.lining with lk := some n.1 } } else s1
  { s2 with life := { s2.life with burn := none, trans := some { job := id, target := t, from_ := f, imaged := !img, todo := otpSteps s2 t } } }

/-- LCS_TRANSITION with its token held. -/
def transitionGo (id : Nat) (s : State) : State :=
  match inOrder (transitionFails s (getJob s id)) with
  | some f => failJob id f s
  | none => if s.hold ∨ s.life.burn.isSome then awaitImage 30 id s else beginTransition id s

/-- LCS_TRANSITION (R354). -/
def lcsTransitionSem : OpSem where
  pfOnly := pfOnly
  resv d := reservedBad d (offHandle ++ offAux ++ offDst ++ span 33 63)
  fenced := anyFn
  keyed := anyFn
  src := true
  len _ n := failIf (n ≠ 32) stLength 0
  own _ _ := []
  go := transitionGo
  fin _ s := s

/-- The carry set of R357 as an image under the present LK. -/
def carryImage (s : State) (target : Nat) (lk : Bytes) : Image :=
  let keep := target = 3 ∨ target = 4
  { ver := s.lining.imgCount + 1, lk := lk, psn := s.psnCeil, signedTo := s.time.signedTo
    rosters := if keep then s.vault.rosters else [{}, {}, {}, {}], auths := if keep then s.authorities else []
    epc := if keep then s.epc else {}, period := if keep then s.rngPeriod else none }

/-- The carry image has been written: steps 4 to 6 begin. -/
def transitionWritten (s : State) : State :=
  match s.life.trans, s.lining.lk with
  | some tr, some lk =>
    if tr.imaged then s else putImage (carryImage s tr.target lk) { s with life := { s.life with trans := some { tr with imaged := true } } }
  | _, _ => s

/-- One programming takes effect (R349, R356). -/
def programOtp (o : Otp) : OtpStep → Otp
  | .intent t => { o with intents := lset o.intents (t - 2) 0xFF }
  | .word i v => { o with words := lset o.words i (o.words.getD i 0 ||| v) }
  | .wipeW d => { o with w := lset o.w d none }
  | .slotWord n i v => let old := fit 48 (o.slots.getD n []); { o with slots := lset o.slots n (old.take (4 * i) ++ fit 4 v ++ old.drop (4 * i + 4)) }
  | .originLow v => { o with origin := o.origin ||| v }
  | .originHigh v => { o with origin := o.origin ||| (v * 4294967296) }
  | .kWord k f => { o with k := o.k ||| k, falling := o.falling || f }
  | .marker => { o with marker := true }
  | .fill d => if d = 0 then { o with
                   intents := [255, 255, 255, 255, 255], slots := List.replicate 5 (List.replicate 48 0xFF), packageId := List.replicate 16 0xFF
                   origin := 0xFFFFFFFFFFFF, k := 0x3FFF, falling := true, marker := false
                   dr := lset o.dr d none, w := lset o.w d none, filled := insertNat o.filled d }
               else { o with dr := lset o.dr d none, w := lset o.w d none, filled := insertNat o.filled d }

/-- Step 7: the command completes and RESET_REQUIRED is set. -/
def transitionDone (tr : Trans) (s : State) : State :=
  okJob tr.job [byte tr.target, byte tr.from_] [] (recEvent 0x0901 ([byte tr.from_, byte tr.target] ++ zeros 6)
    { s with life := { s.life with trans := none, resetRequired := true } })

/-! ## LCS_TOKEN_SET (R353) -/

/-- A bit is set that the digest does not have. -/
def digestConflict (old new : Bytes) : Bool := (List.zipWith (fun (a b : Byte) => decide ((a ||| b) ≠ b)) old new).any id

/-- The words of a slot that a digest still needs. -/
def slotSteps (s : State) (i : Nat) (new : Bytes) : List OtpStep :=
  (List.range 12).filterMap fun w =>
    if slice (fit 48 (s.otp.slots.getD i [])) (4 * w) 4 = slice new (4 * w) 4 then none else some (.slotWord i w (slice new (4 * w) 4))

/-- LCS_TOKEN_SET with its digest held: the slot is programmed, or completed after an interrupted write. -/
def tokenSetGo (id : Nat) (s : State) : State :=
  let x := getJob s id
  let i := x.d.f 32 1 - 1
  if s.life.burn.isSome then modJob id (fun x => { x with phase := .wait 47 }) s
  else if digestConflict (s.otp.slots.getD i []) x.src then finishJob id stInput 0xE9 [] [] s
  else if slotSteps s i x.src = [] then okJob id [] [] s
  else startBurn id (slotSteps s i x.src) s

/-- A command whose OTP words are programmed completes; the epoch values are then those of OTP (R88, R353). -/
def burnDone (id : Nat) (s : State) : State :=
  let s1 := if (getJob s id).d.op = 0x95 then { s with ecfg := { k := s.otp.k, origin := s.otp.origin, falling := s.otp.falling, fromOtp := true } } else s
  okJob id [] [] { s1 with life := { s1.life with burn := none } }

/-- The oldest life-cycle command that waits for another one goes on (R370). -/
def nextLife (s : State) : State :=
  if s.life.burn.isSome ∨ s.life.trans.isSome then s else
  match s.jobs.find? fun j => j.2.phase = .wait 47 ∨ j.2.phase = .wait 30 with
  | none => s
  | some (id, x) =>
    if x.phase = .wait 30 then (if s.hold then s else beginTransition id s)
    else if x.d.op = 0xB9 then tokenSetGo id s else epochSetupGo id s

/-- The programming and read-back of a word for a command ends; a word that fails four times ends the command as R356 ends a transition
(DEDUCED, log entry 83). -/
def burnWord (ok : Bool) (b : Burn) (s : State) : State :=
  match s.hold, b.todo with
  | true, _ => s
  | false, [] => s
  | false, p :: ps =>
    if ok then
      let s1 := { s with otp := programOtp s.otp p, life := { s.life with burn := some { b with todo := ps, fails := 0 } } }
      if ps = [] then nextLife (burnDone b.job s1) else s1
    else if b.fails < 3 then { s with life := { s.life with burn := some { b with fails := b.fails + 1 } } }
    else nextLife (finishJob b.job stFatal 2 [] [] { s with life := { s.life with burn := none, otpFault := true } })

/-- The programming and read-back of an OTP word ends; the fourth failure of one word stops the transition (R356). -/
def otpWord (ok : Bool) (s : State) : State :=
  match s.life.trans with
  | none => (match s.life.burn with
    | none => s
    | some b => burnWord ok b s)
  | some tr =>
    if !tr.imaged ∨ s.hold then s else
    match tr.todo with
    | [] => s
    | p :: ps =>
      if ok then
        let tr1 := { tr with todo := ps, fails := 0 }
        let s1 := { s with otp := programOtp s.otp p, life := { s.life with trans := some tr1 } }
        if ps = [] then transitionDone tr1 s1 else s1
      else if tr.fails < 3 then { s with life := { s.life with trans := some { tr with fails := tr.fails + 1 } } }
      else finishJob tr.job stFatal 2 [] [] { s with life := { s.life with trans := none, otpFault := true } }

/-! ## LCS_TOKEN_SET and LCS_RETURN_UNLOCK (R353, R363) -/

/-- LCS_TOKEN_SET (R353). -/
def lcsTokenSetSem : OpSem where
  pfOnly := pfOnly
  resv d := reservedBad d (offHandle ++ offAux ++ offDst ++ span 33 63)
  fenced := anyFn
  keyed := anyFn
  src := true
  len _ n := failIf (n ≠ 48) stLength 0
  own s x := failIf (!(s.lcs = .blank || s.lcs = .test)) stLocked 0 ++ failIf (!(1 ≤ x.d.f 32 1 && x.d.f 32 1 ≤ 5)) stInput 0xE8
  go := tokenSetGo
  fin _ s := s

/-- LCS_RETURN_UNLOCK with its token held. -/
def returnUnlockGo (id : Nat) (s : State) : State :=
  let d := s.otp.slots.getD 3 []
  if slotProgrammed d ∧ digest384 (getJob s id).src = d then okJob id [] [] { s with lining := { s.lining with unlockPending := true } }
  else finishJob id stInput 0xED [] [] s

/-- LCS_RETURN_UNLOCK (R363). -/
def lcsReturnUnlockSem : OpSem where
  pfOnly := pfOnly
  resv d := reservedBad d (offHandle ++ offAux ++ offDst ++ span 32 63)
  fenced := anyFn
  keyed := anyFn
  src := true
  len _ n := failIf (n ≠ 32) stLength 0
  own s _ := failIf (s.lcs ≠ .ret) stLocked 0
  go := returnUnlockGo
  fin _ s := s

/-! ## Debug grants (R365 to R369) -/

/-- The 128 bytes of a challenge (R365). -/
def challengeBytes (s : State) (requested count : Nat) (nonce : Bytes) : Bytes :=
  [1, 4, 0, 0] ++ leBytes 4 requested ++ s.otp.packageId ++ nonce ++ fit 48 s.vault.kw ++ leBytes 8 count ++ zeros 16

/-- DBG_CHALLENGE, its NONCE from the Crown's NONCE DRBG. -/
def dbgChallengeNow (id : Nat) (s : State) : State :=
  let x := getJob s id
  let n := internalGen 0 1 32 [] s
  let c := s.lining.dbgCount + 1
  let b := challengeBytes s (x.d.f 32 4) c n.1
  okJob id [] b { n.2 with
    lining := { n.2.lining with dbgCount := c }
    life := { n.2.life with challenge := some (b, s.time.now) } }

/-- DBG_CHALLENGE once NONCE can serve it. -/
def dbgChallengeGo (id : Nat) (s : State) : State := withInternal 1 id (dbgChallengeNow id) s

/-- DBG_CHALLENGE (R365). -/
def dbgChallengeSem : OpSem where
  pfOnly := pfOnly
  resv d := match reservedBad d (offHandle ++ offSrc) with
    | some i => some i
    | none => if 16 ≤ d.f 32 1 then some 32 else firstNonzero d.bytes (span 33 63)
  fenced := anyFn
  keyed := anyFn
  src := false
  len x _ := failIf (x.d.aux < 128) stLength 0
  own s _ := failIf (s.lcs ≠ .field) stLocked 0 ++ crownReady s
  go := dbgChallengeGo
  fin _ s := s

/-- Order 4 of R367: the response answers the pending challenge. -/
def responseMatches (s : State) (r : Bytes) : Bool :=
  match s.life.challenge with
  | none => false
  | some (b, _) =>
    field r 0 1 = 1 && field r 1 1 = 4 && field r 2 2 = 0 && slice r 8 16 = s.otp.packageId && slice r 24 48 = digest384 b
      && (slice r 73 23).all (· = 0) && (slice r 192 64).all (· = 0)

/-- Orders 5 to 7 of R367. -/
def grantFails (s : State) (r : Bytes) : List Fail :=
  let g := field r 4 4
  let req := match s.life.challenge with
    | some (b, _) => field b 4 4
    | none => 0
  let at_ := match s.life.challenge with
    | some (_, t) => t
    | none => 0
  failIf (!(field r 72 1 ≤ 1 && Config.verifyOf 2 0 false [] (Config.romKey (field r 72 1)) (digest384 ([0x12] ++ r.take 96)) (slice r 96 96))) stInput 0xF1
    ++ failIf (g = 0 || 16 ≤ g || (g ||| req) ≠ req) stInput 0xF2 ++ failIf (at_ + 3600000000000 < s.time.now) stInput 0xF3

/-- A grant takes effect beside any that is in force (R368). -/
def openGrant (id g : Nat) (s : State) : State :=
  let s1 := if g.testBit 3 then let e := loseLk (eraseReplicas s); { e with life := { e.life with keysShut := true } } else s
  okJob id (leBytes 4 g ++ zeros 4) [] (consume [0] { s1 with life := { s1.life with enables := s1.life.enables ||| g, granted := s1.life.granted ||| g, grantOn := true } })

/-- DBG_GRANT with its response held. -/
def dbgGrantGo (id : Nat) (s : State) : State :=
  let x := getJob s id
  if !quorumOpenFor s x 0 then finishJob id stInput 0xD0 [] [] s
  else if !responseMatches s x.src then finishJob id stInput 0xF0 [] [] s
  else
    let s1 := { s with life := { s.life with challenge := none } }
    match inOrder (grantFails s x.src) with
    | some f => failJob id f s1
    | none => openGrant id (field x.src 4 4) s1

/-- DBG_GRANT (R367). -/
def dbgGrantSem : OpSem where
  pfOnly := pfOnly
  resv d := reservedBad d (offHandle ++ offAux ++ offDst ++ span 32 63)
  fenced := anyFn
  keyed := anyFn
  src := true
  len _ n := failIf (n ≠ 256) stLength 0
  own s _ := failIf (s.lcs ≠ .field) stLocked 2
  go := dbgGrantGo
  fin _ s := s

/-- DBG_REVOKE (R369). -/
def dbgRevokeSem : OpSem where
  pfOnly := pfOnly
  resv d := reservedBad d (span 4 63)
  fenced := anyFn
  keyed := anyFn
  src := false
  len _ _ := []
  own _ _ := []
  go id s := okJob id [] [] (endGrant s)
  fin _ s := s

/-! ## The commands -/

/-- OTP_WORD_PROGRAMMED (R356). -/
def execOtpWordProgrammed (t : Nat) (ok : Bool) (s : State) : Host.Outcome State Fault Refusal := .next (otpWord ok (tick t s))

end Sys2Proof.Machine
end

