-- ==== Sys2Proof/Machine/Tamper.lean ====
section
/-! DEFINITION. Tamper monitors, responses, the tamper log and the lining log, the carry record, unlock by dual control and the event
recorder (chapter 12). -/

namespace Sys2Proof.Machine

/-! ## The lining log and the tamper log (R379, R382 to R388) -/

/-- Uncopied entries of the lining log. -/
def uncopied (s : State) : List LiningEntry := s.lining.log.filter fun e => !e.copied

/-- An entry enters the lining log: the oldest copied one gives way; with 256 uncopied entries it is counted instead (R387). -/
def pushLining (e : LiningEntry) (s : State) : State :=
  let l := s.lining
  let drop : List LiningEntry := match l.log.find? (·.copied) with
    | some o => l.log.filter (·.num ≠ o.num)
    | none => l.log
  if l.log.length < 256 then { s with lining := { l with log := l.log ++ [e], logNext := (l.logNext + 1) % 65536 } }
  else if l.log.all (fun x => !x.copied) then { s with lining := { l with overflow := satAdd l.overflow 1 0xFFFF } }
  else { s with lining := { l with log := drop ++ [e], logNext := (l.logNext + 1) % 65536 } }

/-- An entry destined for the tamper log is written to the lining log (R377 step 3, R387). Without a place left in the tamper log the
event is counted in UNLOGGED instead (R384). -/
def logEntry (code cls die detail : Nat) (s : State) : State :=
  if 1024 ≤ s.tamper.log.length + (uncopied s).length then { s with lining := { s.lining with unlogged := satAdd s.lining.unlogged 1 0xFFFF } }
  else
    let us := s.time.now / 1000
    let timed := !acquired s
    let e : LiningEntry := {
      num := s.lining.logNext, code := code, die := die, detail := detail, count := liningCount s
      cls := cls + bit timed 3 + bit (s.tamper.groupUs = some us) 4
      stamp := some (if timed then liningStamp s (liningCount s) else pkgStamp s) }
    pushLining e { s with tamper := { s.tamper with groupUs := some us } }

/-- LINK of an entry (R383). -/
def linkOf (prev body : Bytes) : Bytes := (digest384 ([0x13] ++ prev ++ body)).take 8

/-- LINK of the latest tamper-log entry, or 8 zero bytes. -/
def lastLink (l : List Bytes) : Bytes := ((l.getLast?).map (·.drop 24)).getD (zeros 8)

/-- The tamper-log entry of a lining-log entry (R383, R389). -/
def tamperEntry (s : State) (e : LiningEntry) : Bytes :=
  let t := e.stamp.getD (liningStamp s e.count)
  let body := leBytes 2 s.tamper.log.length ++ [byte e.code, byte (e.cls ||| bit e.stamp.isNone 3)] ++ t.bytes ++ [byte e.die, 0] ++ leBytes 2 e.detail
  body ++ linkOf (lastLink s.tamper.log) body

/-- An entry is marked COPIED. -/
def markCopied (n : Nat) (l : Lining) : Lining := { l with log := l.log.map fun e => if e.num = n then { e with copied := true } else e }

/-! ## Responses (R376 to R381) -/

/-- Class in force for a monitor code. -/
def monitorClass (s : State) (code : Nat) : Nat := s.tamper.classes.getD (code - 1) 1

/-- Class of an internal event (R381). -/
def eventClass (code : Nat) : Nat := if code = 0x25 then 0 else if code = 0x26 then 3 else 2

/-- Internal events that also write an entry (R381). -/
def eventLogged (code : Nat) : Bool := code = 0x20 || code = 0x21 || code = 0x24 || code = 0x25 || code = 0x26

/-- BLANK and TEST: alarms only leave event records (R380). -/
def tamperQuiet (s : State) : Bool := s.lcs = .blank || s.lcs = .test

/-- A wake event in RETAIN (R464): 0 PWR_WAKE, 1 draw lead, 2 FLR or Hot Reset, 3 tamper. -/
def wakeUp (cause : Nat) (s : State) : State :=
  if s.pwrState = 2 then { s with pwrState := 3, pwr := { s.pwr with wakeCause := cause } } else s

/-- The event record of block 0x00: instance, class applied, DETAIL (R398). -/
def alarmRecord (die inst cls code detail : Nat) (s : State) : State :=
  recEventAt die cls code ([byte inst, byte cls] ++ leBytes 2 detail ++ zeros 4) s

/-- The log entry of an alarm, limited by its latch (R382). UNLOCK is no alarm and has no latch. -/
def latchedEntry (code cls die detail : Nat) (s : State) : State :=
  if code = 0x25 then logEntry code cls die detail s
  else if s.lining.latches.any (fun l => l.1 = code ∧ l.2.1 = die) then s
  else
    let s1 := logEntry code cls die detail s
    { s1 with lining := { s1.lining with latches := s1.lining.latches ++ [(code, die, cls)] } }

/-- An unlock under way ends with INFO 0x70; its sessions stay open (R395). -/
def endUnlocks (s : State) : State :=
  (s.jobs.filter fun j => j.2.phase = .wait 41 || j.2.phase = .wait 42).foldl (fun s j => finishJob j.1 stInput 0x70 [] [] s) s

/-- The device enters LOCK with a cause, which an urgent flit tells every die (R28); during a life-cycle transition it does so at the next start-up (R370, R378). -/
def enterLock (code : Nat) (s : State) : State :=
  let s1 := { s with lining := { s.lining with
    lockLatch := true, lockCause := if s.lining.lockLatch || s.locked then s.lining.lockCause else code } }
  raiseFnEvent 3 (endUnlocks (if s.life.trans.isSome then s1 else urgentAll 2 code (endGrant { s1 with locked := true })))

/-- The erasure of an ERASE response, which an urgent flit tells every die (R28); a transition under way has already erased (R309, R370). -/
def eraseResponse (s : State) : State :=
  let s1 := if s.life.trans.isSome then s else loseLk (eraseAll (urgentAll 1 0 s))
  { s1 with lining := { s1.lining with erased := true } }

/-- The response to an alarm or an internal event (R376, R377, R380). In SCRAP nothing runs (R361). -/
def respond (code die inst detail cls : Nat) (logged : Bool) (s : State) : State :=
  if s.lcs = .scrap then s
  else if tamperQuiet s then alarmRecord die inst (min cls 1) code detail s
  else
    let s1 := if logged then latchedEntry code cls die detail s else s
    let s2 := if cls = 3 then eraseResponse s1 else s1
    let s3 := if 2 ≤ cls then enterLock code s2 else s2
    alarmRecord die inst cls code detail s3

/-- An internal event of R381. -/
def internalEvent (code die inst detail : Nat) (s : State) : State :=
  respond code die inst detail (eventClass code) (eventLogged code) s

/-! ## Monitors (R372, R393) -/

/-- Instances of a monitor on a die. -/
def monitorCount (s : State) (code die : Nat) : Nat :=
  if s.dies.length ≤ die then 0
  else if code = 0x02 ∨ code = 0x06 ∨ (0x0D ≤ code ∧ code ≤ 0x10) then (if die = 0 then 1 else 0)
  else if code = 0x03 ∨ code = 0x04 then 2
  else if code = 0x07 ∨ code = 0x08 then 4
  else if code = 0x0B then 16
  else if 0x01 ≤ code ∧ code ≤ 0x11 then 1
  else 0

/-- A TAMP input is enabled; every other monitor always is. -/
def monitorOn (s : State) (code : Nat) : Bool := !(0x0D ≤ code && code ≤ 0x10) || s.tamper.enable.testBit (code - 0x0D)

/-- Minimum class of a code (R372). -/
def minClass (code : Nat) : Nat := [3, 3, 2, 2, 1, 1, 2, 1, 2, 2, 2, 2, 1, 1, 1, 1, 3].getD (code - 1) 3

/-- Two codes are one monitor for the tests: TEMP_LOW and TEMP_HIGH share their sensors (R391). -/
def sameMonitor (a b : Nat) : Bool := a = b || ((a = 7 || a = 8) && (b = 7 || b = 8))

/-- The instance of a monitor that is under test on a die: of one monitor one instance at a time, in the order in which they were asked for. -/
def testedNow (s : State) (code die : Nat) : Option MonTest := s.tamper.tests.find? fun m => sameMonitor m.code code && m.die = die

/-- The instance is blind: its own test window runs (R391). -/
def blind (s : State) (code die inst : Nat) : Bool := (testedNow s code die).any fun m => m.code = code && m.inst = inst

/-- The lining controller acts as in lining-only operation: the main supplies are off, or start-up step 4 has not begun (R388, R503). -/
def liningOnly (s : State) : Bool := s.pwr.off || decide (s.startStep < 4)

/-- Monitors that run on lining power alone: LID_MESH, VLINING and the enabled TAMP inputs (R388). -/
def runsAlone (s : State) (code : Nat) : Bool := code = 0x02 || code = 0x06 || (0x0D ≤ code && code ≤ 0x10 && monitorOn s code)

/-- The latch that limits the entries of a lining-only alarm: one for each code and lining-only period, and while main power rises that of R382
(R388, R503). -/
def aloneLatched (s : State) (code : Nat) : Bool :=
  if s.pwr.off then s.lining.aloneLatches.contains code else s.lining.latches.any fun l => l.1 = code && l.2.1 = 0

/-- Sets that latch. -/
def latchAlone (off : Bool) (code cls : Nat) (l : Lining) : Lining :=
  if off then { l with aloneLatches := l.aloneLatches ++ [code] } else { l with latches := l.latches ++ [(code, 0, cls)] }

/-- The lining controller alone answers an alarm (R388): its entry carries no Stamp, and the tamper log gets it at the next start-up. In BLANK and
TEST nothing is kept (R380). -/
def aloneAlarm (code detail : Nat) (s : State) : State :=
  let cls := if code = 0x06 then 1 else 3
  let e : LiningEntry := { num := s.lining.logNext, code := code, cls := cls + 4, stamp := none, die := 0, detail := detail, count := liningCount s }
  if !s.lining.up ∨ s.lcs = .scrap ∨ !runsAlone s code ∨ tamperQuiet s then s
  else
    let s1 := if aloneLatched s code then s
      else let p := pushLining e s
        { p with lining := latchAlone s.pwr.off code cls p.lining }
    if cls = 1 then s1
    else { s1 with lining := { s1.lining with
      lk := none, erased := true, lockLatch := true, lockCause := if s1.lining.lockLatch then s1.lining.lockCause else code } }

/-- An alarm on lining power alone, after a number of lining ticks (R388). -/
def liningAlarm (code detail ticks : Nat) (s : State) : State :=
  if s.pwr.off ∧ s.lining.up then aloneAlarm code detail { s with lining := { s.lining with extra := s.lining.extra + ticks } } else s

/-- A monitor alarms while main power is present (R376, R377); while it is tested its response is suppressed (R391). In RETAIN the alarm wakes
the package (R464). Before start-up step 4 the lining controller answers alone (R503). -/
def tamperAlarm (code die inst detail : Nat) (s : State) : State :=
  if s.pwr.off ∨ s.lcs = .scrap ∨ monitorCount s code die ≤ inst ∨ !monitorOn s code ∨ blind s code die inst then s
  else
    let s1 := { s with tamper := { s.tamper with alarming := if s.tamper.alarming.contains (code, die) then s.tamper.alarming else s.tamper.alarming ++ [(code, die)] } }
    if liningOnly s then aloneAlarm code detail s1
    else wakeUp 3 (settleAll (respond code die inst detail (monitorClass s code) true s1))

/-- A monitor's condition ends (R376). -/
def alarmEnd (code die : Nat) (s : State) : State :=
  { s with tamper := { s.tamper with alarming := s.tamper.alarming.filter (· ≠ (code, die)) } }

/-! ## Copying to the tamper log (R384, R389) -/

/-- The log has reached entry 1,007 or 1,023: LOCK (R384). -/
def logLimits (s : State) : State :=
  if s.tamper.log.length = 1008 then internalEvent 0x22 0 0 0 s
  else if s.tamper.log.length = 1024 then internalEvent 0x23 0 0 0 s
  else s

/-- One entry is programmed and reads back. For an entry that finds the log full there is no place: it is counted in UNLOGGED and done with
(R384; log entry 84). -/
def copyEntry (e : LiningEntry) (s : State) : State :=
  if 1024 ≤ s.tamper.log.length then { s with lining := { (markCopied e.num s.lining) with unlogged := satAdd s.lining.unlogged 1 0xFFFF } }
  else logLimits { s with tamper := { s.tamper with log := s.tamper.log ++ [tamperEntry s e] }, lining := markCopied e.num s.lining }

/-- The ROM copies every uncopied entry at start-up, in NUMBER order, and each receives an event record timed from its lining count (R389, R396). -/
def copyAll (s : State) : State :=
  if s.hold then s else
  (uncopied s).foldl (fun s e =>
    let r : EvRec := { time := liningNs s e.count, code := e.code, die := e.die, trusted := false, cont := false, cls := e.cls % 4
                       data := [0, byte (e.cls % 4)] ++ leBytes 2 e.detail ++ zeros 4 }
    pushEvent r (copyEntry e s)) s

/-! ## The carry record (R390) -/

/-- The package root that authenticates the carry record. -/
def carryNow (s : State) (pr : Bytes) : Carry :=
  { ver := s.lining.carryCount + 1, pr := pr, rosters := s.vault.rosters, auths := s.authorities, epc := s.epc, period := s.rngPeriod
    psn := s.psnCeil, signedTo := s.time.signedTo, classes := s.tamper.classes, enable := s.tamper.enable, high := s.tamper.high }

/-- The carry record is written when an item of it has changed; in BLANK and TEST there is none (R390, R505). -/
def writeCarry (s : State) : State :=
  match s.vault.pr with
  | none => s
  | some pr =>
    let c := carryNow s pr
    if imageless s ∨ (s.tamper.carry.head?).map (fun x => { x with ver := 0 }) = some { c with ver := 0 } then s
    else { s with tamper := { s.tamper with carry := (c :: s.tamper.carry).take 2 }, lining := { s.lining with carryCount := c.ver } }

/-- The copy that is accepted: the VERSION rule of R299; after LINING_LOSS the newest that authenticates. -/
def acceptedCarry (s : State) : Option Carry :=
  let ok := s.tamper.carry.filter fun c => s.vault.pr = some c.pr
  if s.tamper.liningLost then ok.head?
  else match ok.find? (·.ver = s.lining.carryCount + 1) with
    | some c => some c
    | none => ok.find? (·.ver = s.lining.carryCount)

/-! ## Firmware banks and their activation (R433, R434, R437) -/

/-- A component's firmware state: 0 Hatter, 1 key world, 2 service world. -/
def getComp (s : State) (c : Nat) : FwComp := s.fw.comps.getD c {}

/-- Changes a component. -/
def modComp (c : Nat) (f : FwComp → FwComp) (s : State) : State :=
  { s with fw := { s.fw with comps := lset s.fw.comps c (f (getComp s c)) } }

/-- Bank 0 is A, 1 is B. -/
def FwComp.bank (x : FwComp) (i : Nat) : FwBank := if i = 0 then x.a else x.b

/-- Sets a bank. -/
def FwComp.setBank (x : FwComp) (i : Nat) (b : FwBank) : FwComp := if i = 0 then { x with a := b } else { x with b := b }

/-- The inactive bank. -/
def FwComp.spare (x : FwComp) : Nat := 1 - x.active

/-- The bank that holds a staged image, if any. -/
def FwComp.staged (x : FwComp) : Option Nat := [0, 1].find? fun i => (x.bank i).st = 2

/-- The components that a mask names. -/
def compsOf (mask : Nat) : List Nat := (List.range 3).filter fun c => mask.testBit c

/-- The staged SVN of a component is at least its minimum. -/
def svnHolds (s : State) (c : Nat) : Bool :=
  let x := getComp s c
  match x.staged with
  | some i => imageless s || decide (x.minSvn ≤ (x.bank i).svn)
  | none => false

/-- The flash directory names the staged banks from the next package reset on. -/
def activateBanks (mask : Nat) (s : State) : State :=
  recEvent 0x0C05 (byte mask :: zeros 7) ((compsOf mask).foldl (fun s c => modComp c (fun x => { x with pending := true }) s) s)

/-- The staged Hatter and service-world components whose SVN may run (R437). -/
def pldmMask (s : State) : Nat := ([0, 2].map fun c => bit (svnHolds s c) c).sum

/-- A PLDM activation that waited for the end of LOCK or HOLD takes effect (R437, R450). -/
def activateWaiting (s : State) : State :=
  match s.fw.upd with
  | some u => if u.st = 5 ∧ !s.hold ∧ !s.locked then activateBanks (pldmMask s) { s with fw := { s.fw with upd := none } } else s
  | none => s

/-! ## Unlock (R394, R395) -/

/-- The carry set is kept and everything else of the store is empty, under a new LK and new salts (R309, R395 step 2). -/
def repairStore (s : State) : State :=
  let lk := crownBytes 0 32 s
  let s1 := { lk.2 with lining := { lk.2.lining with lk := some lk.1 } }
  (s1.tenants.filter fun x => x.2.salt.isSome || x.2.granted).foldl (fun s t =>
    let b := crownBytes 0 16 s
    modTenant t.1 (fun x => { x with salt := some b.1 }) b.2) s1

/-- Step 3 of R395 and the completion. -/
def unlockEnd (id : Nat) (ran : Bool) (s : State) : State :=
  let cause := s.lining.lockCause
  let s1 := { s with locked := false, lining := { s.lining with
    lockLatch := false, lockCause := 0, erased := false, latches := s.lining.latches.filter fun l => l.2.2 < 2 } }
  okJob id [byte cause, byte (bit ran 0)] [] (consume [0, 2] (activateWaiting (raiseFnEvent 3 s1)))

/-- Step 2 of R395: the store is repaired when the image was lost, and the unlock waits for the image write. -/
def unlockRepair (id : Nat) (s : State) : State :=
  if s.vault.imageFault then awaitImage 42 id (repairStore s) else unlockEnd id false s

/-- The image write of an unlock has ended. -/
def unlockWritten (id : Nat) (s : State) : State := unlockEnd id true { s with vault := { s.vault with imageFault := false } }

/-- Unlocks whose UNLOCK entry has been programmed go on. -/
def unlockLogged (s : State) : State :=
  (s.jobs.filter fun j => j.2.phase = .wait 41 && !((uncopied s).any fun e => e.num = j.2.tmp && e.code = 0x25)).foldl (fun s j => unlockRepair j.1 s) s

/-- A LOCK-class or ERASE-class monitor alarms, or a test runs (check 4). -/
def unlockBarred (s : State) : Bool := (s.tamper.alarming.any fun a => 2 ≤ monitorClass s a.1) || s.tamper.tests != []

/-- The quorums of TMP_UNLOCK are needed (R394). -/
def unlockQuorum (s : State) : Bool := s.lcs = .provision || s.lcs = .field

/-- The checks of R394 from order 2 on. -/
def unlockOwn (s : State) (x : Job) : List Fail :=
  failIf (!s.locked) stInput 0x75 ++ failIf (unlockQuorum s && !(quorumOpenFor s x 0 && quorumOpenFor s x 2)) stInput 0xD0
    ++ failIf (unlockBarred s) stInput 0x70 ++ failIf (1024 ≤ s.tamper.log.length) stInput 0x71

/-- The two session numbers of the UNLOCK entry. -/
def unlockDetail (s : State) : Nat := (s.vault.sessions.getD 0 {}).num % 256 + (s.vault.sessions.getD 2 {}).num % 256 * 256

/-- TMP_UNLOCK runs: the UNLOCK entry first. -/
def unlockGo (id : Nat) (s : State) : State :=
  let n := s.lining.logNext
  unlockLogged (modJob id (fun x => { x with phase := .wait 41, tmp := n }) (internalEvent 0x25 0 0 (unlockDetail s) s))

/-- TMP_UNLOCK (R394). -/
def tmpUnlockSem : OpSem where
  pfOnly := pfOnly
  resv d := reservedBad d (span 4 63)
  fenced := anyFn
  keyed := anyFn
  src := false
  len _ _ := []
  own := unlockOwn
  go := unlockGo
  fin _ s := s

/-! ## TMP_CONFIGURE (R393) -/

/-- A TAMP input's code. -/
def tampCode (c : Nat) : Bool := 0x0D ≤ c && c ≤ 0x10

/-- The checks of R393. -/
def tmpConfigOwn (s : State) (x : Job) : List Fail :=
  let c := x.d.f 32 1
  failIf ((s.lcs = .provision || s.lcs = .field || s.lcs = .ret) && !quorumOpenFor s x 0) stInput 0xD0
    ++ failIf (c = 0 || 0x11 < c || (!tampCode c && x.d.f 34 1 ≠ 0)) stInput 0x73
    ++ failIf (x.d.f 33 1 = 0 || 3 < x.d.f 33 1 || x.d.f 33 1 < minClass c) stInput 0x72

/-- TMP_CONFIGURE. -/
def tmpConfigGo (id : Nat) (s : State) : State :=
  let x := getJob s id
  acceptFenced id (targetOf x.d.targetField x.epoch) [.tmp (x.d.f 32 1) (x.d.f 33 1) ((x.d.f 34 1).testBit 0) ((x.d.f 34 1).testBit 1)] s

/-- TMP_CONFIGURE (R393). -/
def tmpConfigSem : OpSem where
  pfOnly := pfOnly
  resv d := match reservedBad d (span 4 31 ++ span 35 55) with
    | some i => some i
    | none => if tampCode (d.f 32 1) && 4 ≤ d.f 34 1 then some 34 else none
  fenced := pfOnly
  keyed := anyFn
  src := false
  len _ _ := []
  own := tmpConfigOwn
  go := tmpConfigGo
  fin _ s := s

/-! ## Built-in tests (R391, R392) -/

/-- Every instance of a code, or of every code, on a die. -/
def instancesOf (s : State) (job : Option Nat) (code die : Nat) : List MonTest :=
  (if code = 0 then span 1 0x11 else [code]).flatMap fun c =>
    (List.range (monitorCount s c die)).map fun i => { job := job, code := c, die := die, inst := i }

/-- TMP_MONITOR_TEST starts its tests. -/
def monitorTestGo (id : Nat) (s : State) : State :=
  let x := getJob s id
  let dies := if x.d.f 33 1 = 0xFF then liveDies s else [x.d.f 33 1]
  let l := dies.flatMap fun d => instancesOf s (some id) (x.d.f 32 1) d
  if l = [] then okJob id (zeros 4) [] s
  else modJob id (fun y => { y with phase := .wait 40 }) { s with tamper := { s.tamper with tests := s.tamper.tests ++ l } }

/-- TMP_MONITOR_TEST (R392). -/
def monitorTestSem : OpSem where
  pfOnly := pfOnly
  resv d := reservedBad d (span 4 31 ++ span 34 63)
  fenced := anyFn
  keyed := anyFn
  src := false
  len _ _ := []
  own s x := failIf (0x11 < x.d.f 32 1) stInput 32 ++ failIf (x.d.f 33 1 ≠ 0xFF && !(getDie s (x.d.f 33 1)).live) stInput 33
  go := monitorTestGo
  fin _ s := s

/-- The command that asked for a test counts it. -/
def countTestResult (j : Nat) (pass : Bool) (s : State) : State :=
  modJob j (fun x => { x with tmp := x.tmp + 1, tmp2 := x.tmp2 + if pass then 0 else 1 }) s

/-- The test window of the instance under test ends (R391, R392). -/
def monitorTestResult (code die inst : Nat) (pass : Bool) (s : State) : State :=
  match (testedNow s code die).filter fun m => m.code = code && m.inst = inst with
  | none => s
  | some m =>
    let s1 := { s with tamper := { s.tamper with tests := s.tamper.tests.erase m } }
    let s2 := if pass then recEventAt die 4 0x0030 ([byte code, byte inst] ++ zeros 6) s1 else internalEvent 0x24 die inst inst s1
    endTests (match m.job with
      | some j => countTestResult j pass s2
      | none => s2)

/-! ## The event recorder in flash (R396, R397, R400) -/

/-- DR_0 in force: from OTP, or the volatile root of BLANK. -/
def dieRoot0 (s : State) : Bytes := ((s.otp.dr.headD none).orElse fun _ => s.vault.roots.headD none).getD (zeros 32)

/-- ERK (R396). -/
def erk (s : State) : Bytes := kdf (dieRoot0 s) "XZEVREC" s.otp.packageId 32

/-- Bytes 0 to 23 of a record. -/
def EvRec.head (r : EvRec) (n : Nat) : Bytes :=
  leBytes 4 n ++ leBytes 8 r.time ++ leBytes 2 r.code ++ [byte (r.die % 8 + bit r.trusted 3 + bit r.cont 4 + r.cls * 32), 0] ++ fit 8 r.data

/-- MAC of a record after the MAC before it. -/
def evMac (s : State) (prev : Bytes) (r : EvRec) (n : Nat) : Bytes :=
  (beBytes 32 (Config.kmac256 (erk s) (prev ++ r.head n) 256 "XZEVREC")).take 8

/-- One record goes to flash; the sector ahead of the write point is erased (R397). -/
def writeEvent (r : EvRec) (s : State) : State :=
  let prev := ((s.evFlash.getLast?).map (·.mac)).getD (zeros 8)
  let l := s.evFlash ++ [{ number := s.evNext, r := r, mac := evMac s prev r s.evNext }]
  { s with evFlash := if 524288 < l.length then l.drop 128 else l, evNext := (s.evNext + 1) % 4294967296 }

/-- The Hatter writes the buffered records; bursts that have been counted end and leave one SUPPRESSED record each (R397). -/
def writeEvents (s : State) : State :=
  if s.hold ∨ !s.hatter.up ∨ (s.fw.comps.headD {}).run = none then s else
  let s1 := s.evBuf.foldl (fun s r => writeEvent r s) { s with evBuf := [] }
  s1.evBursts.foldl (fun s b => recEventAt b.2.1 0 0x0031 (leBytes 2 b.1 ++ [byte b.2.1, 0] ++ leBytes 4 b.2.2) s) { s1 with evBursts := [] }

/-- TMP_EVENT_READ: where reading starts, and whether FIRST has been overwritten. -/
def eventStart (s : State) (first : Nat) : Nat × Bool :=
  let oldest := ((s.evFlash.head?).map (·.number)).getD s.evNext
  let off := (first + 4294967296 - oldest) % 4294967296
  if off < 2147483648 then (off, false) else (0, true)

/-- A record's MAC verifies against the one before it, where that is retained. -/
def macOk (s : State) (i : Nat) : Bool :=
  match s.evFlash[i]? with
  | none => true
  | some x => i = 0 || evMac s (((s.evFlash[i - 1]?).map (·.mac)).getD []) x.r x.number = x.mac

/-- TMP_EVENT_READ. -/
def eventReadGo (id : Nat) (s : State) : State :=
  let x := getJob s id
  let st := eventStart s (x.d.f 40 4)
  let n := min (min (x.d.f 48 4) (x.d.aux / 32)) (s.evFlash.length - st.1)
  let ids := (List.range n).map (· + st.1)
  let out := ids.flatMap fun i => match s.evFlash[i]? with
    | none => []
    | some r => lset (r.r.head r.number) 15 (byte (bit (!macOk s i) 7)) ++ r.mac
  let code := if st.2 then 2 else if ids.all (macOk s) then 0 else 1
  okJob id (leBytes 4 n ++ [byte code]) out s

/-- TMP_EVENT_READ (R400). -/
def tmpEventReadSem : OpSem where
  pfOnly := pfOnly
  resv d := reservedBad d (offHandle ++ offSrc ++ span 32 39 ++ span 44 47 ++ span 52 63)
  fenced := anyFn
  keyed := anyFn
  src := false
  len x _ := failIf (x.d.aux < 32) stLength 0
  own _ x := failIf (!(1 ≤ x.d.f 48 4 && x.d.f 48 4 ≤ 65536)) stInput 48
  go := eventReadGo
  fin _ s := s

/-! ## TMP_LOG_READ (R399) -/

/-- A lining-log entry's 32 bytes (R387). -/
def LiningEntry.bytes (e : LiningEntry) : Bytes :=
  leBytes 2 e.num ++ [byte e.code, byte e.cls] ++ ((e.stamp.map Stamp.bytes).getD (zeros 16)) ++ [byte e.die, byte (bit e.copied 0)]
    ++ leBytes 2 e.detail ++ leBytes 6 e.count ++ zeros 2

/-- INDEX of the first entry whose LINK fails, or 0xFFFF. -/
def badLink (l : List Bytes) : Nat :=
  ((List.range l.length).find? fun i =>
    let e := l.getD i []
    e.drop 24 ≠ linkOf (lastLink (l.take i)) (e.take 24)).getD 0xFFFF

/-- TMP_LOG_READ. -/
def logReadGo (id : Nat) (s : State) : State :=
  let x := getJob s id
  let first := x.d.f 40 2
  let l := if x.d.f 32 1 = 0 then s.tamper.log.drop first else (s.lining.log.dropWhile fun e => e.num ≠ first).map LiningEntry.bytes
  let o := l.take (x.d.aux / 32)
  okJob id (leBytes 2 o.length ++ leBytes 2 (badLink s.tamper.log)) o.flatten s

/-- TMP_LOG_READ (R399). -/
def tmpLogReadSem : OpSem where
  pfOnly := pfOnly
  resv d := reservedBad d (offHandle ++ offSrc ++ span 33 39 ++ span 42 63)
  fenced := anyFn
  keyed := anyFn
  src := false
  len _ _ := []
  own _ x := failIf (1 < x.d.f 32 1) stInput 32
  go := logReadGo
  fin _ s := s

/-! ## Emergency erasure (R307, R381) -/

/-- KEY_DESTROY with SCOPE 2 and URGENT = 1 raises EMERGENCY_ERASE, whose class erases. -/
def keyDestroyNow (id : Nat) (s : State) : State :=
  let d := (getJob s id).d
  if urgent d ∧ d.f 32 1 = 2 then
    let s1 := internalEvent 0x26 0 0 0 (if tamperQuiet s then loseLk (eraseAll s) else s)
    okJob id [] [] s1
  else destroyKeyGo id s

/-- KEY_DESTROY with its event (R307, R381). -/
def keyDestroyFull : OpSem := { keyDestroySem with go := keyDestroyNow }

/-! ## The lining domain's own events (R373, R374, R388, R453, R455) -/

/-- The generators of a die's shield, and on the Crown of the lid mesh, are reseeded from BLIND (R373, R374). -/
def shieldReseed (die : Nat) (s : State) : State :=
  if !(getDie s die).live ∨ internalShort s die 2 then s else
  let b := internalGen die 2 8 [] s
  let s1 := modDie die (fun d => { d with shield := b.1 }) b.2
  if die ≠ 0 then s1 else
    let m := internalGen die 2 4 [] s1
    { m.2 with lining := { m.2.lining with mesh := m.1 } }

/-- The crystal has failed its comparison: the lining counter runs on its RC oscillator until a lining power-on (R455). -/
def xtalCheck (ok : Bool) (s : State) : State :=
  if ok ∨ s.lining.xtalAt.isSome ∨ !s.lining.up then s
  else { s with lining := { s.lining with xtalAt := some (liningCount s), xtalNote := true } }

/-- VLINING falls below 1.8 V: the contents are lost (R388). -/
def liningLoss (s : State) : State := { s with lining := { zeroAt := s.time.now, up := false, resets := 0 } }

/-- VLINING returns: the lining domain leaves its own power-on reset (R453). -/
def liningOn (s : State) : State := { s with lining := { zeroAt := s.time.now, resets := 0 } }

/-- TAMPER_LOG_PROGRAM: the oldest uncopied entry is programmed and read back, HOLD apart (R377 step 6, R382, R401). -/
def logProgram (ok : Bool) (s : State) : State :=
  match uncopied s with
  | [] => s
  | e :: _ => if s.hold ∨ !ok ∨ tamperQuiet s ∨ s.pwr.off then s else settleAll (unlockLogged (copyEntry e s))

/-! ## The commands -/

/-- TAMPER_ALARM (R377). -/
def execTamperAlarm (t code die inst detail : Nat) (s : State) : Host.Outcome State Fault Refusal := .next (tamperAlarm code die inst detail (tick t s))
/-- LINING_ALARM (R388). -/
def execLiningAlarm (t code detail ticks : Nat) (s : State) : Host.Outcome State Fault Refusal := .next (liningAlarm code detail ticks (tick t s))
/-- TAMPER_LOG_PROGRAM (R382). -/
def execTamperLogProgram (t : Nat) (ok : Bool) (s : State) : Host.Outcome State Fault Refusal := .next (logProgram ok (tick t s))
/-- EVENT_RECORD_WRITE (R397). -/
def execEventRecordWrite (t : Nat) (s : State) : Host.Outcome State Fault Refusal := .next (writeEvents (tick t s))
/-- MONITOR_TEST_RESULT (R392). -/
def execMonitorTestResult (t code die inst : Nat) (pass : Bool) (s : State) : Host.Outcome State Fault Refusal :=
  .next (monitorTestResult code die inst pass (tick t s))
/-- MONITOR_ALARM_END (R376). -/
def execMonitorAlarmEnd (t code die : Nat) (s : State) : Host.Outcome State Fault Refusal := .next (alarmEnd code die (tick t s))
/-- SHIELD_RESEED (R373). -/
def execShieldReseed (t die : Nat) (s : State) : Host.Outcome State Fault Refusal := .next (shieldReseed die (tick t s))
/-- XTAL_CHECK (R455). -/
def execXtalCheck (t : Nat) (ok : Bool) (s : State) : Host.Outcome State Fault Refusal := .next (xtalCheck ok (tick t s))
/-- LINING_POWER_LOSS (R388). -/
def execLiningPowerLoss (t : Nat) (s : State) : Host.Outcome State Fault Refusal := .next (liningLoss (tick t s))
/-- LINING_POWER_ON (R453). -/
def execLiningPowerOn (t : Nat) (s : State) : Host.Outcome State Fault Refusal := .next (liningOn (tick t s))

end Sys2Proof.Machine
end

