-- ==== Sys2Proof/Machine/Worlds.lean ====
section
/-! DEFINITION. Worlds of a die's Mandrel core: gateways, interrupts, restarts, clock and power requests, access check units and the
debug port (chapter 13). -/

namespace Sys2Proof.Machine

/-! ## Which world runs a command (R405) -/

/-- The world that runs an opcode on the Crown: 1 key, 2 service, 0 none. -/
def worldOf (op : Nat) : Nat :=
  if (0x80 ≤ op ∧ op ≤ 0x8F) ∨ op = 0x96 ∨ op = 0x97 ∨ op = 0xA8 ∨ op = 0xAC ∨ (0xB8 ≤ op ∧ op ≤ 0xBD) then 1
  else if 0x90 ≤ op ∧ op ≤ 0xFF then 2 else 0

/-- A key command of R302. -/
def keyCommand (op : Nat) : Bool := (0x80 ≤ op && op ≤ 0x8F) || op = 0x96 || op = 0x97

/-- A world of a die. -/
def getWorld (s : State) (die w : Nat) : World := let m := (getDie s die).mandrel; if w = 1 then m.kw else m.sw

/-- Changes a die's Mandrel state. -/
def modMandrel (die : Nat) (f : Mandrel → Mandrel) (s : State) : State := modDie die (fun d => { d with mandrel := f d.mandrel }) s

/-- Changes a world of a die. -/
def modWorld (die w : Nat) (f : World → World) (s : State) : State :=
  modMandrel die (fun m => if w = 1 then { m with kw := f m.kw } else { m with sw := f m.sw }) s

/-! ## Clock and power requests (R412) -/

/-- A block on which a world holds a claim: entropy outside RETAIN, the key store, the Reckoner while a key-world job runs on a lane,
the die DMA while a key-world transfer runs. -/
def claimed (s : State) (die block : Nat) : Bool :=
  let key (j : Nat) : Bool := let op := (getJob s j).d.op; worldOf op = 1 || op = 0xB0
  if block = 2 then (getDie s die).lanes.any fun u => u.job.any key
  else if block = 3 then s.pwrState != 2
  else if block = 4 then true
  else if block = 6 then s.jobs.any fun j => j.2.die = die && (j.2.phase = .source || j.2.phase = .table) && key j.1
  else false

/-- A gating request, or its withdrawal. -/
def gatingRequest (die block : Nat) (want : Bool) (s : State) : State :=
  if !(getDie s die).live then s
  else if 8 ≤ block then recEventAt die 0 0x0D04 ([byte block, 1] ++ zeros 6) s
  else if !want then modMandrel die (fun m => { m with
    req := setBit m.req block false, held := setBit m.held block false, gated := setBit m.gated block false
    noted := setBit m.noted block false, heldAt := mdel m.heldAt block }) s
  else if claimed s die block then modMandrel die (fun m => { m with
    req := setBit m.req block true, held := setBit m.held block true, heldAt := if m.held.testBit block then m.heldAt else mset m.heldAt block s.time.now }) s
  else modMandrel die (fun m => { m with req := setBit m.req block true, gated := setBit m.gated block true }) s

/-- A held request is applied once no claim is left. -/
def claimRelease (die block : Nat) (s : State) : State :=
  if (getDie s die).mandrel.held.testBit block ∧ !claimed s die block then
    modMandrel die (fun m => { m with
      held := setBit m.held block false, gated := setBit m.gated block true, noted := setBit m.noted block false, heldAt := mdel m.heldAt block }) s
  else s

/-- A request held for 100 ms is recorded once. -/
def gatingOverdue (die block : Nat) (s : State) : State :=
  let m := (getDie s die).mandrel
  match mget m.heldAt block with
  | none => s
  | some t =>
    if m.held.testBit block ∧ !m.noted.testBit block ∧ t + 100000000 ≤ s.time.now then
      recEventAt die 0 0x0D04 ([byte block, 0] ++ zeros 6) (modMandrel die (fun m => { m with noted := setBit m.noted block true }) s)
    else s

/-! ## Restarts (R409 to R411) -/

/-- A world stops: a call into it returns to its caller with code 0x04, an interrupted world goes on, and contexts of its own are gone
(R407, R418). -/
def Mandrel.without (m : Mandrel) (w : Nat) : Mandrel :=
  let rest := m.saved.filter (·.1 ≠ w)
  if m.cur ≠ w then { m with saved := rest } else
  match rest with
  | [] => { m with cur := 0, saved := [] }
  | (c, gate, regs) :: more => { m with cur := c, regs := if gate then lset regs 0 4 else regs, saved := more }

/-- A command that a restart of its world catches mid-way; so does a curve check, which a key-world job makes on a lane (R412). -/
def Job.caught (x : Job) (w : Nat) : Bool :=
  x.die = 0 && x.ring != ownRing && ((worldOf x.d.op = w && (w = 2 || keyCommand x.d.op)) || (w = 1 && x.d.op = 0xB0 && x.phase = .engine)) && queueKind x.ring != 0
    && (x.phase = .table || x.phase = .source || x.phase = .engine || x.phase = .wait 20 || x.phase = .wait 22 || x.phase = .wait 24)

/-- Steps 1 and 2 of R409: the world stops, its claims end, commands caught mid-way and changes not yet confirmed are withdrawn. -/
def restartWorld (die w trigger : Nat) (s : State) : State :=
  if (getWorld s die w).st ≠ 0 ∨ s.dies.length ≤ die ∨ !(w = 1 ∨ w = 2) then s else
  let s1 := modWorld die w (fun x => { x with
    st := 1, halted := false, restarts := satAdd x.restarts 1 0xFF, times := (x.times.filter fun t => s.time.now < t + 60000000000) ++ [s.time.now] }) s
  let s2 := recEventAt die 0 0x0D02 ([byte w, byte trigger] ++ zeros 6)
    (modMandrel die (·.without w) s1)
  if die ≠ 0 then s2 else
  let s3 := (s2.jobs.filter fun j => j.2.caught w).foldl (fun s j => stopJob j.1 stRetry 0 s) s2
  let s4 := if w = 1 then withdrawUnstaged s3 else s3
  settleAll (claimRelease 0 6 (claimRelease 0 2 s4))

/-- Step 5: the world starts, or stays stopped after a failed measurement or its third restart within 60 s. A key world whose image copy
holds an uncorrectable word fails its measurement (R32). A service-world reload waits
for the end of HOLD (R418). -/
def restartDone (die w : Nat) (ok : Bool) (s : State) : State :=
  let x := getWorld s die w
  let ok := ok && !(w = 1 && x.imageBad)
  if x.st ≠ 1 ∨ (w = 2 ∧ s.hold) then s
  else
    let many := 3 ≤ (x.times.filter fun t => s.time.now < t + 60000000000).length
    if many || !ok then
      recEventAt die 0 0x0D03 ([byte w, if many && ok then 1 else if w = 1 then 0 else 2] ++ zeros 6) (modWorld die w (fun x => { x with st := 2 }) s)
    else modMandrel die (fun m => { m with cur := if m.cur = 0 then w else m.cur }) (modWorld die w (fun x => { x with st := 0 }) s)

/-- A world misses its heartbeat for 5 ms; while the debug port has halted it, the heartbeat is suspended (R409, R418). -/
def heartbeatMiss (die w : Nat) (s : State) : State := if (getWorld s die w).halted then s else restartWorld die w 1 s

/-! ## Gateways (R406 to R408) -/

/-- Registers passed under ARGS; the others are zeroed. -/
def passRegs (n : Nat) (regs : List Nat) : List Nat := (List.range 6).map fun i => if i < n then regs.getD i 0 else 0

/-- Result code of the first failed check of R407, 0 where all pass. -/
def gateCode (s : State) (die : Nat) (e : Option GateEntry) (mbox : Option (Nat × Nat)) : Nat :=
  let m := (getDie s die).mandrel
  match e with
  | none => 1
  | some g =>
    if !g.flags.testBit 0 then 1
    else if !g.callers.testBit m.cur then 2
    else if g.flags.testBit 1 && mbox.any (fun b => 131072 < b.1 + b.2 || g.mboxLen < b.2) then 3
    else if (getWorld s die g.target).st ≠ 0 then 4
    else 0

/-- GATE: the index is looked up in the calling world's table; the mailbox buffer is an offset in the sender's mailbox and a length. -/
def gateCall (die index : Nat) (regs : List Nat) (mbox : Option (Nat × Nat)) (s : State) : State :=
  let m := (getDie s die).mandrel
  if s.dies.length ≤ die ∨ m.cur = 0 then s else
  let e := if index < 64 then (if m.cur = 1 then m.gatesK else m.gatesS)[index]? else none
  let c := gateCode s die e mbox
  match e with
  | some g =>
    if c = 0 then modMandrel die (fun m => { m with saved := (m.cur, true, passRegs 6 regs) :: m.saved, cur := g.target, regs := passRegs g.args regs, entry := g.entry }) s
    else modMandrel die (fun m => { m with regs := lset (passRegs 6 regs) 0 c }) s
  | none => modMandrel die (fun m => { m with regs := lset (passRegs 6 regs) 0 c }) s

/-- GATE_RET restores the caller and passes a0 and a1 back; a world that an interrupt stopped goes on with its own registers (R407, R408). -/
def gateReturn (die a0 a1 : Nat) (s : State) : State :=
  match (getDie s die).mandrel.saved with
  | [] => s
  | (w, gate, regs) :: rest => modMandrel die (fun m => { m with cur := w, regs := if gate then lset (lset regs 0 a0) 1 a1 else regs, saved := rest }) s

/-- An interrupt for the world that does not run: the registers of the other are saved and zeroed (R408). -/
def worldInterrupt (die w : Nat) (s : State) : State :=
  let m := (getDie s die).mandrel
  if s.dies.length ≤ die ∨ m.cur = w ∨ !(w = 1 ∨ w = 2) ∨ (getWorld s die w).st ≠ 0 then s
  else modMandrel die (fun m => { m with saved := if m.cur = 0 then m.saved else (m.cur, false, m.regs) :: m.saved, cur := w, regs := passRegs 0 [] }) s

/-! ## Access check units (R413 to R417) -/

/-- Code of a kind in the reports. -/
def kindCode : AccessKind → Nat
  | .read => 0
  | .write => 1
  | .exec => 2

/-- Number of the first descriptor that holds an address. -/
def regionOf (l : List Region) (addr : Nat) : Option Nat := l.findIdx? fun r => r.base ≤ addr / 64 && addr / 64 ≤ r.limit

/-- Regions that R416 makes LOCKED: the hypervisor region and the image copy (R403). -/
def lockedArea (addr : Nat) : Bool := 0x10000000 ≤ addr && addr ≤ 0x1017FFFF

/-- The debug enables permit the access to its region (R416): bit 0 or 1 for the service world, 2 or 3 for the key world and the hypervisor. -/
def debugMay (s : State) (addr : Nat) (kind : AccessKind) : Bool :=
  let svc := 0x10300000 ≤ addr && addr ≤ 0x105BFFFF
  s.life.enables.testBit ((if svc then 0 else 2) + if kind = .write then 1 else 0)

/-- The rules of R404 refuse a world's access whatever its manifest says: the hypervisor region; the image copy but for execution by the key
world; the key-world working memory to the service world; execution of a world's writable memory and of the mailboxes by the key world. -/
def stage2Bars (world : Nat) (kind : AccessKind) (addr : Nat) : Bool :=
  let inside (a b : Nat) : Bool := a ≤ addr && addr ≤ b
  inside 0x10000000 0x1007FFFF
    || (inside 0x10080000 0x1017FFFF && !(world = 1 && kind = .exec))
    || (inside 0x10180000 0x102FFFFF && (world = 2 || kind = .exec))
    || (inside 0x10300000 0x105BFFFF && world = 1 && kind = .write)
    || (inside 0x105C0000 0x105FFFFF && kind = .exec)

/-- Why a beat is refused, and the descriptor number for the report; none where it passes (R415). -/
def beatReason (s : State) (die : Nat) (a : Access) (addr : Nat) : Option (Nat × Nat) :=
  let l := (getDie s die).mandrel.regions.getD a.master []
  let i := regionOf l addr
  let n := i.getD 0xFF
  if (a.master = 1 || a.master = 2) && (a.stage2 || stage2Bars a.master a.kind addr) then some (8, 0xFE)
  else if 0x40000000 ≤ addr && addr ≤ 0x405FFFFF then some (7, n)
  else match i.bind (l[·]?) with
    | none => some (0, 0xFF)
    | some r =>
      if a.master = 9 && (r.locked || lockedArea addr) then some (6, n)
      else if !r.masters.testBit a.master then some (3, n)
      else if (if a.master = 9 then !debugMay s addr a.kind else !r.worlds.testBit a.world) then some (2, n)
      else if !r.kinds.testBit (kindCode a.kind) then some (1, n)
      else if (r.cache = 1 && a.cacheable) || (r.cache = 2 && !a.cacheable) then some (4, n)
      else if r.order = 1 && !a.ordered then some (5, n)
      else none

/-- First addresses of the beats of a transfer, split at 64-byte granules; a stage-2 fault stops the transfer at its first beat. -/
def beatsOf (a : Access) : List Nat :=
  if a.stage2 then [a.addr] else
  a.addr :: ((List.range (a.len / 64 + 1)).map fun i => (a.addr / 64 + 1 + i) * 64).filter (· < a.addr + a.len)

/-- Refused beats are counted, and the first of a transfer is reported (R417). -/
def reportAccess (die : Nat) (a : Access) (s : State) : Option State :=
  let bad := (beatsOf a).filterMap fun b => (beatReason s die a b).map fun r => (b, r)
  match bad with
  | [] => none
  | (addr, reason, n) :: _ =>
    some (recEventAt die 1 0x0D01 (leBytes 4 addr ++ [byte (kindCode a.kind), byte a.master, byte n, byte reason])
      (modMandrel die (fun m => { m with
        viols := satAdd m.viols bad.length 0x7FFF, region := if n = 0xFF then 0x3F else if n = 0xFE then 0x3E else n
        kind := (kindCode a.kind), reason := reason, master := a.master, addr := addr }) s))

/-- A refused transfer of a DMA engine stops; its job is handled as after an engine fault: tried once more, then FAULT_RETRY (R46, R47, R415). -/
def dmaFault (id : Nat) (s : State) : State :=
  match mget s.jobs id with
  | none => s
  | some x =>
    if x.phase ≠ .source ∧ x.phase ≠ .table then s
    else if x.moved then collect id stRetry 0 [] [] none s
    else modJob id (fun y => { y with moved := true }) (countOn x.die 0x0F x.fn 1 s)

/-- An access check unit refuses beats and reports; a world restarts, a refused hypervisor access is an uncorrectable error of Mandrel memory,
and a DMA engine's transfer stops (R415). -/
def accessRefused (die : Nat) (a : Access) (s : State) : State :=
  if s.dies.length ≤ die ∨ 10 < a.master then s else
  match reportAccess die a s with
  | none => s
  | some s1 =>
    if a.master = 1 ∨ a.master = 2 then restartWorld die a.master 2 s1
    else if a.master = 0 then memoryError die 3 a.addr (if die = 0 then 7 else 9) 0 a.addr s1
    else if a.master = 3 ∨ a.master = 4 then (match a.job with
      | some j => settleAll (dmaFault j s1)
      | none => s1)
    else s1

/-- A debug-port access or halt request is checked against the enables (R364, R416). -/
def debugAccess (die : Nat) (a : Access) (halt : Bool) (s : State) : State :=
  if s.dies.length ≤ die then s
  else if halt then
    (if s.life.enables.testBit (if a.world = 2 then 1 else 3) ∧ (a.world = 1 ∨ a.world = 2) then modWorld die a.world (fun x => { x with halted := true }) s else s)
  else match reportAccess die { a with master := 9, stage2 := false } s with
    | none => s
    | some s1 => s1

/-! ## The commands -/

/-- GATE (R407). -/
def execGate (t die index : Nat) (regs : List Nat) (mbox : Option (Nat × Nat)) (s : State) : Host.Outcome State Fault Refusal :=
  .next (gateCall die index regs mbox (tick t s))
/-- GATE_RET (R407). -/
def execGateRet (t die a0 a1 : Nat) (s : State) : Host.Outcome State Fault Refusal := .next (gateReturn die a0 a1 (tick t s))
/-- WORLD_INTERRUPT (R408). -/
def execWorldInterrupt (t die world : Nat) (s : State) : Host.Outcome State Fault Refusal := .next (worldInterrupt die world (tick t s))
/-- WORLD_EXCEPTION (R409). -/
def execWorldException (t die world trigger : Nat) (s : State) : Host.Outcome State Fault Refusal := .next (restartWorld die world trigger (tick t s))
/-- HEARTBEAT_MISS (R409). -/
def execHeartbeatMiss (t die world : Nat) (s : State) : Host.Outcome State Fault Refusal := .next (heartbeatMiss die world (tick t s))
/-- ACCESS_REFUSED (R415). -/
def execAccessRefused (t die : Nat) (a : Access) (s : State) : Host.Outcome State Fault Refusal := .next (accessRefused die a (tick t s))
/-- DEBUG_ACCESS (R416). -/
def execDebugAccess (t die : Nat) (a : Access) (halt : Bool) (s : State) : Host.Outcome State Fault Refusal := .next (debugAccess die a halt (tick t s))
/-- GATING_REQUEST (R412). -/
def execGatingRequest (t die block : Nat) (want : Bool) (s : State) : Host.Outcome State Fault Refusal := .next (gatingRequest die block want (tick t s))
/-- CLAIM_RELEASE (R412). -/
def execClaimRelease (t die block : Nat) (s : State) : Host.Outcome State Fault Refusal := .next (claimRelease die block (tick t s))
/-- GATING_REQUEST_OVERDUE (R412). -/
def execGatingRequestOverdue (t die block : Nat) (s : State) : Host.Outcome State Fault Refusal := .next (gatingOverdue die block (tick t s))
/-- An uncorrectable word in a world's memory on the Crown restarts the world, as on an exception (R32). The unit is 1 or 2 for the working
memory or mailbox of the key or the service world, 3 for the image copy of the key world. -/
def worldMemory (unit : Nat) (s : State) : State :=
  if unit = 3 then restartWorld 0 1 0 (modWorld 0 1 (fun x => { x with imageBad := true }) s) else restartWorld 0 unit 0 s

/-- MEMORY_ERROR (R32). -/
def execMemoryError (t die : Nat) (w : ReadWord) (code unit addr : Nat) (s : State) : Host.Outcome State Fault Refusal :=
  let s1 := memoryError die w.errors w.stored code unit addr (tick t s)
  .next (if code = 8 ∧ !wordCorrected w.errors w.stored addr ∧ die = 0 then worldMemory unit s1 else s1)

end Sys2Proof.Machine
end

