-- ==== Sys2Proof/Machine/Firmware.lean ====
section
/-! DEFINITION. Firmware banks, updates and activation (R432 to R438), and the Hatter's own condition (R420, R421). -/

namespace Sys2Proof.Machine

/-! ## Banks (R433, R434) -/

/-- IMAGE_DIGEST of a bank. -/
def FwBank.digest (b : FwBank) : Bytes := digest384 b.image

/-- Largest image: 2 MiB for the service world, else 1 MiB. -/
def imageMax (c : Nat) : Nat := if c = 2 then 2097152 else 1048576

/-- The header of a bank is well formed and its image is there (R433). -/
def headerOk (data : Bytes) : Bool :=
  let c := field data 5 1
  let len := field data 8 4
  512 ≤ data.length && data.take 4 = [0x58, 0x5A, 0x49, 0x4D] && field data 4 1 = 1 && field data 6 1 ≤ 128 && field data 7 1 ≤ 1
    && len ≤ imageMax (c - 1) && (slice data 65536 len).length = len && (firstNonzero data (span 88 255 ++ span 352 511)).isNone
    && (c != 1 || field data 16 8 = 0)

/-- The bank that a run of flash bytes makes, with the reason of R435 for which header, component or digest refuses it. -/
def readBank (c : Nat) (data : Bytes) : FwBank :=
  let img := slice data 65536 (field data 8 4)
  { svn := field data 6 1
    signed := Config.verifyOf 2 0 false [] (Config.romKey (2 + field data 7 1)) (digest384 ([0x14] ++ data.take 256)) (slice data 256 96)
    bad := if !headerOk data then 1 else if field data 5 1 ≠ c + 1 then 5 else if digest384 img ≠ slice data 40 48 then 3 else 0
    image := img }

/-- The reason for which R434 refuses a bank of a component, 0 where it is valid; an empty bank holds no header. In BLANK and TEST neither
signature nor SVN is checked, and at an unlocked start-up no signature (R363). -/
def bankReason (s : State) (c : Nat) (b : FwBank) : Nat :=
  if b.bad ≠ 0 ∨ b.st = 0 ∨ b.st = 3 then max b.bad 1
  else if imageless s then 0
  else if !s.life.unlocked && !b.signed then 2
  else if b.svn < (getComp s c).minSvn then 4
  else 0

/-! ## Staging (R435) -/

/-- The inactive bank is erased; a staged bank is replaced and a pending activation withdrawn. -/
def eraseBank (c : Nat) (s : State) : State := modComp c (fun x => { x.setBank x.spare {} with pending := false }) s

/-- TransferComplete: the checks of R434 on the new bank, and the bank is staged or marked invalid. -/
def stageBank (c : Nat) (data : Bytes) (s : State) : Nat × State :=
  let b := readBank c data
  let r := bankReason s c { b with st := 2 }
  let i := (getComp s c).spare
  let s1 := modComp c (fun x => x.setBank i { b with st := if r = 0 then 2 else 3 }) s
  (r, if r = 0 then recEvent 0x0C04 ([byte (c + 1), byte i, byte b.svn] ++ zeros 5) s1
      else recEvent 0x0C02 ([byte (c + 1), byte i, byte r] ++ zeros 5) s1)

/-- An update ends before its transfer does: the partly written bank is invalid. -/
def dropUpdate (s : State) : State :=
  match s.fw.upd with
  | none => s
  | some u =>
    let s1 := if u.st = 3 then modComp u.comp (fun x => x.setBank x.spare { st := 3, bad := 1 }) s else s
    { s1 with fw := { s1.fw with upd := none } }

/-! ## FW_QUERY (R436) -/

/-- A component's entry. -/
def fwEntry (s : State) (c : Nat) : Bytes :=
  let x := getComp s c
  [byte (c + 1), byte x.active, byte x.a.st, byte x.b.st, byte x.a.svn, byte x.b.svn, byte x.minSvn, byte (bit x.pending 0 + bit s.fw.fallback 1)]
    ++ zeros 8 ++ (match x.staged with
      | some i => (x.bank i).digest
      | none => zeros 48)

/-- FW_QUERY (R436). -/
def fwQuerySem : OpSem where
  pfOnly := pfOnly
  resv d := reservedBad d (offHandle ++ offSrc ++ span 32 63)
  fenced := anyFn
  keyed := anyFn
  src := false
  len x _ := failIf (x.d.aux < 192) stLength 0
  own _ _ := []
  go id s := okJob id [] ((List.range 3).flatMap (fwEntry s)) s
  fin _ s := s

/-! ## FW_ACTIVATE (R437) -/

/-- COMPONENTS. -/
def fwComps (d : Desc) : Nat := d.f 32 1

/-- Orders 2 and 3, and order 6 where no source is read. -/
def fwActivateOwn (s : State) (x : Job) : List Fail :=
  let m := fwComps x.d
  failIf (m = 0 || 8 ≤ m || (if m.testBit 1 then !x.d.indirect && x.d.srcLen ≠ 48 else x.d.srcLen ≠ 0)) stInput 0x90
    ++ failIf ((compsOf m).any fun c => (getComp s c).staged.isNone) stInput 0x91
    ++ failIf (!m.testBit 1 && (compsOf m).any fun c => !svnHolds s c) stInput 0x93

/-- IMAGE_DIGEST of the staged key-world bank. -/
def stagedKw (s : State) : Bytes :=
  let x := getComp s 1
  match x.staged with
  | some i => (x.bank i).digest
  | none => []

/-- Orders 2 to 6 once the digest is held. -/
def fwActivateFails (s : State) (x : Job) : List Fail :=
  failIf (x.src.length ≠ 48) stInput 0x90 ++ failIf (x.src ≠ stagedKw s) stInput 0x92
    ++ failIf (!(quorumOpenFor s x 0 && quorumOpenFor s x 1)) stInput 0xD0
    ++ failIf ((compsOf (fwComps x.d)).any fun c => !svnHolds s c) stInput 0x93

/-- The directory has been written: the command completes. -/
def fwActivateDone (id : Nat) (s : State) : State :=
  let x := getJob s id
  let m := fwComps x.d
  let lost := m.testBit 1 && (s.vault.alt = none || decide (s.vault.alt ≠ mnOf s (stagedKw s)))
  okJob id [byte m, byte (bit lost 0)] [] (if m.testBit 1 then consume [0, 1] (activateBanks m s) else activateBanks m s)

/-- FW_ACTIVATE runs; the directory write waits while HOLD bars it. -/
def fwActivateGo (id : Nat) (s : State) : State :=
  let x := getJob s id
  match (if (fwComps x.d).testBit 1 then firstFail (fwActivateFails s x) else none) with
  | some f => failJob id f s
  | none => if s.hold then awaitImage 44 id s else fwActivateDone id s

/-- FW_ACTIVATE (R437). -/
def fwActivateSem : OpSem where
  pfOnly := pfOnly
  resv d := reservedBad d (offHandle ++ (if (fwComps d).testBit 1 then [] else span 8 15) ++ offAux ++ offDst ++ span 33 63)
  fenced := anyFn
  keyed := anyFn
  src := true
  len _ _ := []
  own := fwActivateOwn
  go := fwActivateGo
  fin _ s := s

/-! ## The Hatter (R420, R421) -/

/-- The Hatter runs: it started with an image, the part has main power and is not in SCRAP, and it is not restarting. -/
def hatterRuns (s : State) : Bool := s.hatter.up && (getComp s 0).run.isSome && s.lcs != .scrap && !s.pwr.off

/-- A restart by the watchdog or an exception: MCTP and SPDM state is lost, an update ends. -/
def hatterRestart (exc : Bool) (s : State) : State :=
  if !hatterRuns s then s else
  let s1 := dropUpdate s
  recEvent 0x0C07 (byte (bit exc 0) :: zeros 7)
    { s1 with hatter := { s1.hatter with up := false, asmVdm := none, asmSmb := none, message := [], spdmVdm := {}, spdmSmb := {} } }

/-- The restart has ended. -/
def hatterBack (s : State) : State := { s with hatter := { s.hatter with up := true } }

/-- HATTER_WATCHDOG (R421). -/
def execHatterWatchdog (t : Nat) (exception : Bool) (s : State) : Host.Outcome State Fault Refusal := .next (hatterRestart exception (tick t s))
/-- HATTER_RESTART_DONE (R421). -/
def execHatterRestartDone (t : Nat) (s : State) : Host.Outcome State Fault Refusal := .next (hatterBack (tick t s))

end Sys2Proof.Machine
end

