-- ==== Sys2Proof/Machine/Counting.lean ====
section
/-! DEFINITION. The Counting frame: counters, snapshots and precise sampling (R439 to R448). -/

namespace Sys2Proof.Machine

/-! ## CNT_CONFIGURE (R440, R441) -/

/-- The events of R440. -/
def cntEvents : List Nat := span 0 0x0F ++ span 0x40 0x44 ++ span 0x80 0x84 ++ [0xC0, 0xC1]

/-- Events that can be limited to one function. -/
def cntFiltered : List Nat := span 2 8 ++ [0x0F] ++ span 0x80 0x84

/-- Threshold events. -/
def cntThreshold (ev : Nat) : Bool := (0x40 ≤ ev && ev < 0x80) || 0xC0 ≤ ev

/-- DIE names a die of the part, or every die. -/
def cntDieBad (s : State) (x : Job) (every : Bool) : List Fail :=
  failIf (!(decide (x.d.f 32 1 < dieCount s) || (every && x.d.f 32 1 = 0xFF))) stInput 0x94

/-- The dies that byte 32 names. -/
def cntDies (s : State) (d : Desc) : List Nat := if d.f 32 1 = 0xFF then List.range (dieCount s) else [d.f 32 1]

/-- An illegal counter configuration. -/
def cntIllegal (d : Desc) : Bool :=
  let ev := d.f 34 1
  let filter := (d.f 35 1).testBit 1
  !cntEvents.contains ev || (0x80 ≤ ev && d.f 32 1 ≠ 0) || (d.f 36 2 ≠ 0 && !cntThreshold ev)
    || (filter && !cntFiltered.contains ev) || (if filter then 1023 < d.f 38 2 else d.f 38 2 ≠ 0)

/-- The change takes effect at T. -/
def cntConfigureGo (id : Nat) (s : State) : State :=
  let x := getJob s id
  let d := x.d
  acceptFenced id (targetOf d.targetField x.epoch)
    [.cnt (cntDies s d) (d.f 33 1) (d.f 34 1) (if (d.f 35 1).testBit 1 then some (d.f 38 2) else none) (d.f 36 2) ((d.f 35 1).testBit 0)] s

/-- CNT_CONFIGURE (R441). -/
def cntConfigureSem : OpSem where
  pfOnly := pfOnly
  resv d := reservedBad d (offHandle ++ offSrc ++ offAux ++ offDst ++ (if d.f 35 1 < 4 then [] else [35]) ++ span 40 55)
  fenced := pfOnly
  keyed := anyFn
  src := false
  len _ _ := []
  own s x := cntDieBad s x true ++ failIf (63 < x.d.f 33 1) stInput 33 ++ failIf (cntIllegal x.d) stInput 0x95
  go := cntConfigureGo
  fin _ s := s

/-! ## CNT_READ (R442, R447) -/

/-- One entry of a block: value, SATURATED, EVENT. -/
def cntEntry (c : Counter) : Bytes := leBytes 8 (c.value + bit c.sat 48 + c.ev * 72057594037927936)

/-- A function's view of a counter; the PF sees every one. -/
def cntView (fn : Nat) (c : Counter) : Counter := if fn = 0 || c.filter = some fn then c else {}

/-- A die's block of 576 bytes. -/
def cntBlock (s : State) (fn no die : Nat) : Bytes :=
  let d := getDie s die
  leBytes 6 s.time.epoch ++ [byte die, byte (bit d.live 0)] ++ leBytes 8 no ++ zeros 48
    ++ (if d.live then (List.range 64).flatMap fun i => cntEntry (cntView fn ((mget d.cnt i).getD {})) else zeros 512)

/-- A VF may read counters: its instance was created with COUNTER_VIEW, and the part is no XZ98. -/
def cntMay (s : State) (x : Job) : Bool := x.fn = 0 || (s.part != .xz98 && (getFn s x.fn).g.options.testBit 0)

/-- CNT_READ (R442). -/
def cntReadSem : OpSem where
  pfOnly := anyFn
  resv d := reservedBad d (offHandle ++ offSrc ++ span 33 63)
  fenced := anyFn
  keyed := anyFn
  src := false
  len x _ := failIf (x.d.aux < 576) stLength 0
  own s x := failIf (x.d.aux < 576 * (cntDies s x.d).length) stLength 0 ++ cntDieBad s x true ++ failIf (!cntMay s x) stInput 0x96
  go id s := let x := getJob s id; okJob id [] ((cntDies s x.d).flatMap (cntBlock s x.fn 0)) s
  fin _ s := s

/-! ## CNT_SNAPSHOT_SET (R443) -/

/-- An area that no snapshot may use. -/
def snapArea (d : Desc) : Bool := !(4 ≤ d.f 33 1 && d.f 33 1 ≤ 16) || d.f 40 8 % 4096 ≠ 0 || d.f 48 8 % 64 ≠ 0

/-- CNT_SNAPSHOT_SET (R443). Area and period are checked when ENABLE = 1 (DEDUCED, log entry 40). -/
def cntSnapshotSem : OpSem where
  pfOnly := pfOnly
  resv d := reservedBad d (offHandle ++ offSrc ++ offAux ++ offDst ++ span 34 35)
  fenced := pfOnly
  keyed := anyFn
  src := false
  len _ _ := []
  own _ x := let on := x.d.f 32 1 = 1
    failIf (1 < x.d.f 32 1) stInput 32 ++ failIf (on && snapArea x.d) stInput 0x97 ++ failIf (on && x.d.f 36 4 = 0) stInput 0x98
  go id s := let x := getJob s id
    acceptFenced id (targetOf x.d.targetField x.epoch) [.snap (x.d.f 32 1 = 1) (x.d.f 33 1) (x.d.f 36 4) (x.d.f 40 8) (x.d.f 48 8)] s
  fin _ s := s

/-- The index block of the snapshot area. -/
def snapIndex (w : Snap) (epoch : Nat) : Bytes := leBytes 8 w.written ++ leBytes 8 w.taken ++ leBytes 6 epoch ++ zeros 42

/-- Item 5 of R77 at boundary B: a snapshot that is due is written, or skipped while the PF may not write. -/
def snapAt (b : Nat) (s : State) : State :=
  let w := s.snap
  if !w.on ∨ b < w.from_ ∨ (b - w.from_) % w.period ≠ 0 then s
  else if busOff s 0 then recEvent 0x0C09 (leBytes 6 b ++ zeros 2) s
  else
    let n := w.taken + 1
    let s1 := (List.range (dieCount s)).foldl (fun s d =>
      let y := s.snap
      { emit (.write 0 (y.base + y.written % 2 ^ y.log2 * 576) (cntBlock s 0 n d)) s with snap := { y with written := y.written + 1 } }) s
    let s2 := { s1 with snap := { s1.snap with taken := n } }
    emit (.write 0 s2.snap.index (snapIndex s2.snap b)) s2

/-! ## Sampling (R444 to R446) -/

/-- CNT_SAMPLE_CONFIGURE (R444). -/
def cntSampleConfigSem : OpSem where
  pfOnly := pfOnly
  resv d := reservedBad d (offHandle ++ offSrc ++ offAux ++ offDst ++ span 34 35 ++ span 42 55)
  fenced := pfOnly
  keyed := anyFn
  src := false
  len _ _ := []
  own s x := cntDieBad s x true
    ++ failIf (3 < x.d.f 33 1 || x.d.f 36 2 = 0 || x.d.f 38 2 = 0 || (1023 < x.d.f 40 2 && x.d.f 40 2 ≠ 0xFFFF)) stInput 0x98
  go id s := let x := getJob s id
    acceptFenced id (targetOf x.d.targetField x.epoch) [.sample (cntDies s x.d) (x.d.f 33 1) (x.d.f 36 2) (x.d.f 38 2) (x.d.f 40 2)] s
  fin _ s := s

/-- CNT_SAMPLE_READ: the PF moves records out, a VF copies its own (R446, R447). -/
def cntSampleReadGo (id : Nat) (s : State) : State :=
  let x := getJob s id
  let die := x.d.f 32 1
  let recs := (getDie s die).sampler.recs.filter fun r => x.fn = 0 || r.fn = x.fn
  let take := recs.take (x.d.aux / 32)
  let n := take.length
  let s1 := if x.fn = 0 ∧ n ≠ 0 then modDie die (fun d => { d with sampler := { d.sampler with recs := d.sampler.recs.drop n, full := false } }) s else s
  okJob id (leBytes 2 n ++ leBytes 2 (recs.length - if x.fn = 0 then n else 0)) (take.flatMap (·.bytes)) s1

/-- CNT_SAMPLE_READ (R446). -/
def cntSampleReadSem : OpSem where
  pfOnly := anyFn
  resv d := reservedBad d (offHandle ++ offSrc ++ span 33 63)
  fenced := anyFn
  keyed := anyFn
  src := false
  len x _ := failIf (x.d.aux < 32) stLength 0
  own s x := cntDieBad s x false ++ failIf (!cntMay s x) stInput 0x96
  go := cntSampleReadGo
  fin _ s := s

/-- The firmware sampling period expires: the Mandrel's world and, where R445 allows it, its instruction address are recorded. -/
def fwSample (die world addr : Nat) (s : State) : State :=
  let d := getDie s die
  if !d.live ∨ !d.sampler.mode.testBit 1 ∨ 2 < world then s
  else
    let a := if world = 2 || s.life.enables.testBit 2 then addr % 4294967296 else 0
    pushSample die 0 (sampleBytes 0 0 (1 + 2 * world) 0 0 die 0 a 0 s.time.epoch 0) s

/-- A counter reaches its top and stays there (R439). -/
def counterSaturates (die n : Nat) (s : State) : State :=
  modDie die (fun d => { d with cnt := mmap (fun k c => if k = n ∧ c.ev ≠ 0 then { c with value := 0xFFFFFFFFFFFF, sat := true } else c) d.cnt }) s

/-- FW_SAMPLE_TIMER (R445). -/
def execFwSampleTimer (t die world address : Nat) (s : State) : Host.Outcome State Fault Refusal := .next (fwSample die world address (tick t s))
/-- COUNTER_SATURATION (R439). -/
def execCounterSaturation (t die counter : Nat) (s : State) : Host.Outcome State Fault Refusal := .next (counterSaturates die counter (tick t s))

end Sys2Proof.Machine
end

