-- ==== Sys2Proof/Machine/Mgmt.lean ====
section
/-! DEFINITION. The Hatter's sensors and management protocols (R422 to R431, R435, R437). A row of these protocols stands for one whole request; the
layouts of the answers are those of the DMTF standards that the rules cite, with instance and session fields 0 (PRESUMED, log entry 41). -/

namespace Sys2Proof.Machine

/-! ## Sensors (R423, R424) -/

/-- Sensors of a die by number: 0 to 3 temperature, 4 VCORE, 5 VSRAM, 6 VIO. -/
def dieSensors (d : Nat) : List Nat := (List.range 7).map fun i => 0x100 + 16 * d + i

/-- The sensors of the part. -/
def sensorIds (s : State) : List Nat := (List.range (dieCount s)).flatMap dieSensors ++ span 0x180 0x183

/-- A sensor that is sampled now: on a die in service, and on the Crown only in RETAIN (R422). -/
def sampledNow (s : State) (id : Nat) : Bool :=
  (sensorIds s).contains id && (0x180 ≤ id || (id < 0x110 || (s.pwrState ≠ 2 && (getDie s ((id - 0x100) / 16)).live)))

/-- Limits around a nominal value in mV: warning and critical in parts per 1,000. -/
def around (nom w c : Int) : List (Nat × Bool × Int) :=
  [(1, true, nom * (1000 + w)), (1, false, nom * (1000 - w)), (2, true, nom * (1000 + c)), (2, false, nom * (1000 - c))]

/-- Largest power of the part in 0.1 W (R1). -/
def maxPower (s : State) : Int :=
  match s.part with
  | .xz92 => 180
  | .xz94 => 310
  | .xz98 => 580

/-- The limits of a sensor: level 1 warning or 2 critical, whether it is an upper one, and thousandths of the sensor's unit. -/
def sensorLimits (s : State) (id : Nat) : List (Nat × Bool × Int) :=
  if id = 0x180 then around 900 30 50
  else if id = 0x181 then around 1200 30 50
  else if id = 0x182 then [(1, false, 2600000), (2, false, 2400000)]
  else if id = 0x183 then [(1, true, maxPower s * 950), (2, true, maxPower s * 1000)]
  else if id % 16 < 4 then
    if s.grade = .c then [(1, true, 900000), (2, true, 950000), (1, false, -150000), (2, false, -200000)]
    else [(1, true, 950000), (2, true, 1000000), (1, false, -150000), (2, false, -200000)]
  else if id % 16 = 4 then around 750 30 40
  else if id % 16 = 5 then around 800 30 40
  else around 1800 50 100

/-- How far inside a limit a reading must come back: 2 °C, or 2 % of the limit. -/
def sensorBack (id : Nat) (lim : Int) : Int := if id < 0x180 && id % 16 < 4 then 20000 else Int.ofNat (lim.natAbs / 50)

/-- A reading is beyond a limit of the level. -/
def beyond (s : State) (id level : Nat) (v : Int) : Bool :=
  (sensorLimits s id).any fun l => l.1 = level && if l.2.1 then l.2.2 < v * 1000 else v * 1000 < l.2.2

/-- A reading is back inside every limit of the level. -/
def within2 (s : State) (id level : Nat) (v : Int) : Bool :=
  (sensorLimits s id).all fun l => l.1 ≠ level || if l.2.1 then v * 1000 ≤ l.2.2 - sensorBack id l.2.2 else l.2.2 + sensorBack id l.2.2 ≤ v * 1000

/-- Two's complement of a reading in 16 bits. -/
def int16 (v : Int) : Bytes := leInt 2 v

/-- The state that PLDM reports for a sensor: 1 normal, 2 warning, 3 critical. -/
def sensorState (s : State) (id : Nat) : Nat :=
  if s.hatter.crossed.contains (id * 2 + 2) then 3 else if s.hatter.crossed.contains (id * 2 + 1) then 2 else 1

/-- The PlatformEventMessage of a sensor (R427). -/
def platformEvent (s : State) (id old : Nat) (v : Int) : Bytes :=
  [0x01, 0x80, 0x02, 0x0A, 0x01, byte s.hatter.tid, 0x00] ++ leBytes 2 id ++ [0x02, byte (sensorState s id), byte old, 0x03] ++ int16 v

/-- Sends a platform event to the event receiver, or holds it for a poll. -/
def sendEvent (b : Bytes) (s : State) : State :=
  if s.hatter.recvMode = 1 then emit (.mgmt (if s.hatter.recvVdm then .vdm else .smbus) b) s
  else if s.hatter.recvMode = 2 then { s with hatter := { s.hatter with events := s.hatter.events ++ [b] } }
  else s

/-- One limit level of a reading (R424). -/
def evalLevel (id level : Nat) (v : Int) (s : State) : State :=
  let k := id * 2 + level
  let was := s.hatter.crossed.contains k
  let out := !was && beyond s id level v
  let back := was && within2 s id level v
  if out || back then
    let old := sensorState s id
    let s1 := { s with hatter := { s.hatter with crossed := if out then s.hatter.crossed ++ [k] else s.hatter.crossed.filter (· ≠ k) } }
    sendEvent (platformEvent s1 id old v) (recEvent 0x0C01 (leBytes 2 id ++ [byte level, byte (bit back 0)] ++ int16 v ++ zeros 2) s1)
  else s

/-- A sample: readings are stored and their limits evaluated. -/
def sensorSample (l : List (Nat × Int)) (s : State) : State :=
  if !hatterRuns s then s else
  (l.filter fun r => sampledNow s r.1).foldl (fun s r =>
    evalLevel r.1 2 r.2 (evalLevel r.1 1 r.2 { s with hatter := { s.hatter with readings := mset s.hatter.readings r.1 r.2 } })) s

/-! ## MCTP packets (R425, R426) -/

/-- The assembly of a binding. -/
def getAsm (s : State) : Binding → Option Assembly
  | .smbus => s.hatter.asmSmb
  | .vdm => s.hatter.asmVdm

/-- Sets the assembly of a binding. -/
def putAsm (b : Binding) (a : Option Assembly) (s : State) : State :=
  { s with hatter := match b with
    | .smbus => { s.hatter with asmSmb := a }
    | .vdm => { s.hatter with asmVdm := a } }

/-- Endpoint ID of a binding. -/
def eidOf (s : State) : Binding → Nat
  | .smbus => s.hatter.eidSmb
  | .vdm => s.hatter.eidVdm

/-- The Hatter answers on a binding: it is enabled, and for VDM the link is up. -/
def serves (s : State) (b : Binding) : Bool :=
  hatterRuns s && (match b with
    | .smbus => s.hatter.smbusOn
    | .vdm => s.hatter.vdmOn && s.linkWidth ≠ 0 && !s.linkFatal)

/-- The packet is addressed to this endpoint and has a legal size. -/
def packetOk (s : State) (b : Binding) (p : Bytes) : Bool :=
  5 ≤ p.length && field p 0 1 % 16 = 1 && (field p 1 1 = 0 || field p 1 1 = eidOf s b)
    && (p.length ≤ 4 + (match b with
      | .smbus => 64
      | .vdm => 256))

/-- A message whose type is supported. -/
def typeOk (m : Bytes) : Bool := [0, 1, 5].contains (field m 0 1 % 128)

/-- A packet is assembled: SOM starts a message, the next packets follow its tag and sequence within 100 ms, EOM ends it. -/
def mctpPacket (b : Binding) (p : Bytes) (pecOk : Bool) (s : State) : State :=
  if !serves s b ∨ !packetOk s b p ∨ (b = .smbus ∧ !pecOk) then s else
  let f := field p 3 1
  let tag := f % 16 + 16 * field p 2 1
  let seq := bits f 4 2
  let body : Option Bytes :=
    if f.testBit 7 then some (p.drop 4)
    else match getAsm s b with
      | some a => if a.tag = tag ∧ seq = (a.seq + 1) % 4 ∧ s.time.now ≤ a.at_ + 100000000 then some (a.body ++ p.drop 4) else none
      | none => none
  match body with
  | none => putAsm b none s
  | some m =>
    if f.testBit 6 then
      let s1 := putAsm b none s
      if typeOk m then { s1 with hatter := { s1.hatter with message := m } } else s1
    else putAsm b (some { tag := tag, seq := seq, at_ := s.time.now, body := m }) s

/-- A partly assembled message is discarded after 100 ms. -/
def assemblyTimeout (b : Binding) (s : State) : State :=
  match getAsm s b with
  | some a => if a.at_ + 100000000 ≤ s.time.now then putAsm b none s else s
  | none => s

/-- SCL held low for 35 ms: the SMBus interface is reset. -/
def smbusReset (s : State) : State := if hatterRuns s then putAsm .smbus none s else s

/-! ## MCTP control (R425) -/

/-- Sends an answer. -/
def reply (b : Binding) (data : Bytes) (s : State) : State := emit (.mgmt b data) s

/-- An MCTP control answer. -/
def ctrl (b : Binding) (cmd cc : Nat) (data : Bytes) (s : State) : State := reply b ([0x00, 0x00, byte cmd, byte cc] ++ data) s

/-- Set Endpoint ID: operation 0 or 1 assigns one of 8 to 254. -/
def setEid (b : Binding) (op eid : Nat) (s : State) : State :=
  if 1 < op ∨ eid < 8 ∨ 254 < eid then ctrl b 1 2 [] s
  else
    let s1 := { s with hatter := match b with
      | .smbus => { s.hatter with eidSmb := eid }
      | .vdm => { s.hatter with eidVdm := eid } }
    ctrl b 1 0 [0x00, byte eid, 0x00] s1

/-- Get MCTP Version Support: base and control 1.3, PLDM and SPDM 1.0. -/
def mctpVersion (b : Binding) (ty : Nat) (s : State) : State :=
  if ty = 0xFF ∨ ty = 0 then ctrl b 4 0 [0x01, 0xF1, 0xF3, 0xFF, 0x00] s
  else if ty = 1 ∨ ty = 5 then ctrl b 4 0 [0x01, 0xF1, 0xF0, 0xFF, 0x00] s
  else ctrl b 4 0x80 [] s

/-! ## PLDM base, and Platform Monitoring and Control (R427) -/

/-- A PLDM answer. -/
def pldm (b : Binding) (ty cmd cc : Nat) (data : Bytes) (s : State) : State := reply b ([0x01, 0x00, byte ty, byte cmd, byte cc] ++ data) s

/-- CRC-32 of the GetPLDMVersion answer. -/
def crc32 (bs : Bytes) : Nat :=
  (bs.foldl (fun c b => (List.range 8).foldl (fun c _ => if c % 2 = 1 then c / 2 ^^^ 0xEDB88320 else c / 2) (c ^^^ b.toNat)) 0xFFFFFFFF) ^^^ 0xFFFFFFFF

/-- Version of a PLDM type. -/
def pldmVersion (ty : Nat) : Option Bytes :=
  if ty = 0 then some [0x00, 0xF0, 0xF1, 0xF1] else if ty = 2 then some [0x00, 0xF0, 0xF2, 0xF1]
  else if ty = 5 then some [0x00, 0xF0, 0xF1, 0xF1] else none

/-- Commands of a PLDM type. -/
def pldmCmds (ty : Nat) : Option (List Nat) :=
  if ty = 0 then some [1, 2, 3, 4, 5] else if ty = 2 then some [0x04, 0x0A, 0x0B, 0x11, 0x21, 0x50, 0x51]
  else if ty = 5 then some [0x01, 0x02, 0x10, 0x13, 0x14, 0x15, 0x16, 0x17, 0x18, 0x1A, 0x1B, 0x1C, 0x1D] else none

/-- GetPLDMVersion. -/
def getPldmVersionR (b : Binding) (ty : Nat) (s : State) : State :=
  match pldmVersion ty with
  | some v => pldm b 0 3 0 (zeros 4 ++ [0x05] ++ v ++ leBytes 4 (crc32 v)) s
  | none => pldm b 0 3 0x83 [] s

/-- GetPLDMCommands. -/
def getPldmCommandsR (b : Binding) (ty : Nat) (s : State) : State :=
  match pldmCmds ty with
  | some l => pldm b 0 5 0 (leBytes 32 (l.map fun c => 2 ^ c).sum) s
  | none => pldm b 0 5 0x83 [] s

/-- State sensors, numbered from 0x200: life-cycle code, LOCK, TRUSTED, LIVE_MASK. -/
def stateSensor (s : State) (id : Nat) : Option Nat :=
  if id = 0x200 then some s.lcs.code else if id = 0x201 then some (bit s.locked 0) else if id = 0x202 then some (bit (pkgTrusted s) 0)
  else if id = 0x203 then some (liveMask s) else none

/-- A numeric sensor PDR: header, terminus, sensor, unit code, modifier, and its limits in thousandths of a unit. -/
def numericPdr (s : State) (handle id : Nat) : Bytes :=
  let temp := id < 0x180 && id % 16 < 4
  let unit : List Byte := if temp then [0x02, 0xFF] else if id = 0x183 then [0x07, 0xFF] else [0x05, 0xFD]
  let body := leBytes 2 1 ++ leBytes 2 id ++ unit ++ (sensorLimits s id).flatMap fun l => [byte l.1, byte (bit l.2.1 0)] ++ leInt 4 l.2.2
  leBytes 4 handle ++ [0x01, 0x02] ++ zeros 2 ++ leBytes 2 body.length ++ body

/-- A state sensor PDR. -/
def statePdr (handle id : Nat) : Bytes := leBytes 4 handle ++ [0x01, 0x04] ++ zeros 2 ++ leBytes 2 4 ++ leBytes 2 1 ++ leBytes 2 id

/-- The PDR repository: numeric sensors, then state sensors; record handles from 1. -/
def pdrs (s : State) : List Bytes :=
  ((sensorIds s).mapIdx fun i id => numericPdr s (i + 1) id)
    ++ ((span 0x200 0x203).mapIdx fun i id => statePdr ((sensorIds s).length + i + 1) id)

/-- GetPDRRepositoryInfo. -/
def pdrInfo (b : Binding) (s : State) : State :=
  let l := (pdrs s).map (·.length)
  pldm b 2 0x50 0 ([0x00] ++ zeros 26 ++ leBytes 4 l.length ++ leBytes 4 l.sum ++ leBytes 4 (l.foldl max 0) ++ [0x00]) s

/-- GetPDR: record 0 is the first. -/
def getPdrR (b : Binding) (record : Nat) (s : State) : State :=
  let i := if record = 0 then 0 else record - 1
  match (pdrs s)[i]? with
  | some p => pldm b 2 0x51 0 (leBytes 4 (if i + 1 < (pdrs s).length then i + 2 else 0) ++ zeros 4 ++ [0x05] ++ leBytes 2 p.length ++ p) s
  | none => pldm b 2 0x51 0x82 [] s

/-- GetSensorReading: a sensor that is not sampled now reads unavailable, with its last reading. -/
def sensorReading (b : Binding) (id : Nat) (s : State) : State :=
  if (sensorIds s).contains id then
    let v := (mget s.hatter.readings id).getD 0
    let op : Nat := if sampledNow s id && (mget s.hatter.readings id).isSome then 0 else 2
    pldm b 2 0x11 0 ([0x03, byte op, 0x01, byte (sensorState s id), byte (sensorState s id), byte (sensorState s id)] ++ int16 v) s
  else pldm b 2 0x11 0x80 [] s

/-- GetStateSensorReadings. -/
def stateReading (b : Binding) (id : Nat) (s : State) : State :=
  match stateSensor s id with
  | some v => pldm b 2 0x21 0 ([0x01, 0x00, byte v, byte v, byte v]) s
  | none => pldm b 2 0x21 0x80 [] s

/-- SetEventReceiver: 0 disables, 1 sends asynchronously, 2 holds for polling. -/
def setReceiver (b : Binding) (enable eid : Nat) (s : State) : State :=
  if 2 < enable then pldm b 2 0x04 0x81 [] s
  else pldm b 2 0x04 0 [] { s with hatter := { s.hatter with recvMode := enable, recvVdm := b = .vdm, recvEid := eid, events := if enable = 2 then s.hatter.events else [] } }

/-- PollForPlatformEventMessage: the oldest event held, or none. -/
def pollEvent (b : Binding) (s : State) : State :=
  match s.hatter.events with
  | [] => pldm b 2 0x0B 0 ([byte s.hatter.tid] ++ zeros 2) s
  | e :: es => pldm b 2 0x0B 0 ([byte s.hatter.tid] ++ leBytes 2 1 ++ zeros 4 ++ [0x05, 0x00] ++ leBytes 4 (e.length - 6) ++ e.drop 6)
      { s with hatter := { s.hatter with events := es } }

/-! ## PLDM for Firmware Update (R428, R435, R437) -/

/-- QueryDeviceIdentifiers: Gweora's PCI vendor identifier. -/
def deviceIds (b : Binding) (s : State) : State :=
  pldm b 5 0x01 0 (leBytes 4 6 ++ [0x01] ++ zeros 2 ++ leBytes 2 2 ++ leBytes 2 Config.vendorId.toNat) s

/-- GetFirmwareParameters: the three components with active and pending SVN. -/
def fwParams (b : Binding) (s : State) : State :=
  let entry (c : Nat) : Bytes :=
    let x := getComp s c
    let staged : Nat := match x.staged with
      | some i => (x.bank i).svn
      | none => 0
    leBytes 2 0x0A ++ leBytes 2 (c + 1) ++ [0x00] ++ leBytes 4 (x.bank x.active).svn ++ leBytes 4 staged ++ leBytes 2 0x20 ++ zeros 4
  pldm b 5 0x02 0 (leBytes 4 0 ++ leBytes 2 3 ++ ([0, 1, 2].map entry).flatten) s

/-- RequestUpdate: a block size of 512 to 4,096 is agreed; not in RETAIN. -/
def requestUpdateR (b : Binding) (size : Nat) (s : State) : State :=
  if s.pwrState ≠ 0 then pldm b 5 0x10 4 [] s
  else if s.fw.upd.isSome then pldm b 5 0x10 0x81 [] s
  else if size < 512 then pldm b 5 0x10 0x83 [] s
  else pldm b 5 0x10 0 (zeros 3) { s with fw := { s.fw with upd := some { viaVdm := b = .vdm, block := min size 4096 } } }

/-- The update of this binding, if it stands in one of the given states. -/
def updIn (s : State) (b : Binding) (l : List Nat) : Option Update :=
  s.fw.upd.filter fun u => u.viaVdm = decide (b = .vdm) && l.contains u.st

/-- The completion code of a command that the update's state does not allow. -/
def notNow (s : State) : Nat := if s.fw.upd.isNone then 0x80 else 0x84

/-- PassComponentTable: the component exists and its SVN is at least the minimum. -/
def passTable (b : Binding) (c svn : Nat) (s : State) : State :=
  match updIn s b [1, 2] with
  | none => pldm b 5 0x13 (notNow s) [] s
  | some u =>
    let s1 := { s with fw := { s.fw with upd := some { u with st := 2 } } }
    if c < 1 ∨ 3 < c then pldm b 5 0x13 0 [0x01, 0x06] s1
    else if !imageless s ∧ svn < (getComp s (c - 1)).minSvn then pldm b 5 0x13 0 [0x01, 0x02] s1
    else pldm b 5 0x13 0 [0x00, 0x00] s1

/-- RequestFirmwareData for the next block. -/
def requestData (b : Binding) (u : Update) (s : State) : State :=
  reply b ([0x01, 0x80, 0x05, 0x15] ++ leBytes 4 u.data.length ++ leBytes 4 (min u.block (u.size - u.data.length))) s

/-- The binding of an update. -/
def Update.binding (u : Update) : Binding := if u.viaVdm then .vdm else .smbus

/-- TransferComplete, VerifyComplete and, when the bank is staged, ApplyComplete. -/
def finishTransfer (u : Update) (s : State) : State :=
  let b := u.binding
  let r := stageBank u.comp u.data { s with fw := { s.fw with upd := some { u with st := 2, data := [] } } }
  let s1 := reply b [0x01, 0x80, 0x05, 0x17, byte (if r.1 = 0 then 0 else 1)] (reply b [0x01, 0x80, 0x05, 0x16, 0x00] r.2)
  if r.1 = 0 then reply b [0x01, 0x80, 0x05, 0x18, 0x00, 0x00, 0x00] s1 else s1

/-- What an update may do now that no HOLD bars flash writes: erase, ask for the next block, stage, or activate. -/
def resumeUpdate (s : State) : State :=
  match s.fw.upd with
  | none => s
  | some u =>
    if s.hold then s
    else if u.st = 4 then
      let v := { u with st := 3 }
      requestData u.binding v (eraseBank u.comp { s with fw := { s.fw with upd := some v } })
    else if u.st = 5 then activateWaiting s
    else if u.st = 3 then if u.size ≤ u.data.length then finishTransfer u s else requestData u.binding u s
    else s

/-- UpdateComponent: the inactive bank is erased and the transfer starts. -/
def updateComp (b : Binding) (c size : Nat) (s : State) : State :=
  match updIn s b [2] with
  | none => pldm b 5 0x14 (notNow s) [] s
  | some u =>
    if c < 1 ∨ 3 < c then pldm b 5 0x14 0 ([0x01, 0x06] ++ zeros 6) s
    else if size = 0 ∨ 65536 + imageMax (c - 1) < size then pldm b 5 0x14 0x82 [] s
    else resumeUpdate (pldm b 5 0x14 0 (zeros 8) { s with fw := { s.fw with upd := some { u with st := 4, comp := c - 1, size := size, data := [] } } })

/-- A block arrives and is written; one of a wrong length is asked for again. -/
def fwData (b : Binding) (data : Bytes) (s : State) : State :=
  match updIn s b [3] with
  | none => s
  | some u =>
    if data.length = min u.block (u.size - u.data.length) then
      resumeUpdate { s with fw := { s.fw with upd := some { u with data := u.data ++ data } } }
    else resumeUpdate s

/-- ActivateFirmware: as FW_ACTIVATE for the staged Hatter and service-world banks; it waits for the end of LOCK and of HOLD (R450). -/
def activateFw (b : Binding) (s : State) : State :=
  match updIn s b [2] with
  | none => pldm b 5 0x1A (notNow s) [] s
  | some u =>
    if pldmMask s = 0 then pldm b 5 0x1A 0x85 [] s
    else resumeUpdate (pldm b 5 0x1A 0 (zeros 2) { s with fw := { s.fw with upd := some { u with st := 5 } } })

/-- GetStatus: 0 idle, 1 learning, 2 ready, 3 download, 6 activate. -/
def fwStatus (b : Binding) (s : State) : State :=
  let st := match s.fw.upd with
    | none => 0
    | some u => if u.st = 4 then 3 else if u.st = 5 then 6 else u.st
  pldm b 5 0x1B 0 ([byte st, byte st, 0x00, 0x00, 0x65, 0x00] ++ zeros 4) s

/-- CancelUpdateComponent: back to ready; the partly written bank is invalid. -/
def cancelComp (b : Binding) (s : State) : State :=
  match updIn s b [3, 4] with
  | none => pldm b 5 0x1C (notNow s) [] s
  | some u => let s1 := dropUpdate s
    pldm b 5 0x1C 0 [] { s1 with fw := { s1.fw with upd := some { u with st := 2, size := 0, data := [] } } }

/-- CancelUpdate. -/
def cancelUpd (b : Binding) (s : State) : State :=
  match updIn s b [1, 2, 3, 4, 5] with
  | none => pldm b 5 0x1D (notNow s) [] s
  | some _ => pldm b 5 0x1D 0 (zeros 9) (dropUpdate s)

/-! ## SPDM (R429 to R431) -/

/-- The connection of a binding. -/
def conn (s : State) : Binding → SpdmConn
  | .smbus => s.hatter.spdmSmb
  | .vdm => s.hatter.spdmVdm

/-- Sets the connection of a binding. -/
def setConn (b : Binding) (c : SpdmConn) (s : State) : State :=
  { s with hatter := match b with
    | .smbus => { s.hatter with spdmSmb := c }
    | .vdm => { s.hatter with spdmVdm := c } }

/-- Sends an SPDM message. -/
def spdm (b : Binding) (m : Bytes) (s : State) : State := reply b ([0x05] ++ m) s

/-- The ERROR answer: 1 InvalidRequest, 4 UnexpectedRequest. -/
def spdmError (b : Binding) (code : Nat) (s : State) : State := spdm b [0x12, 0x7F, byte code, 0x00] s

/-- The device identity key (R430). -/
def dik (s : State) : Bytes := beBytes 48 (beNat (kdf (dieRoot0 s) "XZDIK" s.otp.packageId 56) % (curveP384.n - 1) + 1)

/-- A signature of SPDM 1.2 with DIK over a transcript. -/
def dikSign (context : String) (m : Bytes) (s : State) : Bytes × State :=
  let pad := (List.replicate 4 "dmtf-spdm-v1.2.*".toUTF8.toList).flatten.map fun c => byte c.toNat
  let ctx := context.toUTF8.toList.map fun c => byte c.toNat
  let n := crownBytes 1 48 s
  (Config.signOf 2 0 false [] (dik s) (digest384 (pad ++ zeros (36 - ctx.length) ++ ctx ++ digest384 m)) n.1, n.2)

/-- The chain of slot 0; it is written in TEST, so BLANK has none. -/
def chain (s : State) : Bytes := if s.lcs = .blank then [] else Config.certChain s.otp.packageId

/-- GET_VERSION: version 1.2; a new connection. -/
def spdmVersion (b : Binding) (s : State) : State :=
  let m : Bytes := [0x10, 0x04, 0x00, 0x00, 0x00, 0x01, 0x00, 0x12]
  spdm b m (setConn b { st := 1, vca := [0x10, 0x84, 0x00, 0x00] ++ m } s)

/-- GET_CAPABILITIES: CERT, CHAL, MEAS with signature, MEAS_FRESH; CTExponent 15. -/
def spdmCaps (b : Binding) (req : Bytes) (s : State) : State :=
  let c := conn s b
  if c.st ≠ 1 then spdmError b 4 s else
  let m : Bytes := [0x12, 0x61, 0x00, 0x00, 0x00, 0x0F, 0x00, 0x00] ++ leBytes 4 0x36 ++ leBytes 4 4096 ++ leBytes 4 4096
  spdm b m (setConn b { c with st := 2, vca := c.vca ++ req ++ m } s)

/-- NEGOTIATE_ALGORITHMS: ECDSA P-384, SHA-384, DMTF measurements. -/
def spdmAlgs (b : Binding) (req : Bytes) (s : State) : State :=
  let c := conn s b
  if c.st ≠ 2 then spdmError b 4 s
  else if !((field req 8 4).testBit 7 && (field req 12 4).testBit 1) then spdmError b 1 s
  else
    let m : Bytes := [0x12, 0x63, 0x00, 0x00, 36, 0x00, 0x01, 0x00] ++ leBytes 4 4 ++ leBytes 4 0x80 ++ leBytes 4 2 ++ zeros 16
    spdm b m (setConn b { c with st := 3, vca := c.vca ++ req ++ m } s)

/-- GET_DIGESTS: the digest of the slot 0 chain. -/
def spdmDigests (b : Binding) (s : State) : State :=
  let c := conn s b
  if c.st ≠ 3 then spdmError b 4 s else
  let m := if chain s = [] then [0x12, 0x01, 0x00, 0x00] else [0x12, 0x01, 0x00, 0x01] ++ digest384 (chain s)
  spdm b m (setConn b { c with auth := c.auth ++ [0x12, 0x81, 0x00, 0x00] ++ m } s)

/-- GET_CERTIFICATE: a portion of the slot 0 chain. -/
def spdmCert (b : Binding) (slot off len : Nat) (s : State) : State :=
  let c := conn s b
  if c.st ≠ 3 then spdmError b 4 s
  else if slot ≠ 0 ∨ (chain s).length ≤ off then spdmError b 1 s
  else
    let p := slice (chain s) off len
    let m := [0x12, 0x02, 0x00, 0x00] ++ leBytes 2 p.length ++ leBytes 2 ((chain s).length - off - p.length) ++ p
    spdm b m (setConn b { c with auth := c.auth ++ [0x12, 0x82, 0x00, 0x00] ++ leBytes 2 off ++ leBytes 2 len ++ m } s)

/-- CHALLENGE: proof of DIK over the transcript. -/
def spdmChallenge (b : Binding) (slot : Nat) (nonce : Bytes) (s : State) : State :=
  let c := conn s b
  if c.st ≠ 3 then spdmError b 4 s
  else if slot ≠ 0 ∨ chain s = [] then spdmError b 1 s
  else
    let n := crownBytes 1 32 s
    let head := [0x12, 0x03, 0x00, 0x01] ++ digest384 (chain s) ++ n.1 ++ zeros 2
    let g := dikSign "responder-challenge_auth signing" (c.vca ++ c.auth ++ [0x12, 0x83, 0x00, 0x00] ++ fit 32 nonce ++ head) n.2
    spdm b (head ++ g.1) (setConn b { c with auth := [] } g.2)

/-- TMP_STATUS (R402). -/
def tmpStatus (s : State) : Nat :=
  bit s.locked 0 + bit s.lining.lockLatch 1 + bit s.lining.erased 2 + bit (s.tamper.tests != []) 3 + bit (1008 ≤ s.tamper.log.length) 4
    + bit (1024 ≤ s.tamper.log.length) 5 + bit s.tamper.liningLost 6 + bit (s.tamper.alarming.any fun a => a.1 = 6) 7 + s.lining.lockCause * 65536

/-- IMAGE_DIGEST of the bank of a component that runs, or zeros. -/
def runDigest (s : State) (c : Nat) : Bytes :=
  let x := getComp s c
  match x.run with
  | some i => (x.bank i).digest
  | none => zeros 48

/-- Components that run from bank B. -/
def bankMask (s : State) : Nat := ((List.range 3).map fun c => bit ((getComp s c).run = some 1) c).sum

/-- The value of a measurement block (R431). -/
def measured (s : State) (i : Nat) : Nat × Bytes :=
  if i = 1 then (0x00, beBytes 48 (Config.romDigest s.rev).toNat)
  else if i = 2 then (0x01, runDigest s 0)
  else if i = 3 then (0x01, fit 48 s.vault.kw)
  else if i = 4 then (0x01, runDigest s 2)
  else if i = 5 then (0x82, [byte s.lcs.code, byte s.life.enables, byte s.life.granted, byte (dieCount s), byte (liveMask s), byte (tmpStatus s), 0, 0])
  else (0x83, ((List.range 3).map fun c => byte (getComp s c).minSvn) ++ [byte (bankMask s)])

/-- A measurement block. -/
def measBlock (s : State) (i : Nat) : Bytes :=
  let v := measured s i
  [byte i, 0x01] ++ leBytes 2 (v.2.length + 3) ++ [byte v.1] ++ leBytes 2 v.2.length ++ v.2

/-- GET_MEASUREMENTS: index 0 counts the blocks, 0xFF reports all of them. -/
def spdmMeas (b : Binding) (i : Nat) (signed : Bool) (nonce : Bytes) (s : State) : State :=
  let c := conn s b
  if c.st ≠ 3 then spdmError b 4 s
  else if 6 < i ∧ i ≠ 0xFF then spdmError b 1 s
  else
    let idx : List Nat := if i = 0 then [] else if i = 0xFF then span 1 6 else [i]
    let rec_ := idx.flatMap (measBlock s)
    let n := crownBytes 1 32 s
    let req := [0x12, 0xE0, byte (bit signed 0), byte i] ++ (if signed then fit 32 nonce ++ [0x00] else [])
    let head := [0x12, 0x60, byte (if i = 0 then 6 else 0), 0x00, byte idx.length] ++ leBytes 3 rec_.length ++ rec_ ++ n.1 ++ zeros 2
    if signed then
      let g := dikSign "responder-measurements signing" (c.vca ++ c.meas ++ req ++ head) n.2
      spdm b (head ++ g.1) (setConn b { c with meas := [] } g.2)
    else spdm b head (setConn b { c with meas := c.meas ++ req ++ head } n.2)

/-! ## The commands -/

/-- An answer on a binding that the Hatter serves; nothing otherwise. -/
def answer (t : Nat) (b : Binding) (f : State → State) (s : State) : Host.Outcome State Fault Refusal :=
  let s1 := tick t s
  .next (if serves s1 b then f s1 else s1)

/-- SENSOR_SAMPLE (R423). -/
def execSensorSample (t : Nat) (readings : List (Nat × Int)) (s : State) : Host.Outcome State Fault Refusal := .next (sensorSample readings (tick t s))
/-- MCTP_PACKET (R425). -/
def execMctpPacket (t : Nat) (b : Binding) (pkt : Bytes) (pecOk : Bool) (s : State) : Host.Outcome State Fault Refusal :=
  .next (mctpPacket b pkt pecOk (tick t s))
/-- MCTP_ASSEMBLY_TIMEOUT (R425). -/
def execMctpAssemblyTimeout (t : Nat) (b : Binding) (s : State) : Host.Outcome State Fault Refusal := .next (assemblyTimeout b (tick t s))
/-- SMBUS_TIMEOUT (R426). -/
def execSmbusTimeout (t : Nat) (s : State) : Host.Outcome State Fault Refusal := .next (smbusReset (tick t s))
/-- SET_ENDPOINT_ID (R425). -/
def execSetEndpointId (t : Nat) (b : Binding) (op eid : Nat) (s : State) : Host.Outcome State Fault Refusal := answer t b (setEid b op eid) s
/-- GET_ENDPOINT_ID (R425). -/
def execGetEndpointId (t : Nat) (b : Binding) (s : State) : Host.Outcome State Fault Refusal :=
  answer t b (fun s => ctrl b 2 0 [byte (eidOf s b), 0x00, 0x00] s) s
/-- GET_ENDPOINT_UUID (R425). -/
def execGetEndpointUuid (t : Nat) (b : Binding) (s : State) : Host.Outcome State Fault Refusal :=
  answer t b (fun s => ctrl b 3 0 (beBytes 16 (Config.endpointUuid s.otp.packageId).toNat) s) s
/-- GET_MCTP_VERSION_SUPPORT (R425). -/
def execGetMctpVersionSupport (t : Nat) (b : Binding) (msgType : Nat) (s : State) : Host.Outcome State Fault Refusal := answer t b (mctpVersion b msgType) s
/-- GET_MESSAGE_TYPE_SUPPORT (R425). -/
def execGetMessageTypeSupport (t : Nat) (b : Binding) (s : State) : Host.Outcome State Fault Refusal := answer t b (ctrl b 5 0 [0x02, 0x01, 0x05]) s
/-- GET_TID (R427). -/
def execGetTid (t : Nat) (b : Binding) (s : State) : Host.Outcome State Fault Refusal := answer t b (fun s => pldm b 0 2 0 [byte s.hatter.tid] s) s
/-- SET_TID (R427). -/
def execSetTid (t : Nat) (b : Binding) (tid : Nat) (s : State) : Host.Outcome State Fault Refusal :=
  answer t b (fun s => if tid = 0 ∨ 254 < tid then pldm b 0 1 2 [] s else pldm b 0 1 0 [] { s with hatter := { s.hatter with tid := tid } }) s
/-- GET_PLDM_VERSION (R427). -/
def execGetPldmVersion (t : Nat) (b : Binding) (pldmType : Nat) (s : State) : Host.Outcome State Fault Refusal := answer t b (getPldmVersionR b pldmType) s
/-- GET_PLDM_TYPES (R427). -/
def execGetPldmTypes (t : Nat) (b : Binding) (s : State) : Host.Outcome State Fault Refusal := answer t b (pldm b 0 4 0 (0x25 :: zeros 7)) s
/-- GET_PLDM_COMMANDS (R427). -/
def execGetPldmCommands (t : Nat) (b : Binding) (pldmType : Nat) (s : State) : Host.Outcome State Fault Refusal := answer t b (getPldmCommandsR b pldmType) s
/-- GET_PDR_REPOSITORY_INFO (R427). -/
def execGetPdrRepositoryInfo (t : Nat) (b : Binding) (s : State) : Host.Outcome State Fault Refusal := answer t b (pdrInfo b) s
/-- GET_PDR (R427). -/
def execGetPdr (t : Nat) (b : Binding) (record : Nat) (s : State) : Host.Outcome State Fault Refusal := answer t b (getPdrR b record) s
/-- GET_SENSOR_READING (R427). -/
def execGetSensorReading (t : Nat) (b : Binding) (sensor : Nat) (s : State) : Host.Outcome State Fault Refusal := answer t b (sensorReading b sensor) s
/-- GET_STATE_SENSOR_READINGS (R427). -/
def execGetStateSensorReadings (t : Nat) (b : Binding) (sensor : Nat) (s : State) : Host.Outcome State Fault Refusal := answer t b (stateReading b sensor) s
/-- SET_EVENT_RECEIVER (R427). -/
def execSetEventReceiver (t : Nat) (b : Binding) (enable eid : Nat) (s : State) : Host.Outcome State Fault Refusal := answer t b (setReceiver b enable eid) s
/-- POLL_FOR_PLATFORM_EVENT_MESSAGE (R427). -/
def execPollForPlatformEventMessage (t : Nat) (b : Binding) (s : State) : Host.Outcome State Fault Refusal := answer t b (pollEvent b) s
/-- QUERY_DEVICE_IDENTIFIERS (R428). -/
def execQueryDeviceIdentifiers (t : Nat) (b : Binding) (s : State) : Host.Outcome State Fault Refusal := answer t b (deviceIds b) s
/-- GET_FIRMWARE_PARAMETERS (R428). -/
def execGetFirmwareParameters (t : Nat) (b : Binding) (s : State) : Host.Outcome State Fault Refusal := answer t b (fwParams b) s
/-- REQUEST_UPDATE (R428). -/
def execRequestUpdate (t : Nat) (b : Binding) (maxTransfer : Nat) (s : State) : Host.Outcome State Fault Refusal := answer t b (requestUpdateR b maxTransfer) s
/-- PASS_COMPONENT_TABLE (R428). -/
def execPassComponentTable (t : Nat) (b : Binding) (component svn : Nat) (s : State) : Host.Outcome State Fault Refusal := answer t b (passTable b component svn) s
/-- UPDATE_COMPONENT (R435). -/
def execUpdateComponent (t : Nat) (b : Binding) (component size : Nat) (s : State) : Host.Outcome State Fault Refusal := answer t b (updateComp b component size) s
/-- FIRMWARE_DATA_RECEIVED (R435). -/
def execFirmwareDataReceived (t : Nat) (b : Binding) (data : Bytes) (s : State) : Host.Outcome State Fault Refusal := answer t b (fwData b data) s
/-- ACTIVATE_FIRMWARE (R437). -/
def execActivateFirmware (t : Nat) (b : Binding) (s : State) : Host.Outcome State Fault Refusal := answer t b (activateFw b) s
/-- GET_STATUS (R428). -/
def execGetStatus (t : Nat) (b : Binding) (s : State) : Host.Outcome State Fault Refusal := answer t b (fwStatus b) s
/-- CANCEL_UPDATE_COMPONENT (R428). -/
def execCancelUpdateComponent (t : Nat) (b : Binding) (s : State) : Host.Outcome State Fault Refusal := answer t b (cancelComp b) s
/-- CANCEL_UPDATE (R428). -/
def execCancelUpdate (t : Nat) (b : Binding) (s : State) : Host.Outcome State Fault Refusal := answer t b (cancelUpd b) s
/-- GET_VERSION (R429). -/
def execGetVersion (t : Nat) (b : Binding) (s : State) : Host.Outcome State Fault Refusal := answer t b (spdmVersion b) s
/-- GET_CAPABILITIES (R429). -/
def execGetCapabilities (t : Nat) (b : Binding) (req : Bytes) (s : State) : Host.Outcome State Fault Refusal := answer t b (spdmCaps b req) s
/-- NEGOTIATE_ALGORITHMS (R429). -/
def execNegotiateAlgorithms (t : Nat) (b : Binding) (req : Bytes) (s : State) : Host.Outcome State Fault Refusal := answer t b (spdmAlgs b req) s
/-- GET_DIGESTS (R429). -/
def execGetDigests (t : Nat) (b : Binding) (s : State) : Host.Outcome State Fault Refusal := answer t b (spdmDigests b) s
/-- GET_CERTIFICATE (R430). -/
def execGetCertificate (t : Nat) (b : Binding) (slot offset length : Nat) (s : State) : Host.Outcome State Fault Refusal := answer t b (spdmCert b slot offset length) s
/-- CHALLENGE (R429). -/
def execChallenge (t : Nat) (b : Binding) (slot : Nat) (nonce : Bytes) (s : State) : Host.Outcome State Fault Refusal := answer t b (spdmChallenge b slot nonce) s
/-- GET_MEASUREMENTS (R431). -/
def execGetMeasurements (t : Nat) (b : Binding) (index : Nat) (signed : Bool) (nonce : Bytes) (s : State) : Host.Outcome State Fault Refusal :=
  answer t b (spdmMeas b index signed nonce) s

end Sys2Proof.Machine
end

