-- ==== Sys2Proof/Machine/Power.lean ====
section
/-! DEFINITION. HOLD, image writes, RETAIN, idle dies, anti-imprinting and what a package reset keeps (R299, R456 to R469). -/

namespace Sys2Proof.Machine

/-! ## Image writes (R217, R299) -/

/-- Jobs in a phase that waits. -/
def waiting (s : State) (why : Nat) : List Nat := (s.jobs.filter fun j => j.2.phase = .wait why).map (·.1)

/-- Runs a continuation on every job that waits for one thing, while it still does. -/
def resumeAll (why : Nat) (f : Nat → State → State) (s : State) : State :=
  (waiting s why).foldl (fun s j => if (getJob s j).phase = .wait why then f j s else s) s

/-- The end of an image write ends a command of the key or service world that waited for it. While the ledgers are quiesced no pending entry of a
draw is written: its acceptance waits (R218, R254; log entry 75). -/
def imageWaiters (s : State) : State :=
  let s1 := resumeAll 20 keyAccept (if s.quiesced then s else resumeAll 14 commitReady s)
  let s2 := resumeAll 22 (fun j s => okJob j [] [] (consume [0] s)) (resumeAll 21 (fun j s => okJob j [] [] s) s1)
  resumeAll 25 (fun j s => finishJob j stRetry 0 [] [] s) (resumeAll 42 unlockWritten (resumeAll 24 (fun j s => okJob j [] [] (consume [0, 1] s)) s2))

/-- A checkpoint that was being written is complete: LDG_QUIESCE commands that waited for it complete (R217, R218). -/
def ckptDone (s : State) : State :=
  match s.ckptReq with
  | none => s
  | some c =>
    let s1 := { s with ckptReq := none, ckptAt := s.time.now, ckptOverdue := false, ckptDirty := if c.clean then s.ckptDirty else false }
    resumeAll 4 (fun j s => okJob j [] [] s) (if c.clean then resumeAll 3 (fun j s => okJob j [] [] s) s1 else s1)

/-- An image write ends (R299). Nothing is written while HOLD bars flash writes, without LK, or in BLANK and TEST (R505). -/
def imageDone (s : State) : State :=
  if s.hold ∨ s.lining.lk.isNone ∨ imageless s ∧ s.life.trans.isNone then s
  else if s.life.trans.isSome then transitionWritten s
  else settleAll (ckptDone (writeCarry (writeImage (imageWaiters s))))

/-- PSN_BASE has been written on (R161). -/
def psnImage (s : State) : State := if s.hold ∨ !s.psnWriting then s else settleAll (writeCarry (writeImage (psnWritten s)))

/-- HOLD has barred the write of a command for 1 s: FAULT_RETRY with INFO 0x01, and nothing is staged (R246, R299, R370). -/
def flashTimeout (job : Nat) (s : State) : State :=
  match mget s.jobs job with
  | none => s
  | some x =>
    let w := match x.phase with
      | .wait n => n
      | _ => 0
    if s.hold ∧ [3, 4, 14, 20, 24, 25, 30, 42, 44, 45].contains w ∧ max x.waitT s.pwr.holdAt + 1000000000 ≤ s.time.now then
      let s1 := if w = 14 then { s with draws := s.draws.filter fun d => some d.id ≠ x.draw.map (·.id) } else s
      finishJob job stRetry 1 [] [] s1
    else s

/-! ## HOLD (R456 to R459) -/

/-- The rail is a core supply and the die monitors it: VCORE and VSRAM everywhere, the PHY rails on the Crown. -/
def coreRail (s : State) (rail die : Nat) : Bool := (rail < 2 && (getDie s die).live) || ((rail = 2 || rail = 3) && die = 0)

/-- A core supply is below its warning threshold: the package is in HOLD. -/
def supplyWarning (rail die mv : Nat) (s : State) : State :=
  if s.pwr.off ∨ !coreRail s rail die then s
  else if s.hold then
    { s with pwr := { s.pwr with rails := if s.pwr.rails.contains (rail, die) then s.pwr.rails else s.pwr.rails ++ [(rail, die)], lowest := min s.pwr.lowest mv } }
  else
    urgentAll 4 1 (recEventAt die 0 0x0A01 ([byte rail, byte die] ++ zeros 6) { s with
      hold := true
      pwr := { s.pwr with rails := [(rail, die)], holdRail := rail, holdDie := die, holdAt := s.time.now, lowest := mv, holds := satAdd s.pwr.holds 1 0xFFFF } })

/-- HOLD ends: engines resume and barred writes start. -/
def endHold (s : State) : State :=
  let us := (s.time.now - s.pwr.holdAt) / 1000
  let s1 := recEventAt s.pwr.holdDie 0 0x0A02 ([byte s.pwr.holdRail, byte s.pwr.holdDie] ++ leBytes 2 s.pwr.lowest ++ leBytes 4 (min us 0xFFFFFFFF))
    (urgentAll 4 0 { s with hold := false, pwr := { s.pwr with longest := min (max s.pwr.longest us) 0xFFFF } })
  let s2 := restartEngines s1
  settleAll (resumeUpdate (resumeAll 45 packageInitGo (resumeAll 44 fwActivateDone (nextLife s2))))

/-- A rail has recovered; HOLD ends with the last one. -/
def supplyRecovery (rail die : Nat) (s : State) : State :=
  let rest := s.pwr.rails.filter (· ≠ (rail, die))
  if !s.hold ∨ !s.pwr.rails.contains (rail, die) then s
  else if rest = [] then endHold { s with pwr := { s.pwr with rails := [] } }
  else { s with pwr := { s.pwr with rails := rest } }

/-! ## Package reset (R467, R468) -/

/-- The lining domain through a package reset: the cause, the count, and latches of RECORD-class alarms cleared (R382). -/
def liningReset (cause : Nat) (l : Lining) : Lining :=
  { l with cause := cause, resets := satAdd l.resets 1 0xFFFF, latches := l.latches.filter fun x => 2 ≤ x.2.2 }

/-- A component through a package reset: it does not run until it is measured again, and its banks are kept. -/
def compReset (c : FwComp) : FwComp := { c with run := none }

/-- A package reset: what R468 keeps, and everything else as State.reset has it. -/
def packageReset (cause : Nat) (s0 : State) : State :=
  let s := dropUpdate s0
  let n := dieCount s
  { State.reset with
    part := s.part, grade := s.grade, rev := s.rev, time := { now := s.time.now }
    otp := s.otp, lining := liningReset cause s.lining, images := s.images
    tamper := { log := s.tamper.log, carry := s.tamper.carry }
    fw := { comps := s.fw.comps.map compReset }
    evFlash := s.evFlash, evNext := s.evNext
    pwr := { off := s.pwr.off, perst := s.pwr.perst, supply := s.pwr.supply }
    lcs := decodeLcs s.otp.words
    dies := diesReset n
    free := s.free, out := s.out, pending := s.pending }

/-! ## RETAIN (R462 to R464) -/

/-- Every queue other than the submitting one is DISABLED or STOPPED with IDLE = 1. -/
def queuesQuiet (s : State) (x : Job) : Bool :=
  s.fns.all fun f => f.2.queues.all fun q =>
    (f.1 = x.fn && q.1 = x.ring) || q.2.st = .absent || (q.2.st != .running && idle s ⟨f.1, q.1⟩)

/-- Pending scheduled draws. -/
def pendingDraws (s : State) : List Draw := s.draws.filter fun d => d.sched && d.st ≤ 1

/-- Some world of some die is restarting. -/
def restarting (s : State) : Bool := s.dies.any fun d => d.mandrel.kw.st = 1 || d.mandrel.sw.st = 1

/-- The checks of R462. -/
def retainOwn (s : State) (x : Job) : List Fail :=
  failIf (!s.quiesced) stInput 0x7A ++ failIf (!queuesQuiet s x) stInput 0x7B
    ++ failIf (s.fence != [] || s.vault.sessions.any (·.st ≠ 0) || s.ports.any (·.inExchange)) stInput 0x7C
    ++ failIf (s.hold || restarting s || s.fw.upd.isSome) stInput 0x7D
    ++ failIf ((pendingDraws s).any fun d => boundaryAt s d.target < s.time.now + 2000000000) stInput 0x7E

/-- PWR_RETAIN completes, and the submitting queue is disabled. -/
def retainGo (id : Nat) (s : State) : State :=
  let x := getJob s id
  disableRing ⟨x.fn, x.ring⟩ { okJob id [] [] s with pwrState := 1 }

/-- PWR_RETAIN (R462). -/
def pwrRetainSem : OpSem where
  pfOnly := pfOnly
  resv d := reservedBad d (span 4 63)
  fenced := anyFn
  keyed := anyFn
  src := false
  len _ _ := []
  own := retainOwn
  go := retainGo
  fin _ s := s

/-- DRBG states are lost (R463). -/
def loseDrbgs (d : Die) : Die := { d.wipeDrbgs with rngReinst := false }

/-- The package is in RETAIN; HOLD delays the entry (R472). -/
def retainEntry (s : State) : State :=
  if s.pwrState ≠ 1 ∨ s.hold then s else
  recEvent 0x0A05 (leBytes 6 s.time.epoch ++ zeros 2)
    { s with pwrState := 2, pwr := { s.pwr with retainAt := s.time.now }, dies := s.dies.map loseDrbgs }

/-- 1 s before the boundary of the earliest scheduled draw target (R464). -/
def drawWake (s : State) : State :=
  if (pendingDraws s).any fun d => boundaryAt s d.target ≤ s.time.now + 1000000000 then wakeUp 1 s else s

/-! ## Function resets from the link (R114, R464, R467) -/

/-- A Hot Reset resets the configuration space of every function, then acts as the PF FLR. -/
def hotReset (s : State) : State :=
  flr 0 { s with fns := mmap (fun _ f => { f with bme := false, d3hot := false, msix := {} }) s.fns }

/-- An FLR, or a Hot Reset (code 0x10000): in RETAIN it wakes the package and is applied after the wake. A PF FLR after the link has trained again
also ends the stall of the journal store (R119, R221). -/
def linkReset (code : Nat) (s : State) : State :=
  if s.pwrState = 2 ∨ s.pwrState = 3 then wakeUp 2 { s with pwr := { s.pwr with flrs := s.pwr.flrs ++ [code] } }
  else if code = 0x10000 then hotReset s
  else if code = 0 then storeRecovers (flr 0 s) else flr code s

/-! ## Idle dies and anti-imprinting (R461, R465, R466) -/

/-- A die enters IDLE: its internal rings are empty, its engines idle, and the delay is not 0. -/
def dieIdle (die : Nat) (s : State) : State :=
  let d := getDie s die
  if !d.live ∨ d.idle ∨ s.pwr.idleUs = 0 ∨ d.ringP ≠ [] ∨ d.ringG ≠ [] ∨ d.macQ ≠ [] ∨ d.rq ≠ []
    ∨ d.cores.any (·.job.isSome) ∨ d.lanes.any (·.job.isSome) ∨ d.hashers.any (·.job.isSome) then s
  else gatingRequest die 2 true (gatingRequest die 1 true (gatingRequest die 0 true (modDie die (fun d => { d with idle := true }) s)))

/-- An anti-imprinting pass starts, or ends with the polarity turned. -/
def imprintPass (die : Nat) (starting overran : Bool) (s : State) : State :=
  if s.dies.length ≤ die ∨ s.pwr.off ∨ s.startStep < 4 then s else
  let s1 := modDie die (fun d => if starting then { d with passing := true }
    else if d.passing then { d with passing := false, inverted := !d.inverted, passes := satAdd d.passes 1 0xFFFF } else d) s
  if overran then recEventAt die 0 0x0A07 (byte die :: zeros 7) s1 else s1

/-- LK is rewritten inverted, on lining alone (R465). -/
def lkInvert (s : State) : State :=
  if s.pwr.off ∧ s.lining.up ∧ s.lining.lk.isSome then { s with lining := { s.lining with lkInv := !s.lining.lkInv } } else s

/-! ## PWR_RESET (R469) -/

/-- PWR_RESET: the reset begins 1 ms after the completion. -/
def pwrResetSem : OpSem where
  pfOnly := pfOnly
  resv d := reservedBad d (span 4 31 ++ (if d.f 32 1 < 2 then [] else [32]) ++ span 33 63)
  fenced := anyFn
  keyed := anyFn
  src := false
  len _ _ := []
  own s x := failIf (x.d.f 32 1 = 0 && !s.quiesced) stInput 0x7A
  go id s := okJob id [] [] { s with pwr := { s.pwr with resetAt := some (s.time.now + 1000000) } }
  fin _ s := s

/-! ## The commands -/

/-- IMAGE_WRITE_DONE (R299). -/
def execImageWriteDone (t : Nat) (s : State) : Host.Outcome State Fault Refusal := .next (imageDone (tick t s))
/-- PSN_RESERVATION_WRITTEN (R161). -/
def execPsnReservationWritten (t : Nat) (s : State) : Host.Outcome State Fault Refusal := .next (psnImage (tick t s))
/-- FLASH_WAIT_TIMEOUT (R299). -/
def execFlashWaitTimeout (t job : Nat) (s : State) : Host.Outcome State Fault Refusal := .next (flashTimeout job (tick t s))
/-- SUPPLY_WARNING (R457). -/
def execSupplyWarning (t rail die mv : Nat) (s : State) : Host.Outcome State Fault Refusal := .next (supplyWarning rail die mv (tick t s))
/-- RETAIN_ENTRY (R462). -/
def execRetainEntry (t : Nat) (s : State) : Host.Outcome State Fault Refusal := .next (retainEntry (tick t s))
/-- RETAIN_DRAW_WAKE (R464). -/
def execRetainDrawWake (t : Nat) (s : State) : Host.Outcome State Fault Refusal := .next (drawWake (tick t s))
/-- PWR_WAKE (R464). -/
def execPwrWake (t value : Nat) (s : State) : Host.Outcome State Fault Refusal := .next (if value.testBit 0 then wakeUp 0 (tick t s) else tick t s)
/-- FLR (R114). -/
def execFlr (t fn : Nat) (s : State) : Host.Outcome State Fault Refusal := .next (linkReset fn (tick t s))
/-- HOT_RESET (R467). -/
def execHotReset (t : Nat) (s : State) : Host.Outcome State Fault Refusal := .next (linkReset 0x10000 (tick t s))
/-- DIE_IDLE_ENTRY (R461). -/
def execDieIdleEntry (t die : Nat) (s : State) : Host.Outcome State Fault Refusal := .next (dieIdle die (tick t s))
/-- IMPRINT_PASS (R466). -/
def execImprintPass (t die : Nat) (starting overran : Bool) (s : State) : Host.Outcome State Fault Refusal := .next (imprintPass die starting overran (tick t s))
/-- LK_INVERT (R465). -/
def execLkInvert (t : Nat) (s : State) : Host.Outcome State Fault Refusal := .next (lkInvert (tick t s))

end Sys2Proof.Machine
end

