-- ==== Sys2Proof/Machine/Startup.lean ====
section
/-! DEFINITION. The reset sources and start-up: steps 3 to 9, the key-store restore, and the wake from RETAIN (R229, R301, R351, R361,
R363, R389, R390, R434, R438, R459, R464, R467 to R472). -/

namespace Sys2Proof.Machine

/-! ## Step 4: the Crown ROM (R351, R361, R363, R389, R392) -/

/-- Enables, unlock and epoch values at step 4 (R72, R348, R363). -/
def bootLife (s : State) : State :=
  let unlock := s.lcs = .ret && s.lining.unlockPending
  { s with
    life := { s.life with unlocked := unlock, enables := if imageless s || unlock then 15 else 0 }
    lining := if s.lcs = .ret then { s.lining with unlockPending := false } else s.lining
    ecfg := if s.otp.marker then { k := s.otp.k, origin := s.otp.origin, falling := s.otp.falling, fromOtp := true } else s.ecfg }

/-- The records of what happened before the ROM read the lining counter (R396, R455, R459, R468). -/
def bootRecords (s : State) : State :=
  let s1 := match s.pwr.supply with
    | some (rail, die) => recEventAt die 0 0x0A03 ([byte rail, byte die, 0] ++ zeros 5) { s with pwr := { s.pwr with supply := none } }
    | none => s
  let s2 := recEvent 0x0A04 (byte s1.lining.cause :: zeros 7) s1
  if s2.lining.xtalNote then recEvent 0x0A09 (zeros 8) { s2 with lining := { s2.lining with xtalNote := false } } else s2

/-- LINING_LOSS is noted at the start-up that follows (R381, R453). -/
def bootLining (s : State) : State :=
  if s.lining.fresh then
    internalEvent 0x20 0 0 0 { s with lining := { s.lining with fresh := false }, tamper := { s.tamper with liningLost := true } }
  else s

/-- The ROM completes what a cut-off transition has left: W_d in RETURN, the OTP fill in SCRAP (R359, R361). -/
def bootOtp (s : State) : State :=
  let dies := List.range (dieCount s)
  if s.lcs = .ret then { s with otp := dies.foldl (fun o d => programOtp o (.wipeW d)) s.otp }
  else if s.lcs = .scrap then { s with otp := dies.foldl (fun o d => programOtp o (.fill d)) s.otp }
  else s

/-- Release of PERST#: the Crown leaves reset and its ROM runs; in SCRAP it stops after the OTP check. -/
def beginStartup (s : State) : State :=
  if s.startStep ≠ 3 ∨ s.pwr.off ∨ s.pwr.rails ≠ [] then s else
  let s1 := bootOtp { s with lcs := decodeLcs s.otp.words, startStep := 4 }
  if s1.lcs = .scrap then s1 else
  let s2 := copyAll (bootLining (bootRecords (bootLife s1)))
  { s2 with tamper := { s2.tamper with tests := instancesOf s2 none 0 0 } }

/-- A reset that finds PERST# high starts up at once. -/
def resetNow (cause : Nat) (s : State) : State :=
  let s1 := packageReset cause s
  if s1.pwr.perst then s1 else beginStartup s1

/-! ## Reset sources (R459, R467) -/

/-- The generators of every shield are seeded from 64 raw bits of bow 0 (R373). -/
def seedShields (s : State) : State :=
  (List.range s.dies.length).foldl (fun s d => let b := freeBytes 8 s; modDie d (fun x => { x with shield := b.1 }) b.2) s

/-- The internal power-on reset is released; PERST# is held by the board until R470's t0. -/
def powerOn (s : State) : State :=
  if s.pwr.off then seedShields (packageReset 0 { s with pwr := { s.pwr with off := false, perst := true } }) else s

/-- PERST# low for at least 1 µs. -/
def perstAssert (width : Nat) (s : State) : State :=
  if width < 1000 ∨ s.pwr.off ∨ s.pwr.perst then s
  else packageReset 1 { s with pwr := { s.pwr with perst := true } }

/-- PERST# rises. -/
def perstRelease (s : State) : State := beginStartup { s with pwr := { s.pwr with perst := false } }

/-- A supply falls below its reset threshold: a package reset on the Crown's rails and VIO, a die reset on a brim die's. -/
def supplyReset (rail die : Nat) (s : State) : State :=
  if s.pwr.off ∨ 4 < rail then s
  else if die ≠ 0 then
    (if (getDie s die).live ∧ rail < 2 then fenceDie die 0 (recEventAt die 0 0x0A03 ([byte rail, byte die, 1] ++ zeros 5) s) else s)
  else
    let s1 := packageReset 2 { s with pwr := { s.pwr with supply := some (rail, die) } }
    if rail = 4 then { s1 with pwr := { s1.pwr with off := true }, lining := { s1.lining with aloneLatches := [] } } else { s1 with pwr := { s1.pwr with rails := [(rail, die)] } }

/-- A rail recovers: HOLD ends with the last one, and a package that it held in reset may start up. -/
def supplyBack (rail die : Nat) (s : State) : State :=
  if s.hold then supplyRecovery rail die s
  else if s.startStep = 3 ∧ s.pwr.rails.contains (rail, die) then
    let s1 := { s with pwr := { s.pwr with rails := s.pwr.rails.filter (· ≠ (rail, die)) } }
    if s1.pwr.perst then s1 else beginStartup s1
  else s

/-- The reset that PWR_RESET asked for, 1 ms after its completion. -/
def resetDue (s : State) : State :=
  match s.pwr.resetAt with
  | some t => if t ≤ s.time.now then resetNow 3 s else s
  | none => s

/-- The Crown hypervisor has not serviced its watchdog for 100 ms. -/
def hypervisorDead (s : State) : State :=
  if 6 ≤ s.startStep ∧ s.pwrState = 0 ∧ !s.pwr.off ∧ s.lcs ≠ .scrap ∧ s.lcs ≠ .invalid then resetNow 4 s else s

/-! ## Step 5: measurement (R404, R406, R414, R434) -/

/-- The bank that the flash directory names, after a pending activation has taken effect. -/
def applyActivation (x : FwComp) : FwComp :=
  match (if x.pending then x.staged else none) with
  | some i => { x.setBank i { x.bank i with st := 5 } with active := i, pending := false }
  | none => { x with pending := false }

/-- The ROM chooses the bank of a component: the active one, or the committed one that is left. -/
def bootBank (c : Nat) (s : State) : State :=
  let x := applyActivation (getComp s c)
  let s1 := modComp c (fun _ => x) s
  let o := x.spare
  let b := x.bank o
  if bankReason s1 c (x.bank x.active) = 0 then modComp c (fun y => { y with run := some y.active }) s1
  else if (b.st = 1 ∨ b.st = 4) ∧ bankReason s1 c b = 0 then
    let y := { x.setBank x.active { x.bank x.active with st := 3 } with active := o, run := some o }
    recEvent 0x0C03 ([byte (c + 1), byte o] ++ zeros 6) (modComp c (fun _ => y) { s1 with fw := { s1.fw with fallback := true } })
  else s1

/-- The instruction at the entry point is GATE_LAND (R406). -/
def gateLands (l : List Nat) : Bool := decide (l.getD 6 0 = 1)

/-- A gate entry as the manifest states it, invalid where its entry point does not land. -/
def gateOf (l : List Nat) : GateEntry :=
  ⟨l.getD 0 0, l.getD 1 0, l.getD 2 0, l.getD 3 0, if gateLands l then l.getD 4 0 else l.getD 4 0 / 2 * 2, l.getD 5 0⟩

/-- Every entry of a gate table that is marked invalid at boot is recorded (R406; its code DESIGN CHOICE, log entry 85). -/
def gateEvents (die w : Nat) (table : List (List Nat)) (s : State) : State :=
  (List.range (min table.length 64)).foldl (fun s i =>
    let l := table.getD i []
    if (l.getD 4 0).testBit 0 && !gateLands l then recEventAt die 0 0x0D00 ([byte w, byte i] ++ zeros 6) s else s) s

/-- A region descriptor as the ROM loads it. -/
def regionFrom (l : List Nat) : Region :=
  ⟨l.getD 0 0, l.getD 1 0, l.getD 2 0, l.getD 3 0, l.getD 4 0, l.getD 5 0, l.getD 6 0, decide (l.getD 7 0 = 1)⟩

/-- The image of a component that runs, if it does. -/
def runImage (s : State) (c : Nat) : Option Bytes := let x := getComp s c; x.run.map fun i => (x.bank i).image

/-- The world that an image gives: running, or stopped where the image is missing. -/
def bootWorld (o : Option Bytes) : World := if o.isNone then { st := 2 } else {}

/-- A Mandrel core as the boot leaves it: at most 64 gate entries and 32 descriptors a unit. -/
def bootMandrel (s : State) (m : Mandrel) : Mandrel :=
  let k := runImage s 1
  let v := runImage s 2
  { m with
    kw := bootWorld k, sw := bootWorld v
    gatesK := ((k.map (Config.gateTable 1)).getD []).map gateOf |>.take 64
    gatesS := ((v.map (Config.gateTable 2)).getD []).map gateOf |>.take 64
    regions := (List.range 11).map fun u => ((Config.regionTable u s.rev).map regionFrom).take 32 }

/-- Step 5: images read and measured; LOCK while LOCK_LATCH is set (R378, R389). INVALID goes no further (R360). -/
def measurement (s : State) : State :=
  if s.startStep ≠ 5 ∨ s.lcs = .invalid then s else
  let s1 := bootBank 2 (bootBank 1 (bootBank 0 s))
  let s2 := { s1 with
    startStep := 6
    vault := { s1.vault with kw := if (getComp s1 1).run.isSome then runDigest s1 1 else [] }
    dies := s1.dies.map fun (d : Die) => { d with mandrel := bootMandrel s1 d.mandrel } }
  let table (w : Nat) := ((runImage s1 w).map (Config.gateTable w)).getD []
  let s3 := (List.range s2.dies.length).foldl (fun s d => gateEvents d 2 (table 2) (gateEvents d 1 (table 1) s)) s2
  if s3.lining.lockLatch then raiseFnEvent 3 { s3 with locked := true } else s3

/-! ## Steps 6 and 7 (R39, R48, R392) -/

/-- Step 6: the dies come into service (R22); those whose ports have not trained are fenced with cause 6. The draw instances of tenant 0's default grant are assigned to
the live dies (R100, R239). -/
def bandBringup (trained : List Nat) (s : State) : State :=
  if s.startStep ≠ 6 then s else
  let s1 := { s with startStep := 7, dies := s.dies.map fun (d : Die) => { d with live := true, epoch := s.time.epoch } }
  assignDrbgs 0 (getTenant s 0).g.drbgs (((List.range s1.dies.length).filter fun d => d ≠ 0 && !trained.contains d).foldl (fun s d => fenceDie d 6 s) s1)

/-- Step 7: the brim dies run their monitor tests, receive their images and start. -/
def brimBoot (s : State) : State :=
  if s.startStep ≠ 7 ∨ s.pwr.booting then s else
  endTests { s with
    pwr := { s.pwr with booting := true }
    tamper := { s.tamper with tests := ((liveDies s).filter (· ≠ 0)).flatMap fun d => instancesOf s none 0 d } }

/-! ## Step 8: the key-store restore (R161, R219, R253, R299, R301, R390, R438) -/

/-- A slot as the image gives it: a derived key again from the tenant root, a stored one from its blob; none where the blob fails to
unwrap. `same` says that the first blob set was made under the present MN, `alt` the second (R291, R300). -/
def restoreSlot (s : State) (same alt : Bool) (k : KeySlot) : Option KeySlot :=
  let blk := blockOf s k.tenant k.alg
  if k.st ≠ 2 ∨ k.flags.testBit 1 then some k
  else if k.origin = 1 ∧ !k.flags.testBit 2 then
    (if alt then some { k with flags := k.flags ||| 4 }
     else if s.vault.pr.isNone then some { k with mat := [] }
     else some (withMaterial k blk (deriveMat s k blk)))
  else if same || alt then some k
  else none

/-- The slots of the image, those whose blobs fail cleared. -/
def restoreSlots (s : State) (same alt : Bool) (m : KMap KeySlot) : KMap KeySlot :=
  m.map fun k => (k.1, (restoreSlot s same alt k.2).getD (clearedSlot k.2))

/-- Slots whose blob fails. -/
def lostSlots (s : State) (same alt : Bool) (m : KMap KeySlot) : List Nat :=
  (m.filter fun k => (restoreSlot s same alt k.2).isNone).map (·.1)

/-- A pending change of the image is staged again with its TARGET as submitted; no job waits for it. -/
def restorePend (s : State) (same alt : Bool) (c : Change) : List (Nat × Change) :=
  match c with
  | .key n k t => match restoreSlot s same alt k with
    | some k1 => [(t, .key n k1 t)]
    | none => []
  | .authority i a k t => [(t, .authority i a k t)]
  | .retire n t => [(t, .retire n t)]
  | _ => []

/-- JOB_ID that stands for no job. -/
def noJob : Nat := 18446744073709551616

/-- A ledger from its checkpoint row: as stored after a CLEAN checkpoint, else with its gap prepared (R219). -/
def restoreLedger (clean crown : Bool) (l : Ledger) (r : CkptRow) : Ledger :=
  let n := if clean then r.nextSeq else r.nextSeq + 4294967296
  { l with
    nextSeq := n, chain := r.chain, prevEpoch := r.epoch, lastSeq := r.lastSeq, sChain := r.chain, sEpoch := r.epoch, sSeq := r.lastSeq
    disc := if clean then none else some (r.lastSeq + 1, n - 1, if crown then 1 else 2) }

/-- The configuration of a ledger from the image. -/
def configLedger (i : Image) (t : Nat) : Ledger :=
  match mget i.config t with
  | some (k, b, d) => { key := k, batch := b, deadline := d }
  | none => {}

/-- The ledgers that an image restores: those with a checkpoint row, and those with a configuration only. -/
def restoreLedgers (i : Image) (crown : Bool) : KMap Ledger :=
  let base : KMap Ledger := (i.config.filter (·.1 ≠ 0xFFFF)).map fun c => (c.1, configLedger i c.1)
  match i.ckpt with
  | none => base
  | some c => c.rows.foldl (fun m r => mset m r.tenant (restoreLedger c.clean crown (configLedger i r.tenant) r)) base

/-- The package ledger that an image restores. -/
def restorePkg (i : Image) : Ledger :=
  match i.ckpt with
  | none => configLedger i 0xFFFF
  | some c => restoreLedger true false (configLedger i 0xFFFF) c.pkg

/-- A draw that survives: pending, where no result or void leaf of it has been appended, or resolved with its outcome lost (R252, R253, R257). After
a checkpoint that is not CLEAN the commitment of a pending one is to be stated again (R254). -/
def restoreDraw (clean : Bool) (d : Draw) : Draw :=
  let e := { d with due := none, leaf := none, waitT := none, signing := false, imaged := true }
  if d.st ≤ 1 ∨ d.leaf.isSome then { e.undo with void := 0, late := false, committed := clean, restate := !clean }
  else { e with st := 5, outcome := [], record := [] }

/-- What the image holds goes back into force. -/
def restoreImage (i : Image) (s0 : State) : State :=
  let s := { s0 with
    lining := { s0.lining with imgCount := i.ver }
    tenants := i.salts.foldl (fun m x => mset m x.1 { (mget m x.1).getD {} with salt := some x.2 }) s0.tenants
    dies := s0.dies.map fun (d : Die) => if d.live then { d with bank := { d.bank with curves := i.curves } } else d }
  let same := decide (i.mn = mn s ∧ i.mn.isSome)
  let alt := !same && decide (i.alt = mn s ∧ i.alt.isSome)
  let slots := restoreSlots s same alt i.slots
  let lost := lostSlots s same alt i.slots
  let clean := (i.ckpt.map (·.clean)).getD false
  let pend := i.pend.flatMap (restorePend s same alt)
  let s1 := lost.foldl (fun s n => recEvent 0x0701 (leBytes 2 n ++ zeros 6) s) { s with
    dies := s.dies.map fun (d : Die) => if d.live then { d with bank := { d.bank with slots := slots } } else d
    vault := { s.vault with rosters := i.rosters, blobFaults := s.vault.blobFaults + lost.length, alt := none }
    authorities := i.auths, epc := i.epc, rngPeriod := i.period
    time := { s.time with signedTo := max i.signedTo ((i.ckpt.map (·.signed)).getD 0) }
    tamper := match i.tamper with
      | some (c, e, h) => { s.tamper with classes := c, enable := e, high := h }
      | none => s.tamper
    ledgers := restoreLedgers i s.lining.crownFault, pkg := restorePkg i
    draws := i.draws.map (restoreDraw clean)
    fence := pend.foldl (fun l c => addTarget l c.1 [(noJob, c.2)]) s.fence
    ckptDirty := clean, psnNext := i.psn, psnCeil := i.psn }
  extendPsn (if i.alt.isSome then writeImage s1 else s1)

/-- Without an image the Crown starts at PSN 2^40 and records it (R161). -/
def freshPsn (s : State) : State :=
  recEvent 0x0301 (leBytes 8 1099511627776) (extendPsn { s with psnNext := 1099511627776, psnCeil := 1099511627776 })

/-- What the carry record gives back when the image is lost (R390). -/
def restoreCarry (s : State) : State :=
  match acceptedCarry s with
  | none => s
  | some c => { s with
      vault := { s.vault with rosters := c.rosters }, authorities := c.auths, epc := c.epc
      tamper := { s.tamper with classes := c.classes, enable := c.enable, high := c.high } }

/-- IMAGE_FAULT (R301, R381). -/
def imageLost (s : State) : State := freshPsn (internalEvent 0x21 0 0 0 (restoreCarry { s with vault := { s.vault with imageFault := true } }))

/-- Bank commit: a bank that boots after activation raises its minimum SVN and supersedes the other (R438). -/
def commitBank (c : Nat) (s : State) : State :=
  let x := getComp s c
  let b := x.bank x.active
  if b.st = 5 ∧ x.run = some x.active then
    let o := x.bank x.spare
    let y := (x.setBank x.active { b with st := 1 }).setBank x.spare { o with st := if o.st = 1 then 4 else o.st }
    recEvent 0x0C06 ([byte (c + 1), byte b.svn] ++ zeros 6)
      (modComp c (fun _ => { y with minSvn := if imageless s then y.minSvn else max y.minSvn b.svn }) s)
  else s

/-- Step 8. HOLD bars the writes it ends with. -/
def keystoreRestore (s : State) : State :=
  if s.startStep ≠ 8 ∨ s.hold then s else
  let s1 := { s with vault := { s.vault with pr := if s.lcs = .ret then none else s.otp.w.headD none } }
  let s2 := if imageless s1 then freshPsn s1 else match acceptedImage s1 with
    | some i => restoreImage i s1
    | none => imageLost s1
  let s3 := commitBank 2 (commitBank 1 (commitBank 0 s2))
  powerBows (modFn 0 (fun f => { f with ready := true }) { s3 with startStep := 9, vault := { s3.vault with restored := true } })

/-! ## Step 9: entropy (R229, R288, R301, R470) -/

/-- PR is drawn when step 9 ends on the Crown in BLANK, TEST and RETURN. -/
def drawPr (s : State) : State :=
  let b := internalGen 0 0 32 [] s
  { b.2 with vault := { b.2.vault with pr := some b.1 } }

/-- The die root of a die: volatile in BLANK, burnt in TEST where there is none. -/
def drawDieRoot (die : Nat) (s : State) : State :=
  if s.lcs = .blank then
    let b := internalGen die 0 32 [] s
    { b.2 with vault := { b.2.vault with roots := lset b.2.vault.roots die (some b.1) } }
  else if s.lcs = .test ∧ (s.otp.dr.getD die none).isNone then
    let b := internalGen die 0 32 [] s
    { b.2 with otp := { b.2.otp with dr := lset b.2.otp.dr die (some b.1) } }
  else s

/-- The salt of a tenant. -/
def drawSalt (t : Nat) (s : State) : State :=
  let b := internalGen 0 0 16 [] s
  modTenant t (fun x => { x with salt := some b.1 }) b.2

/-- Salts that the tenants with grants still lack; SALT_0 exists without PR in these states only (R288). -/
def drawSalts (s : State) : State :=
  let lack := s.tenants.filter fun t => t.2.granted && t.2.salt.isNone && (t.1 != 0 || s.lcs = .blank || s.lcs = .test || s.lcs = .ret)
  lack.foldl (fun s t => drawSalt t.1 s) s

/-- Derived slots take their material once PR exists (R301). -/
def deriveSlots (s : State) : State :=
  let slots := (crownBank s).slots.map fun k =>
    let blk := blockOf s k.2.tenant k.2.alg
    if k.2.st = 2 ∧ k.2.origin = 1 ∧ !k.2.flags.testBit 2 then (k.1, withMaterial k.2 blk (deriveMat s k.2 blk)) else k
  { s with dies := s.dies.map fun (d : Die) => if d.live then { d with bank := { d.bank with slots := slots } } else d }

/-- What the end of step 9 on the Crown brings. -/
def crownEntropy (s : State) : State :=
  if s.lcs = .blank ∨ s.lcs = .test then drawSalts (drawPr s)
  else if s.lcs = .ret then deriveSlots (drawSalts (drawPr s))
  else drawSalts s

/-- A die becomes READY; the first time since reset it draws its roots. -/
def dieReady (die : Nat) (s : State) : State :=
  let was := (getDie s die).rngReady
  let s1 := startLanes die (entropyReady die s)
  if was ∨ !(getDie s1 die).rngReady then s1
  else if s.startStep ≠ 9 then s1
  else endEntropyStep (drawDieRoot die (if die = 0 then crownEntropy s1 else s1))

/-! ## Step times (R470, R472) and the wake (R464) -/

/-- A step passes its maximum; no limit counts in HOLD. -/
def stepOverrun (step us : Nat) (s : State) : State :=
  if step = s.startStep ∧ 4 ≤ step ∧ step ≤ 9 ∧ !s.hold then recEvent 0x0A08 ([byte step, 0] ++ leBytes 4 us ++ zeros 2) s else s

/-- Resets from the link that the wake put off. -/
def applyResets (l : List Nat) (s : State) : State := l.foldl (fun s c => linkReset c s) s

/-- The wake ends: every live die with entropy is instantiated again, the deferred reseed round starts, deferred resets are applied. -/
def wakeEnd (s : State) : State :=
  let up := (liveDies s).foldl (fun s d => entropyReady d s) { s with pwrState := 0 }
  let s1 := { up with dies := up.dies.map fun (d : Die) => if d.live then { d with epoch := up.time.epoch, passing := false } else d }
  let s2 := recEvent 0x0A06 ([byte s.pwr.wakeCause, 0] ++ leBytes 4 ((s.time.now - s.pwr.retainAt) / 1000000000) ++ zeros 2)
    (startRound s1.time.epoch s1)
  settleAll (applyResets s.pwr.flrs { s2 with pwr := { s2.pwr with flrs := [] } })

/-- The wake sequence ends, or its retention check fails: package reset with cause 5. It waits for the end of HOLD (R472). -/
def wakeDone (ok : Bool) (s : State) : State :=
  if s.pwrState ≠ 3 ∨ s.hold then s else if ok then wakeEnd s else resetNow 5 s

/-! ## The commands -/

/-- POWER_ON (R467). -/
def execPowerOn (t : Nat) (s : State) : Host.Outcome State Fault Refusal := .next (powerOn (tick t s))
/-- PERST_ASSERT (R467). -/
def execPerstAssert (t width : Nat) (s : State) : Host.Outcome State Fault Refusal := .next (perstAssert width (tick t s))
/-- PERST_RELEASE (R470). -/
def execPerstRelease (t : Nat) (s : State) : Host.Outcome State Fault Refusal := .next (perstRelease (tick t s))
/-- SUPPLY_RESET (R459). -/
def execSupplyReset (t rail die : Nat) (s : State) : Host.Outcome State Fault Refusal := .next (supplyReset rail die (tick t s))
/-- SUPPLY_RECOVERY (R457). -/
def execSupplyRecovery (t rail die : Nat) (s : State) : Host.Outcome State Fault Refusal := .next (supplyBack rail die (tick t s))
/-- PACKAGE_RESET_BEGIN (R469). -/
def execPackageResetBegin (t : Nat) (s : State) : Host.Outcome State Fault Refusal := .next (resetDue (tick t s))
/-- HYPERVISOR_WATCHDOG (R52). -/
def execHypervisorWatchdog (t : Nat) (s : State) : Host.Outcome State Fault Refusal := .next (hypervisorDead (tick t s))
/-- MEASUREMENT (R470). -/
def execMeasurement (t : Nat) (s : State) : Host.Outcome State Fault Refusal := .next (measurement (tick t s))
/-- BAND_BRINGUP (R470). -/
def execBandBringup (t : Nat) (trained : List Nat) (s : State) : Host.Outcome State Fault Refusal := .next (bandBringup trained (tick t s))
/-- BRIM_BOOT (R470). -/
def execBrimBoot (t : Nat) (s : State) : Host.Outcome State Fault Refusal := .next (brimBoot (tick t s))
/-- KEYSTORE_RESTORE (R301). -/
def execKeystoreRestore (t : Nat) (s : State) : Host.Outcome State Fault Refusal := .next (keystoreRestore (tick t s))
/-- ENTROPY_STARTUP (R229). -/
def execEntropyStartup (t die : Nat) (kat : Option Nat) (passing : List Nat) (s : State) : Host.Outcome State Fault Refusal :=
  .next (endEntropyStep (entropyStartup die kat passing (tick t s)))
/-- ENTROPY_READY (R229). -/
def execEntropyReady (t die : Nat) (s : State) : Host.Outcome State Fault Refusal := .next (settleAll (dieReady die (tick t s)))
/-- STARTUP_STEP_OVERRUN (R470). -/
def execStartupStepOverrun (t step us : Nat) (s : State) : Host.Outcome State Fault Refusal := .next (stepOverrun step us (tick t s))
/-- WAKE_DONE (R464). -/
def execWakeDone (t : Nat) (checkOk : Bool) (s : State) : Host.Outcome State Fault Refusal := .next (wakeDone checkOk (tick t s))

end Sys2Proof.Machine
end

