-- ==== Sys2Proof/Machine/Boundary.lean ====
section
/-! DEFINITION. The epoch boundary: the work of R77 in its order, the sync pair of R385, checkpoints (R217) and PACKAGE records (R195). -/

namespace Sys2Proof.Machine

/-- The sync pair is rewritten at every rollover of a second while time is trusted (R385). -/
def syncPair (b : Nat) (s : State) : State :=
  if b % s.ecfg.k = 0 ∧ pkgTrusted s then
    { s with lining := { s.lining with sync := some (liningCount s, secOf s s.time.now, nsOf s s.time.now) } }
  else s

/-- Item 1: STAGED becomes CURRENT, and superseded generations are held where jobs still need them (R36, R297). -/
def swapAt (b : Nat) (s : State) : State := holdOld (crownBank s).slots (bankSwap b s)

/-- The PACKAGE record of epoch b − 1 (R195). -/
def packageAt (b : Nat) (s : State) : State :=
  if s.pkgFinal = [] then s else chainRecord (packageRecord (b - 1) s.pkg s.pkgFinal) { s with pkgFinal := [] }

/-- Batches that close at b: of every tenant, then of the package; a tenant that retires closes its last one (R198, R318). -/
def batchesAt (b : Nat) (s : State) : State :=
  closeBatch false 0xFFFF b
    ((s.ledgers.map (·.1)).foldl (fun s t => closeBatch (getTenant s t).retiring.isSome t b s) s)

/-- The checkpoint of the first boundary at or after a rollover of the second (R217). -/
def ckptAtBoundary (s : State) : State :=
  let sec := secOf s s.time.now
  if s.lastCkptSec < sec ∧ s.ckptReq.isNone then requestCkpt (s.quiesced && allCovered s) { s with lastCkptSec := sec } else s

/-- The work of R77 at boundary b, once the epoch count has advanced to it. New EPC_CONFIGURE values act on trust at the boundary (R90). -/
def boundaryWork (b : Nat) (hostOf : Nat → Bool) (s : State) : State :=
  let s1 := closeEpoch (b - 1) hostOf (refreshTrust (swapAt b s))
  let s2 := snapAt b (roundAt b (drawsAt b s1))
  let s3 := ckptAtBoundary (batchesAt b (packageAt b s2))
  settleAll (finishRetires (stagingStart s3))

/-- EPOCH_BOUNDARY: the next boundary, once its instant has come. In RETAIN and while waking the epoch count alone advances (R463). -/
def epochBoundary (t : Nat) (s : State) : State :=
  let b := s.time.epoch + 1
  let at_ := boundaryAt s b
  if !acquired s ∨ max s.time.now t < at_ then tick t s else
  let s1 := refreshTrust (flushOow (setNow (max s.time.now at_) s))
  let s2 := syncPair b { s1 with time := { s1.time with epoch := b } }
  if s.pwrState = 2 ∨ s.pwrState = 3 then s2 else boundaryWork b (fun t => ledgerPolicy s t = 3) s2

/-- EPOCH_BOUNDARY (R77). -/
def execEpochBoundary (t : Nat) (s : State) : Host.Outcome State Fault Refusal := .next (epochBoundary t s)

end Sys2Proof.Machine
end

