-- ==== Sys2Proof/Machine/Registers.lean ====
section
/-! DEFINITION. The register map: what every register of the PF BAR and of a function window reads, writes to the set-up area and to
function windows, and the pair latches (chapter 16; layouts R22, R43, R89, R96, R97, R124, R147, R154, R183, R221, R256, R321, R346,
R371, R402, R451, R474, R483). -/

namespace Sys2Proof.Machine

/-! ## Register pairs (R476) -/

/-- The five read-only pairs: 0 EPC_ORIGIN, 1 EPC_EPOCH, 2 SEAL_PSN_NEXT, 3 SEAL_PSN_CEIL, 4 LDG_APPENDED. -/
def pairValue (s : State) (i : Nat) : Nat :=
  if i = 0 then s.ecfg.origin
  else if i = 1 then s.time.epoch
  else if i = 2 then (if s.startStep ≤ 8 then 0 else s.psnNext)
  else if i = 3 then (if s.startStep ≤ 8 then 0 else s.psnCeil)
  else s.appended

/-- BAR offsets of the _LO words of the read-only pairs. -/
def pairOffs : List Nat := [0x120008, 0x120010, 0x130000, 0x130008, 0x140018]

/-- BAR offsets of the _LO words of the read-write pairs (R477). -/
def pairWrites : List Nat := [0x110000, 0x110008, 0x110010, 0x140000]

/-- Low word of a 64-bit value. -/
def lo32 (v : Nat) : Nat := v % 4294967296
/-- High word of a 64-bit value. -/
def hi32 (v : Nat) : Nat := v / 4294967296 % 4294967296

/-! ## Package-wide registers -/

/-! ## The endpoint (R91, R92, R94, R98) -/

/-- Device ID of a function (R92). -/
def deviceId (s : State) (fn : Nat) : Nat :=
  if fn ≠ 0 then 0x5A9F else
  match s.part with
  | .xz92 => 0x5A92
  | .xz94 => 0x5A94
  | .xz98 => 0x5A98

/-- Identifiers that a function's configuration space reports (R92): Vendor ID, Device ID, class code, Revision ID, which FN_CAPS repeats. -/
structure Identifiers where
  vendor   : Nat
  device   : Nat
  cls      : Nat
  revision : Nat
deriving DecidableEq, Repr

/-- The identifiers of a function (R92). -/
def identifiers (s : State) (fn : Nat) : Identifiers :=
  { vendor := Config.vendorId.toNat, device := deviceId s fn, cls := 0x108000, revision := s.rev % 256 }

/-- Capability values of the endpoint (R91): link widths and speeds (in 0.1 GT/s); payload and read request sizes; requester tag bits and
outstanding non-posted requests; default completion timeout in ms; TotalVFs, which InitialVFs repeats, First VF Offset, VF Stride and the page
sizes in KiB; MSI-X vectors; power states D0 and D3hot; ASPM L1. What the table does not list is absent. -/
structure Capabilities where
  widths    : List Nat := [16, 8, 4, 2, 1]
  speeds    : List Nat := [25, 50, 80, 160, 320]
  payload   : List Nat := [128, 256, 512]
  readReq   : List Nat := [128, 256, 512, 1024, 2048, 4096]
  tagBits   : Nat := 10
  nonPosted : Nat := 768
  timeoutMs : Nat := 50
  totalVfs  : Nat := 1023
  vfOffset  : Nat := 1
  vfStride  : Nat := 1
  pageKiB   : List Nat := [4, 64]
  vectors   : Nat := 64
  dStates   : List Nat := [0, 3]
  aspmL1    : Bool := true
  ari       : Bool := true
  aer       : Bool := true
  flr       : Bool := true
deriving DecidableEq, Repr

/-- The capabilities of the endpoint (R91). -/
def capabilities : Capabilities := {}

/-- Routing ID of a function, from that of the PF (R98). -/
def routingId (pf fn : Nat) : Nat := pf + fn * capabilities.vfStride

/-- Size of BAR0 (R94). -/
def barSize (s : State) (fn : Nat) : Nat := if fn = 0 then 0x400000 else if s.page64 then 0x10000 else 0x4000

/-- FN_CAPS (R483). -/
def fnCaps (s : State) : Nat := dieCount s + bit (decide (s.grade = .e)) 4 + 256 + 4 * 65536 + s.rev % 256 * 16777216

/-- A booted bank awaits its commit (R438). -/
def uncommitted (x : FwComp) : Bool := x.run = some x.active && (x.bank x.active).st = 5

/-- FN_FW_STATUS (R451). -/
def fwReg (s : State) : Nat :=
  maskOf (s.fw.comps.map fun x => decide (x.run = some 1)) + 8 * maskOf (s.fw.comps.map (·.staged.isSome))
    + 64 * maskOf (s.fw.comps.map (·.pending)) + bit s.fw.fallback 9 + bit (s.fw.comps.any uncommitted) 10

/-- FN_MCTP (R451). -/
def fnMctp (h : Hatter) : Nat := h.smbusAddr + bit h.smbusOn 7 + h.speed * 256 + bit h.vdmOn 10 + h.eidVdm * 65536

/-- The FN window (R483). -/
def fnWindow (s : State) : Nat → Option Nat
  | 0x0000 => some (fnCaps s)
  | 0x0004 => some (liveMask s + bit s.dieChanged 8)
  | 0x0008 => some (maskOf s.fnEvent)
  | 0x0010 => some (fwReg s)
  | 0x0014 => some ((getComp s 0).minSvn % 256 + (getComp s 1).minSvn % 256 * 256 + (getComp s 2).minSvn % 256 * 65536)
  | 0x0018 => some (fnMctp s.hatter)
  | 0x0020 => some (field s.otp.packageId 0 4)
  | 0x0024 => some (field s.otp.packageId 4 4)
  | 0x0028 => some (field s.otp.packageId 8 4)
  | 0x002C => some (field s.otp.packageId 12 4)
  | 0x0030 => some (s.badOffset % 4194304 + s.badCount * 4194304)
  | _ => none

/-- The RING window (R484, R147). -/
def ringWindow (s : State) : Nat → Option Nat
  | 0x0000 => some (lo32 (getQ s ⟨0, 0x40⟩).base)
  | 0x0004 => some (hi32 (getQ s ⟨0, 0x40⟩).base)
  | 0x0008 => some (lo32 ((getFn s 0).cq 16).base)
  | 0x000C => some (hi32 ((getFn s 0).cq 16).base)
  | 0x0010 => some (lo32 ((getFn s 0).cq 16).indexBase)
  | 0x0014 => some (hi32 ((getFn s 0).cq 16).indexBase)
  | 0x0018 => some ((getQ s ⟨0, 0x40⟩).log2 + 16 * ((getFn s 0).cq 16).log2 + 256 * ((getFn s 0).cq 16).vector)
  | _ => none

/-- EPC_STATUS (R89). -/
def epcStatus (s : State) : Nat :=
  s.time.st.num + bit (pkgTrusted s) 2 + 256 * s.time.reasons.num + bit s.time.slewing 16 + bit s.time.leapPending 17

/-- The EPC window (R485, R89). -/
def epcWindow (s : State) : Nat → Option Nat
  | 0x0000 => some (s.ecfg.k + bit s.ecfg.falling 14 + bit s.ecfg.fromOtp 15)
  | 0x0004 => some (epcStatus s)
  | 0x0008 => some (lo32 (pairValue s 0))
  | 0x000C => some (hi32 (s.latches.getD 0 0))
  | 0x0010 => some (lo32 (pairValue s 1))
  | 0x0014 => some (hi32 (s.latches.getD 1 0))
  | 0x0018 => some (if acquired s then min (uncertainty s) 0xFFFFFFFF else 0xFFFFFFFF)
  | 0x001C => some (leNat (leInt 4 s.time.phi1))
  | 0x0020 => some (s.time.outOfWindow + 65536 * s.time.narrow)
  | 0x0024 => some s.epc.trustLimit
  | 0x0028 => some s.epc.stability
  | 0x002C => some s.epc.refUnc
  | 0x0030 => some s.epc.grace
  | 0x0034 => some s.epc.floor
  | 0x0038 => some s.epc.limit
  | _ => none

/-- The SEAL window (R486, R183). -/
def sealWindow (s : State) : Nat → Option Nat
  | 0x0000 => some (lo32 (pairValue s 2))
  | 0x0004 => some (hi32 (s.latches.getD 2 0))
  | 0x0008 => some (lo32 (pairValue s 3))
  | 0x000C => some (hi32 (s.latches.getD 3 0))
  | _ => none

/-- The LDG window (R486, R221). -/
def ldgWindow (s : State) : Nat → Option Nat
  | 0x0000 => some (lo32 s.jsBase)
  | 0x0004 => some (hi32 s.jsBase)
  | 0x0008 => some (s.jsLog2 + bit s.jsActive 8)
  | 0x000C => some (bit s.jsActive 0 + bit s.jsBad 1 + bit (appendStalled s) 2 + bit s.ckptOverdue 3 + bit s.quiesced 4 + bit s.storeFault 5)
  | 0x0010 => some (journalUsed s)
  | 0x0014 => some (min s.signQ.length 65535)
  | 0x0018 => some (lo32 (pairValue s 4))
  | 0x001C => some (hi32 (s.latches.getD 4 0))
  | _ => none

/-- Pending draws: scheduled ones that are not resolved, and host-assisted ones that wait for their mapping (R246, R251). -/
def drawsWaiting (s : State) : Nat := (s.draws.filter Draw.pendingD).length

/-- The RNG window (R486, R256). -/
def rngWindow (s : State) : Nat → Option Nat
  | 0x0000 => some (reseedPeriod s)
  | 0x0004 => some (min (drawsWaiting s) 65535 + 65536 * min (s.draws.filter (·.st = 1)).length 65535)
  | 0x0008 => some (storeFree s)
  | _ => none

/-- One byte of KEY_QUORUM: state and cards accepted (R321). -/
def quorumByte (s : State) (role : Nat) : Nat :=
  let q := s.vault.sessions.getD role {}
  q.st + 4 * min q.cards.length 63

/-- The KEY window (R487, R321). -/
def keyWindow (s : State) : Nat → Option Nat
  | 0x0000 => some (bit s.vault.restored 0 + bit s.vault.imageFault 1 + bit (prPresent s) 2 + bit (decide ((getDie s 0).mandrel.kw.st = 1)) 3
      + 65536 * min s.vault.blobFaults 65535)
  | 0x0004 => some ((slotsHeld s).length + 131072 * (((slotsHeld s).filter (·.2.wide)).map (·.2.span)).sum)
  | 0x0008 => some (quorumByte s 0 + 256 * quorumByte s 1 + 65536 * quorumByte s 2 + 16777216 * quorumByte s 3)
  | 0x000C => some (s.vault.accepted + 256 * s.vault.refused + 65536 * s.vault.incomplete)
  | _ => none

/-- The three registers of a card port (R346). -/
def portReg (x : Port) : Nat → Option Nat
  | 0 => some (bit x.enable 0 + bit x.vcard 1 + 4 * x.maxSpeed + bit x.width4 4)
  | 4 => some (bit x.present 0 + bit x.powered 1 + 4 * x.phase + 32 * x.speed + bit x.wide 7 + 256 * x.result + bit x.changed 10 + 4096 * x.reason)
  | 8 => some (x.crcErrors + 256 * x.timeouts + 65536 * x.removals)
  | _ => none

/-- The CCP window (R487). -/
def ccpWindow (s : State) (off : Nat) : Option Nat := if off < 0x40 then portReg (getPort s (off / 16)) (off % 16) else none

/-- The LCS window (R487, R371). -/
def lcsWindow (s : State) : Nat → Option Nat
  | 0x0000 => some (s.lcs.code + 256 * (if s.lcs = .invalid then intentTarget s else 0) + bit s.life.resetRequired 16
      + bit s.lining.unlockPending 17 + bit s.life.unlocked 18 + bit s.life.otpFault 19)
  | 0x0004 => some (maskOf (s.otp.slots.map slotProgrammed) + bit s.otp.marker 5)
  | 0x0008 => some (s.life.enables + 256 * s.life.granted + bit s.life.challenge.isSome 12 + bit s.life.grantOn 13)
  | _ => none

/-- TMP_STATUS (R402). -/
def tmpReg (s : State) : Nat :=
  bit s.locked 0 + bit s.lining.lockLatch 1 + bit s.lining.erased 2 + bit (s.tamper.tests ≠ []) 3
    + bit (decide (1008 ≤ s.tamper.log.length)) 4 + bit (decide (1024 ≤ s.tamper.log.length)) 5 + bit s.tamper.liningLost 6
    + bit (s.tamper.alarming.any (·.1 = 6)) 7 + 65536 * s.lining.lockCause

/-- A bit map of monitor codes, bit c for code c (R402). -/
def codeMap (l : List Nat) : Nat := maskOf ((List.range 18).map fun c => decide (c ≠ 0) && l.contains c)

/-- The TMP window (R488, R402). -/
def tmpWindow (s : State) : Nat → Option Nat
  | 0x0000 => some (tmpReg s)
  | 0x0004 => some (codeMap (s.tamper.alarming.map (·.1)))
  | 0x0008 => some (codeMap (s.lining.latches.map (·.1)))
  | 0x000C => some (((List.range 15).map fun i => monitorClass s (i + 1) * 4 ^ (i + 1)).sum)
  | 0x0010 => some (monitorClass s 0x10 + 4 * monitorClass s 0x11)
  | 0x0014 => some (s.tamper.enable + 16 * s.tamper.high)
  | 0x0018 => some (s.tamper.log.length + 65536 * (uncopied s).length)
  | 0x001C => some (s.lining.unlogged + 65536 * s.lining.overflow)
  | 0x0020 => some (s.evNext % 4294967296)
  | 0x0024 => some (s.evBuf.length + 65536 * s.evSuppressed)
  | _ => none

/-- WAITING (R470): step 10 waits for SYSCLK, an edge or a beacon; step 9 waits on a die none of whose bows has passed. -/
def startWaiting (s : State) : Bool :=
  (s.startStep = 10 && !acquired s)
    || (s.startStep = 9 && (liveDies s).any fun i => let d := getDie s i; !d.rngReady && !d.katFail && d.bows.all fun b => b.st = 4 || b.st = 5)

/-- The PWR window (R488, R474). -/
def pwrWindow (s : State) : Nat → Option Nat
  | 0x0000 => some (s.pwrState + bit s.hold 2 + 8 * s.pwr.holdRail + 256 * maskOf (s.dies.map (·.idle)) + 65536 * s.pwr.holdDie
      + bit s.lining.xtalAt.isSome 19)
  | 0x0004 => some (s.lining.cause + 65536 * s.lining.resets)
  | 0x0008 => some (s.startStep + bit (startWaiting s) 4)
  | 0x000C => some (min s.pwr.holds 65535 + 65536 * min s.pwr.longest 65535)
  | 0x0010 => some s.pwr.idleUs
  | 0x0014 => some 0
  | _ => none

/-- The package-wide registers of a window. -/
def pkgReg (s : State) (win off : Nat) : Option Nat :=
  match win with
  | 0 => fnWindow s off
  | 1 => ringWindow s off
  | 2 => epcWindow s off
  | 3 => sealWindow s off
  | 4 => ldgWindow s off
  | 5 => rngWindow s off
  | 7 => keyWindow s off
  | 8 => ccpWindow s off
  | 9 => lcsWindow s off
  | 10 => tmpWindow s off
  | 11 => if off = 0 then some (bit (s.part != .xz98) 0) else none
  | 12 => pwrWindow s off
  | _ => none

/-- Number of the block window of a PF BAR offset, and the offset within it (R481). -/
def winOf (off : Nat) : Nat × Nat := ((off - 0x100000) / 0x10000, off % 0x10000)

/-- The register at a 4-byte-aligned offset of the set-up area; none where the offset is reserved (R481, R482). -/
def setupReg (s : State) (off : Nat) : Option Nat :=
  if off < 0x100000 ∨ 0x1D0000 ≤ off then none else
  let w := winOf off
  if w.2 < 0x8000 then pkgReg s w.1 w.2
  else if w.2 < 0x8800 then dieReg s ((w.2 - 0x8000) / 0x100) w.1 (w.2 % 0x100)
  else none

/-! ## Availability (R463, R479) -/

/-- The registers that RETAIN leaves readable. -/
def retainReads : List Nat := [0x1C0000, 0x1C0004]

/-- INVALID serves a window: FN, RING, LCS, TMP and PWR. -/
def invalidServes (win : Nat) : Bool := win = 0 || win = 1 || win = 9 || win = 10 || win = 12

/-- What a read of a word of the set-up area returns. -/
def setupRead (s : State) (off : Nat) : Nat :=
  if s.pwrState ≠ 0 ∧ !retainReads.contains off then 0
  else if s.lcs = .invalid ∧ !invalidServes (winOf off).1 then 0
  else (setupReg s off).getD 0

/-! ## The function window (R480) -/

/-- RING_STATUS.STATE as a number. -/
def QState.num : QState → Nat
  | .absent => 0
  | .disabled => 1
  | .running => 2
  | .stopped => 3

/-- The ring number of the slot that holds an offset. -/
def slotRing (off : Nat) : Option Nat :=
  if off < 0x400 then some (off / 0x40)
  else if off < 0x440 then some 0x40
  else if 0x800 ≤ off ∧ off < 0x1000 then some (0x20 + (off - 0x800) / 0x40)
  else none

/-- RING_STATUS (R124). -/
def ringStatus (s : State) (q : QRef) : Nat :=
  let x := getQ s q
  if x.st = .absent then bit true 18
  else x.head + 65536 * x.st.num + bit (idle s q) 18 + bit x.hold.isSome 19 + 1048576 * x.cause + bit x.dropped 22 + bit x.badWrite 23
    + bit x.holdLong 24

/-- The registers of a slot (R124). -/
def slotReg (s : State) (q : QRef) (off : Nat) : Nat :=
  let x := getQ s q
  if off = 0x0C then ringStatus s q
  else if x.st = .absent then 0
  else if off = 0x04 then x.headAt + bit x.done 16 + bit x.late 17
  else if off = 0x08 then bit (decide (x.st = .running)) 0
  else if off = 0x10 then x.tail
  else if off = 0x14 then x.log2 + 16 * x.cq + 65536 * x.burst + 16777216 * x.weight
  else 0

/-- The registers of a completion ring (R154). -/
def cqReg (s : State) (fn c off : Nat) : Nat :=
  match mget (getFn s fn).cqs c with
  | none => 0
  | some r =>
    if off = 0 then r.head
    else if off = 4 then r.producer
    else if off = 8 then r.timerUs + 65536 * r.count
    else if off = 0xC then 1 + bit r.timer.isSome 1 + bit r.badHead 2 + 256 * (attached s fn c).length + 65536 * r.unsig
    else if off = 0x10 then r.log2 + 256 * r.vector
    else 0

/-- FN_STATUS (R96). -/
def fnStatus (s : State) (fn : Nat) : Nat :=
  let f := getFn s fn
  bit f.ready 0 + bit f.resetting 1 + bit (s.locked || lcsForbids s) 2 + bit (f.msix.held ≠ []) 3
    + bit (busOff s fn && decide (0 < stagedResults s fn)) 4 + 65536 * f.tenant

/-- Bit n is 1 while the given ring of a kind is STOPPED (R154). -/
def stopMask (s : State) (fn first n : Nat) : Nat :=
  maskOf ((List.range n).map fun i => decide (((getFn s fn).queue (first + i)).st = .stopped))

/-- One word of the MSI-X table. -/
def msixWord (s : State) (fn off : Nat) : Nat :=
  let e := (mget (getFn s fn).msix.table (off / 16)).getD {}
  if off % 16 = 0 then lo32 e.addr else if off % 16 = 4 then hi32 e.addr else if off % 16 = 8 then e.data else bit e.masked 0

/-- What a read of a word of a function window returns. -/
def fnRead (s : State) (fn off : Nat) : Nat :=
  if s.pwrState ≠ 0 ∨ (s.lcs = .invalid ∧ fn ≠ 0) then 0 else
  match slotRing off with
  | some r => slotReg s ⟨fn, r⟩ (off % 0x40)
  | none =>
    if off = 0x1000 then fnStatus s fn
    else if off = 0x1004 then (getFn s fn).gen % 4294967296
    else if off = 0x1008 then splitOf s (crownBank s) fn
    else if 0x1100 ≤ off ∧ off < 0x1320 then cqReg s fn ((off - 0x1100) / 0x20) (off % 0x20)
    else if off = 0x1400 then stopMask s fn 0 16 + bit (decide (((getFn s fn).queue 0x40).st = .stopped)) 16
    else if off = 0x1404 then stopMask s fn 0x20 32
    else if 0x2000 ≤ off ∧ off < 0x2400 then msixWord s fn (off - 0x2000)
    else if off = 0x3000 then maskOf ((List.range 32).map fun v => (getFn s fn).msix.pending.contains v)
    else if off = 0x3004 then maskOf ((List.range 32).map fun v => (getFn s fn).msix.pending.contains (32 + v))
    else 0

/-! ## Reads (R95, R476) -/

/-- A read of a BAR is served (R95, R476); otherwise it completes with Unsupported Request. -/
def readServed (fn off len : Nat) : Bool :=
  if fn ≠ 0 ∨ off < 0x4000 then 1 ≤ len && len ≤ 8 && off / 64 = (off + len - 1) / 64
  else (len = 1 || len = 2 || len = 4 || len = 8) && off / 8 = (off + len - 1) / 8

/-- A function's BAR answers: the map is there (R463, R479), the function exists, Memory Space Enable is 1 (R118), and the read lies in BAR0. -/
def barAnswers (s : State) (fn off len : Nat) : Bool :=
  5 ≤ s.startStep && s.lcs != .scrap && fnExists s fn && (getFn s fn).mse && off + len ≤ barSize s fn && readServed fn off len

/-- Latches every read-only pair whose _LO byte 0 the read includes. -/
def latchPairs (off len : Nat) (s : State) : State :=
  if s.pwrState ≠ 0 then s
  else { s with latches := pairOffs.mapIdx fun i p => if off ≤ p ∧ p < off + len then pairValue s i else s.latches.getD i 0 }

/-- One byte of a function's BAR: its own window in the first 16 KiB, and behind it the PF's set-up area, or 0 in a VF's BAR (R94, R95). -/
def barByte (s : State) (fn off : Nat) : Byte :=
  byte ((if off < 0x4000 then fnRead s fn (off / 4 * 4) else if fn = 0 then setupRead s (off / 4 * 4) else 0) / 256 ^ (off % 4))

/-- A read of a function's BAR: its data goes out after the latches of the PF's pairs have taken their values. -/
def barRead (fn off len : Nat) (s : State) : State :=
  if !barAnswers s fn off len then emit .unsupported s
  else
    let s1 := if fn = 0 then latchPairs off len s else s
    emit (.readData ((List.range len).map fun i => barByte s1 fn (off + i))) s1

/-! ## Writes to the set-up area (R477) -/

/-- A write with a wrong size or place is recorded in FN_BAD_WRITE. -/
def badWrite (off : Nat) (s : State) : State := { s with badOffset := off % 4194304, badCount := satAdd s.badCount 1 255 }

/-- Clears the FN_EVENT bits that are written as 1. -/
def clearEvents (v : Nat) (l : List Bool) : List Bool := l.mapIdx fun i b => b && !v.testBit i

/-- CCP_PORT_CFG_n: a MAX_SPEED of 3 is ignored (R346). -/
def portCfg (v : Nat) (x : Port) : Port :=
  { x with enable := v.testBit 0, vcard := v.testBit 1, maxSpeed := if bits v 2 2 = 3 then x.maxSpeed else bits v 2 2, width4 := v.testBit 4 }

/-- FN_MCTP: a SPEED of 3 is ignored (R451). -/
def mctpCfg (v : Nat) (h : Hatter) : Hatter :=
  { h with smbusAddr := bits v 0 7, smbusOn := v.testBit 7, speed := if bits v 8 2 = 3 then h.speed else bits v 8 2, vdmOn := v.testBit 10 }

/-- A 4-byte write to a register of the set-up area, by the table of R477. Registers without a writable field ignore it. -/
def setupWord (off v : Nat) (s : State) : State :=
  let w := winOf off
  if w.1 = 0 then
    if w.2 = 0x04 then { s with dieChanged := s.dieChanged && !v.testBit 8 }
    else if w.2 = 0x08 then { s with fnEvent := clearEvents v s.fnEvent }
    else if w.2 = 0x18 then { s with hatter := mctpCfg v s.hatter }
    else s
  else if w.1 = 1 then
    if w.2 < 0x1C then pfAdminWord w.2 v s
    else if 0x8000 ≤ w.2 ∧ w.2 < 0x8800 ∧ w.2 % 0x100 = 0 then pollWrite ((w.2 - 0x8000) / 0x100) v s
    else s
  else if w.1 = 4 then
    if w.2 = 0 ∨ w.2 = 4 then (if s.jsActive then s else { s with jsBase := setWord s.jsBase (w.2 = 4) v })
    else if w.2 = 8 then jsConfig v s
    else if w.2 = 0xC then { s with jsBad := s.jsBad && !v.testBit 1, storeFault := s.storeFault && !v.testBit 5 }
    else s
  else if w.1 = 8 ∧ w.2 < 0x40 then
    if w.2 % 16 = 0 then modPort (w.2 / 16) (portCfg v) s
    else if w.2 % 16 = 4 then modPort (w.2 / 16) (fun x => { x with changed := x.changed && !v.testBit 10 }) s
    else s
  else if w.1 = 9 ∧ w.2 = 0 then { s with life := { s.life with otpFault := s.life.otpFault && !v.testBit 19 } }
  else if w.1 = 12 ∧ w.2 = 0x10 then { s with pwr := { s.pwr with idleUs := bits v 0 10 } }
  else if w.1 = 12 ∧ w.2 = 0x14 then (if v.testBit 0 then wakeUp 0 s else s)
  else s

/-- A write to the set-up area while the map is open: exactly 4 aligned bytes, or 8 at the _LO of a read-write pair; any other write
to a register is recorded. -/
def setupWrite (off len v : Nat) (s : State) : State :=
  if len = 4 ∧ off % 4 = 0 then (if (setupReg s off).isSome then setupWord off (lo32 v) s else s)
  else if len = 8 ∧ pairWrites.contains off then setupWord (off + 4) (hi32 v) (setupWord off (lo32 v) s)
  else if (setupReg s (off / 4 * 4)).isSome then badWrite off s
  else s

/-- A write to the set-up area (R463, R479): in RETAIN only PWR_WAKE acts, in INVALID only the windows that respond. -/
def setupAccess (off len v : Nat) (s : State) : State :=
  if s.startStep < 5 ∨ s.lcs = .scrap ∨ !(getFn s 0).mse then s
  else if s.pwrState ≠ 0 then (if off = 0x1C0014 ∧ len = 4 then setupWord off v s else s)
  else if s.lcs = .invalid ∧ !invalidServes (winOf off).1 then s
  else setupWrite off len v s

/-! ## Writes to a function window (R124, R153, R157) -/

/-- A legal write to a slot register. -/
def slotWord (q : QRef) (off v : Nat) (s : State) : State :=
  if off = 0 then doorbell q (bits v 0 16) s
  else if off = 4 then invalidate q (bits v 0 16) s
  else if off = 8 then (if v.testBit 0 then enableRing q s else disableRing q s)
  else if off = 0xC then modQ q (fun y => { y with
    dropped := y.dropped && !v.testBit 22, badWrite := y.badWrite && !v.testBit 23, holdLong := y.holdLong && !v.testBit 24 }) s
  else s

/-- A write to a slot: one of the wrong size or alignment is discarded and sets BAD_WRITE (R124). -/
def slotWrite (q : QRef) (off len v : Nat) (s : State) : State :=
  if (getQ s q).st = .absent ∨ 0x18 ≤ off then s
  else if len = 4 ∧ off % 4 = 0 then slotWord q off (lo32 v) s
  else modQ q (fun y => { y with badWrite := true }) s

/-- A write to a completion-ring register (R153, R154, R157). -/
def cqWrite (fn c off v : Nat) (s : State) : State :=
  if (mget (getFn s fn).cqs c).isNone then s
  else if off = 0 then cqHead fn c (bits v 0 16) s
  else if off = 8 then cqMod fn c v s
  else if off = 0xC then modCq fn c (fun r => { r with badHead := r.badHead && !v.testBit 2 }) s
  else s

/-- A write of one word of the MSI-X table; clearing a mask bit sends a pending message (R116). -/
def msixWrite (fn off v : Nat) (s : State) : State :=
  let e := off / 16
  let old := (mget (getFn s fn).msix.table e).getD {}
  let put (x : MsixEntry) : State := modFn fn (fun n => { n with msix := { n.msix with table := mset n.msix.table e x } }) s
  if off % 16 = 0 then put { old with addr := setWord old.addr false v }
  else if off % 16 = 4 then put { old with addr := setWord old.addr true v }
  else if off % 16 = 8 then put { old with data := v }
  else if v.testBit 0 then put { old with masked := true }
  else unmask fn e s

/-- A write to a function window. -/
def fnWrite (fn off len v : Nat) (s : State) : State :=
  if !fnOpen s fn then s else
  match slotRing off with
  | some r => slotWrite ⟨fn, r⟩ (off % 0x40) len v s
  | none =>
    if 0x1100 ≤ off ∧ off < 0x1320 then (if len = 4 ∧ off % 4 = 0 then cqWrite fn ((off - 0x1100) / 0x20) (off % 0x20) (lo32 v) s else s)
    else if 0x2000 ≤ off ∧ off < 0x2400 then
      if len = 4 ∧ off % 4 = 0 then msixWrite fn (off - 0x2000) (lo32 v) s
      else if len = 8 ∧ off % 8 = 0 then msixWrite fn (off - 0x2000 + 4) (hi32 v) (msixWrite fn (off - 0x2000) (lo32 v) s)
      else s
    else s

/-- A write to a function's BAR: the PF reaches the set-up area, a VF its own window only (R475). -/
def barWrite (fn off len v : Nat) (s : State) : State :=
  if off < 0x4000 then fnWrite fn off len v s else if fn = 0 then setupAccess off len v s else s

/-! ## The commands -/

/-- REGISTER_WRITE (R477): an offset of the function's BAR, a length and a value. -/
def execRegisterWrite (t fn off len value : Nat) (s : State) : Host.Outcome State Fault Refusal := .next (barWrite fn off len value (tick t s))

/-- PF_ADMIN_CONFIG_WRITE (R147): an offset within the PF admin registers of the RING window. -/
def execPfAdminConfigWrite (t off len value : Nat) (s : State) : Host.Outcome State Fault Refusal :=
  .next (if off < 0x1C then setupAccess (0x110000 + off) len value (tick t s) else tick t s)

/-- PAIR_LATCH_READ (R95, R476): a read of a function's BAR. -/
def execPairLatchRead (t : Nat) (p : BarPlace) (len : Nat) (s : State) : Host.Outcome State Fault Refusal := .next (barRead p.fn p.off len (tick t s))

end Sys2Proof.Machine
end

