-- ==== Sys2Proof/Machine/Commands.lean ====
section
/-! DEFINITION. The Crown dispatcher: which meaning an opcode has, arbitration and takes, placement, polls and admission, the arrival
of sources, the end of engine work, and the sequencer's events (chapters 01 and 04; R405, R409 to R411). -/

namespace Sys2Proof.Machine

/-! ## The meaning of an opcode (R11, R102, R145 and the chapters) -/

/-- NOP (R12, R40), and what every opcode without a meaning falls under: admission refuses it. Only FLAGS [7:4], KEY_HANDLE and
HOST_SPLIT of a NOP are checked (R9, R15, R45; log entry 51). -/
def nopSem : OpSem where
  pfOnly := anyFn
  resv d := reservedBad d offHandle
  fenced := anyFn
  keyed := anyFn
  src := false
  len _ _ := []
  own _ _ := []
  go id s := okJob id [] [] s
  fin _ s := s

/-- Meanings of the work-ring opcodes. -/
def workSem (op : Nat) : OpSem :=
  match op with
  | 0x10 => sealSem
  | 0x11 => sealDigestSem
  | 0x12 => verifySealSem
  | 0x13 => macSem
  | 0x20 => drawSem false
  | 0x21 => drawSem true
  | 0x22 => randomSem
  | 0x30 => signSem
  | 0x31 => verifySem
  | 0x32 => ecdhSem
  | 0x40 => proofSem
  | 0x50 => stampSem
  | _ => nopSem

/-- Meanings of the service commands 0x80 to 0x9F. -/
def serviceSem (op : Nat) : OpSem :=
  match op with
  | 0x80 => keyDeriveSem
  | 0x81 => keyGenerateSem
  | 0x82 => keyImportSem
  | 0x83 => keyExportSem
  | 0x84 => keyRotateSem
  | 0x85 => keyDestroyFull
  | 0x86 => keyInfoSem
  | 0x87 => keyPublicSem
  | 0x88 => keyAgreeSem
  | 0x89 => keyComponentSem
  | 0x8A => tenantRetireSem
  | 0x8B => keyPackageInitSem
  | 0x8C => quorumOpenSem
  | 0x8D => quorumStatusSem
  | 0x8E => quorumCancelSem
  | 0x8F => roleSetSem
  | 0x90 => beaconSem
  | 0x91 => epcQuerySem
  | 0x92 => closeSetSem
  | 0x93 => closeReadSem
  | 0x94 => epcConfigureSem
  | 0x95 => epochSetupSem
  | 0x96 => authoritySem
  | 0x97 => keyMigrateSem
  | 0x98 => drawQuerySem
  | 0x99 => drawMapSem
  | 0x9A => reseedSem
  | 0x9B => fwQuerySem
  | 0x9C => fwActivateSem
  | 0x9D => cntConfigureSem
  | 0x9E => cntSnapshotSem
  | 0x9F => cntReadSem
  | _ => nopSem

/-- Meanings of the service commands 0xA0 to 0xBF. -/
def service2Sem (op : Nat) : OpSem :=
  match op with
  | 0xA0 => lringCreateSem
  | 0xA1 => lringDestroySem
  | 0xA2 => ldgConfigSem
  | 0xA4 => ldgReadSem
  | 0xA5 => rootSubmitSem
  | 0xA6 => rootProveSem
  | 0xA7 => quiesceSem
  | 0xA8 => tmpConfigSem
  | 0xA9 => monitorTestSem
  | 0xAA => tmpLogReadSem
  | 0xAB => tmpEventReadSem
  | 0xAC => tmpUnlockSem
  | 0xAD => cntSampleConfigSem
  | 0xAE => cntSampleReadSem
  | 0xB0 => curveLoadSem
  | 0xB1 => curveUnloadSem
  | 0xB2 => curveReadSem
  | 0xB4 => pwrRetainSem
  | 0xB5 => pwrResetSem
  | 0xB8 => lcsTransitionSem
  | 0xB9 => lcsTokenSetSem
  | 0xBA => lcsReturnUnlockSem
  | 0xBB => dbgChallengeSem
  | 0xBC => dbgGrantSem
  | 0xBD => dbgRevokeSem
  | _ => nopSem

/-- Meanings of the admin commands. -/
def adminSem (op : Nat) : OpSem :=
  match op with
  | 0xC0 => createSem
  | 0xC1 => destroySem
  | 0xC2 => resetSem
  | 0xC3 => shareSem
  | 0xC4 => splitSem
  | 0xC5 => querySem
  | 0xC6 => tenantSem
  | 0xC8 => ringCreateSem
  | 0xC9 => ringDestroySem
  | 0xCA => cqCreateSem
  | 0xCB => cqDestroySem
  | 0xCC => sqCreateSem
  | 0xCD => sqDestroySem
  | _ => nopSem

/-- The meaning of an opcode. -/
def semOf (op : Nat) : OpSem :=
  if op < 0x80 then workSem op else if op < 0xA0 then serviceSem op else if op < 0xC0 then service2Sem op else adminSem op

/-! ## Checks of the dispatcher and of the worlds (R47, R230, R239, R409, R411, R471) -/

/-- An immediate DRAW or SHUFFLE. -/
def immediateDraw (d : Desc) : Bool := (d.op = 0x20 || d.op = 0x21) && !scheduled d

/-- Some live die has a healthy unit of the kind for a source of this length. -/
def anyHealthy (s : State) (kind len : Nat) : Bool := (liveDies s).any fun d => healthy (getDie s d) kind len none

/-- The world of an opcode is stopped on the Crown. -/
def worldStopped (s : State) (op : Nat) : Bool := worldOf op ≠ 0 && (getWorld s 0 (worldOf op)).st = 2

/-- What is refused whatever the operation: a job for which no die has READY entropy or a healthy core, and a command of a stopped world. -/
def dispatchFails (sem : OpSem) (s : State) (x : Job) : List Fail :=
  let op := x.d.op
  failIf (reckonerOp op && !anyReady s) stNotReady 0x10
    ++ (if immediateDraw x.d then (match drawPlace s x.tenant with
        | .fail i => [⟨stNotReady, i⟩]
        | _ => []) else [])
    ++ failIf ((macOp op && !anyHealthy s 0 (takeLen x.d)) || (reckonerOp op && !anyHealthy s 1 0)) stFatal 0
    ++ failIf (queueKind x.ring != 0 && worldStopped s op) stFatal 0
    ++ failIf (sem.fenced x.d && (getWorld s 0 1).st = 2) stFatal 0

/-- The meaning of an opcode with the dispatcher's checks. -/
def fullSem (op : Nat) : OpSem :=
  let b := semOf op
  { b with own := fun s x => b.own s x ++ dispatchFails b s x }

/-- Admission of a job under its own opcode. -/
def admitOwn (id : Nat) (s : State) : State := admitJob (fullSem (getJob s id).d.op) id s

/-! ## Takes and placement (R40, R41, R47, R123, R140, R239, R471) -/

/-- Live dies that may run a work job, full internal rings aside. -/
def ableDies (s : State) (d : Desc) : List Nat :=
  let live := liveDies s
  if macOp d.op then live.filter fun i => healthy (getDie s i) 0 (takeLen d) none
  else if reckonerOp d.op then live.filter fun i => healthy (getDie s i) 1 0 none && (getDie s i).rngReady
  else if d.op = 0x22 then
    let ok := live.filter fun i => (getDie s i).rngReady
    let up := ok.filter fun i => entropyUp (getDie s i)
    if d.f 36 1 = 1 ∧ up ≠ [] then up else ok
  else live

/-- The job uses the Crown's own internal ring G (R140). -/
def crownRing (d : Desc) : Bool := crownOp d.op || ((d.op = 0x20 || d.op = 0x21) && scheduled d)

/-- An internal ring has a free place for the entry (R137). -/
def roomFor (s : State) (q : QRef) (d : Desc) : Bool :=
  if queueKind q.ring ≠ 0 ∨ d.op = 0 then true
  else if crownRing d then ringRoom (getDie s 0) d.op
  else ableDies s d = [] || (ableDies s d).any fun i => ringRoom (getDie s i) d.op

/-- The entry may be taken (R137). -/
def mayTake (s : State) (q : QRef) (d : Desc) : Bool := eligible s q d && roomFor s q d

/-- A job enters an internal ring of a die. -/
def enterRing (id die : Nat) (s : State) : State :=
  let p := reckonerOp (getJob s id).d.op
  modDie die (fun d => if p then { d with ringP := d.ringP ++ [id] } else { d with ringG := d.ringG ++ [id] })
    (modJob id (fun x => { x with die := die, phase := .ring }) s)

/-- A service or admin command goes to its world, or waits while the world restarts (R405, R410, R411). -/
def toWorld (id : Nat) (s : State) : State :=
  let x := getJob s id
  let w := worldOf x.d.op
  if opAccepted x.d.op x.ring ∧ w ≠ 0 ∧ (getWorld s 0 w).st = 1 then modJob id (fun x => { x with phase := .wait (49 + w) }) s
  else admitOwn id s

/-- A taken work-ring job goes to its die, waits on the Crown for a draw instance, or ends at the take. -/
def placeWork (id : Nat) (s : State) : State :=
  let x := getJob s id
  if !opAccepted x.d.op x.ring ∨ x.d.op = 0 then admitOwn id s
  else if crownRing x.d then enterRing id 0 s
  else if immediateDraw x.d then
    match drawPlace s x.tenant with
    | .fail _ => admitOwn id s
    | .die d => placeDraw id d s
    | .wait => modJob id (fun y => { y with phase := .wait 11 }) s
    | .waitEntropy => modJob id (fun y => { y with phase := .wait 12, waitT := s.time.now }) s
  else
    match leastDie (if reckonerOp x.d.op then rqLoad s else dieLoad s) ((ableDies s x.d).filter fun i => ringRoom (getDie s i) x.d.op) with
    | some d => enterRing id d s
    | none => admitOwn id s

/-- PSN or DRAW_ID at the take of a SEAL, SEAL_DIGEST, DRAW or SHUFFLE; 0 at the end of the reservation (R161, R240). -/
def numberJob (id : Nat) (s : State) : State :=
  let op := (getJob s id).d.op
  if op = 0x10 ∨ op = 0x11 ∨ op = 0x20 ∨ op = 0x21 then
    let r := takePsn s
    modJob id (fun x => { x with psn := r.1.getD 0 }) r.2
  else s

/-- Takes the entry d at the head of a queue and sends the job on its way; the JOB_ID and the state. -/
def takeJob (q : QRef) (d : Desc) (s : State) : Nat × State :=
  let r := takeEntry q d s
  (r.1, if queueKind q.ring = 0 then placeWork r.1 (numberJob r.1 r.2) else toWorld r.1 r.2)

/-! ## Arbitration (R136, R139) -/

/-- Every queue of a kind that has a prefetched copy and is eligible, in order of function and queue: key, queue, descriptor. -/
def ready (s : State) (kind : Nat) : List (Nat × QRef × Desc) :=
  s.fns.flatMap fun f => f.2.queues.filterMap fun x =>
    if queueKind x.1 = kind then
      match x.2.copies.head? with
      | some d => if mayTake s ⟨f.1, x.1⟩ d then some (f.1 * 256 + x.1, ⟨f.1, x.1⟩, d) else none
      | none => none
    else none

/-- Round robin: the first key after the one served last, or the first. -/
def afterKey (l : List (Nat × QRef × Desc)) (k : Nat) : Option (Nat × QRef × Desc) :=
  match l.find? fun x => k < x.1 with
  | some x => some x
  | none => l.head?

/-- Keys of the RUNNING work rings of the package. -/
def workKeys (s : State) : List Nat :=
  s.fns.flatMap fun f => (f.2.queues.filter fun x => queueKind x.1 = 0 ∧ x.2.st = .running).map fun x => f.1 * 256 + x.1

/-- A list turned so that it begins at the first key that is at least k. -/
def rotateTo (l : List Nat) (k : Nat) : List Nat := l.filter (k ≤ ·) ++ l.filter (· < k)

/-- Takes left in a visit to a ring that is beginning (R139). -/
def visitLen (s : State) (q : QRef) : Nat :=
  let f := getFn s q.fn
  let x := f.queue q.ring
  min (min x.burstNow x.credit) (min x.posted (min (f.cq x.cq).room (f.g.outstanding - outstanding s q.fn)))

/-- A new round: every RUNNING work ring has its weight as credit and its burst as they are in force now, and the rotation starts one ring later
(R139, R158). -/
def newRound (s : State) : State :=
  let keys := workKeys s
  let next := match keys.find? (s.rrWork < ·) with
    | some k => k
    | none => keys.headD 0
  { s with
    rrWork := next, visit := none
    fns := mmap (fun _ (f : FnState) => { f with queues := mmap (fun r (q : Queue) => if queueKind r = 0 ∧ q.st = .running then { q with credit := q.weight, burstNow := q.burst } else q) f.queues }) s.fns }

/-- The ready ring that the running visit, or the rotation after it, serves next; none at the end of a round. -/
def nextVisit (s : State) (l : List (Nat × QRef × Desc)) : Option ((Nat × QRef × Desc) × Nat) :=
  let credit (x : Nat × QRef × Desc) : Nat := (getQ s x.2.1).credit
  let cont := match s.visit with
    | some (k, n) => (l.find? fun (x : Nat × QRef × Desc) => x.1 = k && 0 < n && 0 < credit x).map fun x => (x, n)
    | none => none
  match cont with
  | some r => some r
  | none =>
    let order := rotateTo (workKeys s) s.rrWork
    let turned := match s.visit with
      | some (k, _) => (order.dropWhile (· ≠ k)).drop 1 ++ order.takeWhile (· ≠ k) ++ [k]
      | none => order
    (turned.findSome? fun k => l.find? fun (x : Nat × QRef × Desc) => x.1 = k && 0 < credit x).map fun x => (x, visitLen s x.2.1)

/-- The work-ring entry that weighted round robin takes next, with its credit and its place in the visit counted (R139). -/
def nextWork (l : List (Nat × QRef × Desc)) (s : State) : Option (QRef × Desc × State) :=
  let charge (s : State) (r : (Nat × QRef × Desc) × Nat) : QRef × Desc × State :=
    (r.1.2.1, r.1.2.2, modQ r.1.2.1 (fun q => { q with credit := q.credit - 1 }) { s with visit := some (r.1.1, r.2 - 1) })
  match nextVisit s l with
  | some r => some (charge s r)
  | none => (nextVisit (newRound s) l).map (charge (newRound s))

/-- The counts of takes, for the microsecond of this instant (R136). Microseconds are those of the device clock, one after another, not a
window that slides (DESIGN CHOICE, log entry 72). -/
def takeWindow (s : State) : State :=
  if s.takeUs = s.time.now / 1000 then s else { s with takeUs := s.time.now / 1000, takeCount := 0, takeSvc := 0 }

/-- Some RUNNING work ring has used credit in the present round. -/
def roundBegun (s : State) : Bool := (workKeys s).any fun k =>
  let q := getQ s ⟨k / 256, k % 256⟩
  q.credit ≠ q.weight

/-- A round in which no ring is eligible any more ends: its unused credit is not carried over (R139; log entry 50). -/
def endRound (s : State) : State := if ready s 0 = [] ∧ roundBegun s then newRound s else s

/-- The entry that the dispatcher takes at this instant, and the state with the take counted: admin rings first, service queues second, work
rings third; 96 takes in a microsecond, and while a work ring is eligible at most 8 of them from admin rings and service queues (R136). -/
def turn (s0 : State) : Option (QRef × Desc × State) :=
  let s := endRound (takeWindow s0)
  let work := ready s 0
  let svcOpen := work = [] || s.takeSvc < 8
  if 96 ≤ s.takeCount then none else
  match (if svcOpen then afterKey (ready s 2) s.rrAdmin else none) with
  | some x => some (x.2.1, x.2.2, { s with rrAdmin := x.1, takeCount := s.takeCount + 1, takeSvc := s.takeSvc + 1 })
  | none =>
    match (if svcOpen then afterKey (ready s 1) s.rrService else none) with
    | some x => some (x.2.1, x.2.2, { s with rrService := x.1, takeCount := s.takeCount + 1, takeSvc := s.takeSvc + 1 })
    | none => nextWork work { s with takeCount := s.takeCount + 1 }

/-- One take. -/
def takeOne (s : State) : State :=
  match turn s with
  | some r => (takeJob r.1 r.2.1 r.2.2).2
  | none => endRound (takeWindow s)

/-- The descriptor stands as the prefetched copy at the head of its queue. -/
def offer (q : QRef) (d : Desc) (s : State) : State := modQ q (fun y => { y with copies := ⟨fit 64 d.bytes⟩ :: y.copies.drop 1 }) s

/-- The state in which the dispatcher takes the descriptor d from the head of a queue at this instant; none where it takes another entry or
nothing (R136, R137, R139). -/
def taking (q : QRef) (d : Desc) (s : State) : Option State :=
  match turn (offer q d s) with
  | some r => if r.1 = q then some r.2.2 else none
  | none => none

/-! ## Polls (R141, R142) -/

/-- An entry read by a poll: admitted, or dropped when it is marked. -/
def pollEntry (id : Nat) (s : State) : State := if (getJob s id).phase = .ring then admitOwn id s else s

/-- One poll of an internal ring: up to 16 entries are admitted in order. -/
def pollRing (die : Nat) (p : Bool) (s : State) : State :=
  let d := getDie s die
  let es := (if p then d.ringP else d.ringG).take 16
  es.foldl (fun s j => pollEntry j s)
    (modDie die (fun d => if p then { d with ringP := d.ringP.drop 16, consP := (d.consP + es.length) % 512 }
                          else { d with ringG := d.ringG.drop 16, consG := (d.consG + es.length) % 512 }) s)

/-- One poll of the dispatcher of a live die, which serves its two rings alternately (R141). -/
def diePoll (die : Nat) (s : State) : State :=
  let d := getDie s die
  if !d.live ∨ d.halted ∨ s.crownFault then s
  else pollRing die (!d.turnG) (modDie die (fun d => { d with turnG := !d.turnG }) s)

/-! ## The end of engine work (R176, R277, R279) -/

/-- Some lane runs the job. -/
def onLane (s : State) (id : Nat) : Bool := (getDie s (getJob s id).die).lanes.any (·.job = some id)

/-- A MAC core, the mapper or the DRBG ends a job; an engine whose skid buffer is full waits (R190). -/
def engineDone (id : Nat) (s : State) : State :=
  let x := getJob s id
  if onLane s id ∨ stalled (getDie s x.die) (outlet x).1 (outlet x).2 then s else engineEnd (semOf (getJob s id).d.op) id s

/-- The job releases a signature or a shared secret, which is checked before release (R277). -/
def checkedRelease (x : Job) : Bool := x.ring = ownRing || [0x30, 0x32, 0x50, 0x88].contains x.d.op

/-- A lane ends its job; a failed check before release is a lane fault. -/
def laneDone (die lane : Nat) (verified : Bool) (s : State) : State :=
  match ((getDie s die).lanes.getD lane {}).job with
  | none => s
  | some j =>
    let x := getJob s j
    if !verified && checkedRelease x then verifyBeforeFails die lane s
    else if x.ring = ownRing then signEnd j s
    else (semOf x.d.op).fin j s

/-- Retirements, the sequencer's drain and all that follows. -/
def settleLedger (s : State) : State := finishRetires (settleAll s)

/-! ## A descriptor row: a job from its take to its completion, without another event between (log entry 50) -/

/-- Polls the job's die until the job has left its internal ring. -/
def pollTo (id : Nat) : Nat → State → State
  | 0, s => s
  | n + 1, s => if (mget s.jobs id).any (·.phase = .ring) then pollTo id n (diePoll (getJob s id).die s) else s

/-- The fragment table and the source arrive, or a read fails. -/
def feed (id : Nat) (x : Sub) (s : State) : State :=
  let sem := semOf (getJob s id).d.op
  let s1 := if (getJob s id).phase = .table then
      (if x.srcFail then sourceFail sem id (getJob s id).d.srcAddr s else fragArrive sem id x.frags s) else s
  if (getJob s1 id).phase = .source then
    let s2 := tick x.tSrc s1
    if x.srcFail then sourceFail sem id (getJob s2 id).d.srcAddr s2 else sourceArrive sem id x.src s2
  else s1

/-- The engine work of a job ends on whatever runs it. -/
def endWork (id : Nat) (s : State) : State :=
  if (getJob s id).phase = .engine then
    match laneOf s id with
    | some l => laneDone (getJob s id).die l true s
    | none => engineDone id s
  else s

/-- The collector of a die sends results; engines that waited for room in it go on (R190). -/
def sendResults (die : Nat) (s : State) : State := startLanes die (startMac die (collectorSend die s))

/-- The result travels from the collector to the sequencer. -/
def travel (id : Nat) : Nat → State → State
  | 0, s => s
  | n + 1, s =>
    let p := (getJob s id).phase
    if p = .collector then travel id n (sendResults (getJob s id).die s)
    else if p = .ingress then travel id n (leafArrival s)
    else s

/-- The signing job of the device's own that a draw job waits for ends (R244, R245). -/
def endSigns (id : Nat) (s : State) : State :=
  (s.jobs.filter fun j => j.2.ring = ownRing && j.2.tmp = id + 1).foldl (fun s j => endWork j.1 s) s

/-- The way of a taken job as far as the end of its engine work. -/
def workJob (id : Nat) (x : Sub) (s : State) : State := endWork id (feed id x (pollTo id 64 s))

/-- What follows a job's engine work without another event: the sequencer, and the signatures of the device's own that it waits for. -/
def afterWork (id : Nat) (s : State) : State :=
  let s1 := settleLedger s
  let s2 := settleLedger (travel id (s1.ingress.length + (getDie s1 (getJob s1 id).die).collector.length + 4) s1)
  settleLedger (endSigns id s2)

/-- The end of a descriptor row: what follows the work of the job, and the completions of its ring are written. -/
def rowEnd (q : QRef) (cq id : Nat) (s : State) : State := postCq q.fn cq (afterWork id s)

/-- The descriptor d at the head of a queue is taken and run, and the completions of its ring are written. -/
def runDesc (d : Desc) (x : Sub) (s : State) : State :=
  match taking x.q d s with
  | some s1 =>
    let r := takeJob x.q d s1
    rowEnd x.q (getQ s x.q).cq r.1 (workJob r.1 x r.2)
  | none => s

/-- A descriptor row with its opcode. -/
def runOp (op : Nat) (x : Sub) (s : State) : State := runDesc (x.d.withOp op) x (tick x.t s)

/-! ## World restarts (R409 to R411) -/

/-- The commands that waited for a world of the Crown proceed; those of a stopped world complete with FAULT_FATAL. -/
def resumeWorld (w : Nat) (s : State) : State :=
  if (getWorld s 0 w).st = 1 then s
  else (s.jobs.filter fun j => j.2.phase = .wait (49 + w)).foldl (fun s j => admitOwn j.1 s) s

/-! ## Entropy that arrives (R225, R226, R228, R234) -/

/-- A request that waited for entropy is tried again. -/
def serveOne (s : State) (x : Nat × Elig) : State :=
  match x.2 with
  | .job j => if (getJob s j).phase = .wait 10 then (semOf (getJob s j).d.op).go j s else s
  | .draw d => executeDraw d s
  | .restate _ => s

/-- Requests that wait for a die's entropy are served in the order of R228 and, within a class, in that of the requests: draws, prediction
resistance, reseeds that a counter forces, and the reseed round. Draw DRBGs that have not been instantiated come before the round (log entry 78). -/
def serveEntropy (die : Nat) (s : State) : State :=
  let serve (f : State → List (Nat × Elig)) (s : State) : State := (inTime (f s)).foldl serveOne s
  let s1 := serve (reseedWaiters die false) (serve (reseedWaiters die true) (serve (seedWaiters die) s))
  roundSeeds 85 die (seedDraws 32 die (startLanes die s1))

/-- RELEASE_BLOCK (R225). -/
def execReleaseBlock (t die : Nat) (s : State) : Host.Outcome State Fault Refusal :=
  .next (settleLedger (serveEntropy die (releaseBlock die (tick t s))))

/-- BOW_RETEST (R226): a die that regains entropy serves the requests that wait. -/
def execBowRetest (t die bow : Nat) (pass : Bool) (s : State) : Host.Outcome State Fault Refusal :=
  .next (settleLedger (serveEntropy die (bowRetest die bow pass (tick t s))))

/-! ## The events -/

/-- BUS_MASTER_ENABLE_CHANGE (R118): engines that waited for the function's staged results go on, and so does a journal store that had failed (R221). -/
def execBusMasterEnableChange (t fn : Nat) (c : CommandBits) (s : State) : Host.Outcome State Fault Refusal :=
  .next (settleLedger (restartEngines (storeRecovers (busMaster fn c.bme c.mse (tick t s)))))

/-- DESCRIPTOR_TAKE (R123). -/
def execDescriptorTake (t : Nat) (s : State) : Host.Outcome State Fault Refusal := .next (settleLedger (takeOne (tick t s)))

/-- DIE_POLL (R141). -/
def execDiePoll (t die : Nat) (s : State) : Host.Outcome State Fault Refusal := .next (settleLedger (diePoll die (tick t s)))

/-- FRAGMENT_TABLE_ARRIVAL (R130). -/
def execFragmentTableArrival (t job : Nat) (table : Bytes) (s : State) : Host.Outcome State Fault Refusal :=
  .next (settleLedger (fragArrive (semOf (getJob s job).d.op) job table (tick t s)))

/-- SOURCE_ARRIVAL (R170). -/
def execSourceArrival (t job : Nat) (src : Bytes) (s : State) : Host.Outcome State Fault Refusal :=
  .next (settleLedger (sourceArrive (semOf (getJob s job).d.op) job src (tick t s)))

/-- SOURCE_READ_FAIL (R141). -/
def execSourceReadFail (t job addr : Nat) (s : State) : Host.Outcome State Fault Refusal :=
  .next (settleLedger (sourceFail (semOf (getJob s job).d.op) job addr (tick t s)))

/-- ENGINE_JOB_DONE (R176). -/
def execEngineJobDone (t job : Nat) (s : State) : Host.Outcome State Fault Refusal := .next (settleLedger (engineDone job (tick t s)))

/-- LANE_JOB_DONE (R279). -/
def execLaneJobDone (t die lane : Nat) (verified : Bool) (s : State) : Host.Outcome State Fault Refusal :=
  .next (settleLedger (laneDone die lane verified (tick t s)))

/-- ENGINE_FAULT (R46). -/
def execEngineFault (t die kind core : Nat) (s : State) : Host.Outcome State Fault Refusal :=
  .next (settleLedger (coreFault die kind core (tick t s)))

/-- LEAF_ARRIVAL (R187). -/
def execLeafArrival (t : Nat) (s : State) : Host.Outcome State Fault Refusal := .next (settleLedger (leafArrival (tick t s)))

/-- JOURNAL_PAGE_WRITE (R214). -/
def execJournalPageWrite (t : Nat) (ok : Bool) (s : State) : Host.Outcome State Fault Refusal :=
  .next (settleLedger (journalPageWrite ok (tick t s)))

/-- DIE_ROOT_RETURN (R193). -/
def execDieRootReturn (t die tenant epoch : Nat) (s : State) : Host.Outcome State Fault Refusal :=
  .next (settleLedger (dieRoot die tenant epoch (tick t s)))

/-- DIE_ROOT_REBUILD (R216). -/
def execDieRootRebuild (t die tenant epoch : Nat) (ok : Bool) (s : State) : Host.Outcome State Fault Refusal :=
  .next (settleLedger (dieRootRebuild die tenant epoch ok (tick t s)))

/-- HOST_ROOT_DEADLINE (R213). -/
def execHostRootDeadline (t : Nat) (x : HostDeadline) (s : State) : Host.Outcome State Fault Refusal :=
  .next (settleLedger (hostDeadline x.tenant x.ok (tick t s)))

/-- COLLECTOR_BATCH_SEND (R190). -/
def execCollectorBatchSend (t die : Nat) (s : State) : Host.Outcome State Fault Refusal := .next (settleLedger (sendResults die (tick t s)))

/-- BATCH_SIGNED (R198). -/
def execBatchSigned (t : Nat) (s : State) : Host.Outcome State Fault Refusal := .next (settleLedger (signBatch (tick t s)))

/-- WORLD_RESTART_DONE (R409). -/
def execWorldRestartDone (t die world : Nat) (ok : Bool) (s : State) : Host.Outcome State Fault Refusal :=
  let s1 := restartDone die world ok (tick t s)
  .next (settleLedger (if die = 0 ∧ (world = 1 ∨ world = 2) then resumeWorld world s1 else s1))

end Sys2Proof.Machine
end

