-- ==== Sys2Proof/Machine/Descriptors.lean ====
section
/-! DEFINITION. The descriptor rows of the command table: one meaning for each opcode, all of one shape (log entry 50). -/

namespace Sys2Proof.Machine

/-- INVALID_OPCODE (R12): a descriptor whose opcode its queue does not accept. -/
def execInvalidOpcode (x : Sub) (s : State) : Host.Outcome State Fault Refusal :=
  .next (if opAccepted x.d.op x.q.ring then tick x.t s else runDesc x.d x (tick x.t s))

/-- NOP (R40). -/
def execNop (x : Sub) (s : State) : Host.Outcome State Fault Refusal := .next (runOp 0x00 x s)

/-- SEAL (R165). -/
def execSeal (x : Sub) (s : State) : Host.Outcome State Fault Refusal := .next (runOp 0x10 x s)

/-- SEAL_DIGEST (R165). -/
def execSealDigest (x : Sub) (s : State) : Host.Outcome State Fault Refusal := .next (runOp 0x11 x s)

/-- VERIFY_SEAL (R172). -/
def execVerifySeal (x : Sub) (s : State) : Host.Outcome State Fault Refusal := .next (runOp 0x12 x s)

/-- MAC (R173). -/
def execMac (x : Sub) (s : State) : Host.Outcome State Fault Refusal := .next (runOp 0x13 x s)

/-- DRAW (R240). -/
def execDraw (x : Sub) (s : State) : Host.Outcome State Fault Refusal := .next (runOp 0x20 x s)

/-- SHUFFLE (R240). -/
def execShuffle (x : Sub) (s : State) : Host.Outcome State Fault Refusal := .next (runOp 0x21 x s)

/-- RANDOM (R236). -/
def execRandom (x : Sub) (s : State) : Host.Outcome State Fault Refusal := .next (runOp 0x22 x s)

/-- SIGN (R267). -/
def execSign (x : Sub) (s : State) : Host.Outcome State Fault Refusal := .next (runOp 0x30 x s)

/-- VERIFY (R270). -/
def execVerify (x : Sub) (s : State) : Host.Outcome State Fault Refusal := .next (runOp 0x31 x s)

/-- ECDH (R272). -/
def execEcdh (x : Sub) (s : State) : Host.Outcome State Fault Refusal := .next (runOp 0x32 x s)

/-- LEDGER_PROOF (R206). -/
def execLedgerProof (x : Sub) (s : State) : Host.Outcome State Fault Refusal := .next (runOp 0x40 x s)

/-- STAMP (R84). -/
def execStamp (x : Sub) (s : State) : Host.Outcome State Fault Refusal := .next (runOp 0x50 x s)

/-- KEY_DERIVE (R303). -/
def execKeyDerive (x : Sub) (s : State) : Host.Outcome State Fault Refusal := .next (runOp 0x80 x s)

/-- KEY_GENERATE (R303). -/
def execKeyGenerate (x : Sub) (s : State) : Host.Outcome State Fault Refusal := .next (runOp 0x81 x s)

/-- KEY_IMPORT (R303). -/
def execKeyImport (x : Sub) (s : State) : Host.Outcome State Fault Refusal := .next (runOp 0x82 x s)

/-- KEY_EXPORT (R308). -/
def execKeyExport (x : Sub) (s : State) : Host.Outcome State Fault Refusal := .next (runOp 0x83 x s)

/-- KEY_ROTATE (R306). -/
def execKeyRotate (x : Sub) (s : State) : Host.Outcome State Fault Refusal := .next (runOp 0x84 x s)

/-- KEY_DESTROY (R307). -/
def execKeyDestroy (x : Sub) (s : State) : Host.Outcome State Fault Refusal := .next (runOp 0x85 x s)

/-- KEY_INFO (R308). -/
def execKeyInfo (x : Sub) (s : State) : Host.Outcome State Fault Refusal := .next (runOp 0x86 x s)

/-- KEY_PUBLIC (R308). -/
def execKeyPublic (x : Sub) (s : State) : Host.Outcome State Fault Refusal := .next (runOp 0x87 x s)

/-- KEY_AGREE (R303). -/
def execKeyAgree (x : Sub) (s : State) : Host.Outcome State Fault Refusal := .next (runOp 0x88 x s)

/-- KEY_COMPONENT (R303). -/
def execKeyComponent (x : Sub) (s : State) : Host.Outcome State Fault Refusal := .next (runOp 0x89 x s)

/-- TENANT_RETIRE (R318). -/
def execTenantRetire (x : Sub) (s : State) : Host.Outcome State Fault Refusal := .next (runOp 0x8A x s)

/-- KEY_PACKAGE_INIT (R317). -/
def execKeyPackageInit (x : Sub) (s : State) : Host.Outcome State Fault Refusal := .next (runOp 0x8B x s)

/-- QUORUM_OPEN (R312). -/
def execQuorumOpen (x : Sub) (s : State) : Host.Outcome State Fault Refusal := .next (runOp 0x8C x s)

/-- QUORUM_STATUS (R312). -/
def execQuorumStatus (x : Sub) (s : State) : Host.Outcome State Fault Refusal := .next (runOp 0x8D x s)

/-- QUORUM_CANCEL (R312). -/
def execQuorumCancel (x : Sub) (s : State) : Host.Outcome State Fault Refusal := .next (runOp 0x8E x s)

/-- ROLE_SET (R311). -/
def execRoleSet (x : Sub) (s : State) : Host.Outcome State Fault Refusal := .next (runOp 0x8F x s)

/-- EPC_BEACON (R61). -/
def execEpcBeacon (x : Sub) (s : State) : Host.Outcome State Fault Refusal := .next (runOp 0x90 x s)

/-- EPC_QUERY (R86). -/
def execEpcQuery (x : Sub) (s : State) : Host.Outcome State Fault Refusal := .next (runOp 0x91 x s)

/-- GAME_CLOSE_SET (R82). -/
def execGameCloseSet (x : Sub) (s : State) : Host.Outcome State Fault Refusal := .next (runOp 0x92 x s)

/-- GAME_CLOSE_READ (R83). -/
def execGameCloseRead (x : Sub) (s : State) : Host.Outcome State Fault Refusal := .next (runOp 0x93 x s)

/-- EPC_CONFIGURE (R87). -/
def execEpcConfigure (x : Sub) (s : State) : Host.Outcome State Fault Refusal := .next (runOp 0x94 x s)

/-- EPC_EPOCH_SETUP (R88). -/
def execEpcEpochSetup (x : Sub) (s : State) : Host.Outcome State Fault Refusal := .next (runOp 0x95 x s)

/-- EPC_AUTHORITY_SET (R316). -/
def execEpcAuthoritySet (x : Sub) (s : State) : Host.Outcome State Fault Refusal := .next (runOp 0x96 x s)

/-- KEY_MIGRATE (R291). -/
def execKeyMigrate (x : Sub) (s : State) : Host.Outcome State Fault Refusal := .next (runOp 0x97 x s)

/-- DRAW_QUERY (R252). -/
def execDrawQuery (x : Sub) (s : State) : Host.Outcome State Fault Refusal := .next (runOp 0x98 x s)

/-- DRAW_MAP (R251). -/
def execDrawMap (x : Sub) (s : State) : Host.Outcome State Fault Refusal := .next (runOp 0x99 x s)

/-- RNG_RESEED_SET (R233). -/
def execRngReseedSet (x : Sub) (s : State) : Host.Outcome State Fault Refusal := .next (runOp 0x9A x s)

/-- FW_QUERY (R436). -/
def execFwQuery (x : Sub) (s : State) : Host.Outcome State Fault Refusal := .next (runOp 0x9B x s)

/-- FW_ACTIVATE (R437). -/
def execFwActivate (x : Sub) (s : State) : Host.Outcome State Fault Refusal := .next (runOp 0x9C x s)

/-- CNT_CONFIGURE (R441). -/
def execCntConfigure (x : Sub) (s : State) : Host.Outcome State Fault Refusal := .next (runOp 0x9D x s)

/-- CNT_SNAPSHOT_SET (R443). -/
def execCntSnapshotSet (x : Sub) (s : State) : Host.Outcome State Fault Refusal := .next (runOp 0x9E x s)

/-- CNT_READ (R442). -/
def execCntRead (x : Sub) (s : State) : Host.Outcome State Fault Refusal := .next (runOp 0x9F x s)

/-- LDG_RING_CREATE (R201). -/
def execLdgRingCreate (x : Sub) (s : State) : Host.Outcome State Fault Refusal := .next (runOp 0xA0 x s)

/-- LDG_RING_DESTROY (R201). -/
def execLdgRingDestroy (x : Sub) (s : State) : Host.Outcome State Fault Refusal := .next (runOp 0xA1 x s)

/-- LDG_CONFIGURE (R197). -/
def execLdgConfigure (x : Sub) (s : State) : Host.Outcome State Fault Refusal := .next (runOp 0xA2 x s)

/-- LDG_READ (R205). -/
def execLdgRead (x : Sub) (s : State) : Host.Outcome State Fault Refusal := .next (runOp 0xA4 x s)

/-- LDG_ROOT_SUBMIT (R211). -/
def execLdgRootSubmit (x : Sub) (s : State) : Host.Outcome State Fault Refusal := .next (runOp 0xA5 x s)

/-- LDG_ROOT_PROVE (R212). -/
def execLdgRootProve (x : Sub) (s : State) : Host.Outcome State Fault Refusal := .next (runOp 0xA6 x s)

/-- LDG_QUIESCE (R218). -/
def execLdgQuiesce (x : Sub) (s : State) : Host.Outcome State Fault Refusal := .next (runOp 0xA7 x s)

/-- TMP_CONFIGURE (R393). -/
def execTmpConfigure (x : Sub) (s : State) : Host.Outcome State Fault Refusal := .next (runOp 0xA8 x s)

/-- TMP_MONITOR_TEST (R392). -/
def execTmpMonitorTest (x : Sub) (s : State) : Host.Outcome State Fault Refusal := .next (runOp 0xA9 x s)

/-- TMP_LOG_READ (R399). -/
def execTmpLogRead (x : Sub) (s : State) : Host.Outcome State Fault Refusal := .next (runOp 0xAA x s)

/-- TMP_EVENT_READ (R400). -/
def execTmpEventRead (x : Sub) (s : State) : Host.Outcome State Fault Refusal := .next (runOp 0xAB x s)

/-- TMP_UNLOCK (R395). -/
def execTmpUnlock (x : Sub) (s : State) : Host.Outcome State Fault Refusal := .next (runOp 0xAC x s)

/-- CNT_SAMPLE_CONFIGURE (R444). -/
def execCntSampleConfigure (x : Sub) (s : State) : Host.Outcome State Fault Refusal := .next (runOp 0xAD x s)

/-- CNT_SAMPLE_READ (R446). -/
def execCntSampleRead (x : Sub) (s : State) : Host.Outcome State Fault Refusal := .next (runOp 0xAE x s)

/-- PKE_CURVE_LOAD (R264). -/
def execPkeCurveLoad (x : Sub) (s : State) : Host.Outcome State Fault Refusal := .next (runOp 0xB0 x s)

/-- PKE_CURVE_UNLOAD (R265). -/
def execPkeCurveUnload (x : Sub) (s : State) : Host.Outcome State Fault Refusal := .next (runOp 0xB1 x s)

/-- PKE_CURVE_READ (R265). -/
def execPkeCurveRead (x : Sub) (s : State) : Host.Outcome State Fault Refusal := .next (runOp 0xB2 x s)

/-- PWR_RETAIN (R462). -/
def execPwrRetain (x : Sub) (s : State) : Host.Outcome State Fault Refusal := .next (runOp 0xB4 x s)

/-- PWR_RESET (R469). -/
def execPwrReset (x : Sub) (s : State) : Host.Outcome State Fault Refusal := .next (runOp 0xB5 x s)

/-- LCS_TRANSITION (R355). -/
def execLcsTransition (x : Sub) (s : State) : Host.Outcome State Fault Refusal := .next (runOp 0xB8 x s)

/-- LCS_TOKEN_SET (R353). -/
def execLcsTokenSet (x : Sub) (s : State) : Host.Outcome State Fault Refusal := .next (runOp 0xB9 x s)

/-- LCS_RETURN_UNLOCK (R363). -/
def execLcsReturnUnlock (x : Sub) (s : State) : Host.Outcome State Fault Refusal := .next (runOp 0xBA x s)

/-- DBG_CHALLENGE (R365). -/
def execDbgChallenge (x : Sub) (s : State) : Host.Outcome State Fault Refusal := .next (runOp 0xBB x s)

/-- DBG_GRANT (R367). -/
def execDbgGrant (x : Sub) (s : State) : Host.Outcome State Fault Refusal := .next (runOp 0xBC x s)

/-- DBG_REVOKE (R369). -/
def execDbgRevoke (x : Sub) (s : State) : Host.Outcome State Fault Refusal := .next (runOp 0xBD x s)

/-- INSTANCE_CREATE (R104). -/
def execInstanceCreate (x : Sub) (s : State) : Host.Outcome State Fault Refusal := .next (runOp 0xC0 x s)

/-- INSTANCE_DESTROY (R106). -/
def execInstanceDestroy (x : Sub) (s : State) : Host.Outcome State Fault Refusal := .next (runOp 0xC1 x s)

/-- INSTANCE_RESET (R112). -/
def execInstanceReset (x : Sub) (s : State) : Host.Outcome State Fault Refusal := .next (runOp 0xC2 x s)

/-- INSTANCE_SHARE (R109). -/
def execInstanceShare (x : Sub) (s : State) : Host.Outcome State Fault Refusal := .next (runOp 0xC3 x s)

/-- SPLIT_SET (R111). -/
def execSplitSet (x : Sub) (s : State) : Host.Outcome State Fault Refusal := .next (runOp 0xC4 x s)

/-- INSTANCE_QUERY (R107). -/
def execInstanceQuery (x : Sub) (s : State) : Host.Outcome State Fault Refusal := .next (runOp 0xC5 x s)

/-- TENANT_GRANT (R108). -/
def execTenantGrant (x : Sub) (s : State) : Host.Outcome State Fault Refusal := .next (runOp 0xC6 x s)

/-- RING_CREATE (R146). -/
def execRingCreate (x : Sub) (s : State) : Host.Outcome State Fault Refusal := .next (runOp 0xC8 x s)

/-- RING_DESTROY (R146). -/
def execRingDestroy (x : Sub) (s : State) : Host.Outcome State Fault Refusal := .next (runOp 0xC9 x s)

/-- CQ_CREATE (R146). -/
def execCqCreate (x : Sub) (s : State) : Host.Outcome State Fault Refusal := .next (runOp 0xCA x s)

/-- CQ_DESTROY (R146). -/
def execCqDestroy (x : Sub) (s : State) : Host.Outcome State Fault Refusal := .next (runOp 0xCB x s)

/-- SQ_CREATE (R146). -/
def execSqCreate (x : Sub) (s : State) : Host.Outcome State Fault Refusal := .next (runOp 0xCC x s)

/-- SQ_DESTROY (R146). -/
def execSqDestroy (x : Sub) (s : State) : Host.Outcome State Fault Refusal := .next (runOp 0xCD x s)

end Sys2Proof.Machine
end

