-- ==== Sys2Proof/Machine/Dispatch.lean ====
section
/-! DEFINITION. The dispatch: one arm for each command, a direct call of its meaning. -/

namespace Sys2Proof.Machine

/-- The effect of a command on everything but the queue. -/
def exec (i : Instr) (s : State) : Host.Outcome State Fault Refusal :=
  match i with
  | .nop x => Sys2Proof.Machine.execNop x s
  | .invalidOpcode x => Sys2Proof.Machine.execInvalidOpcode x s
  | .seal x => Sys2Proof.Machine.execSeal x s
  | .sealDigest x => Sys2Proof.Machine.execSealDigest x s
  | .verifySeal x => Sys2Proof.Machine.execVerifySeal x s
  | .mac x => Sys2Proof.Machine.execMac x s
  | .draw x => Sys2Proof.Machine.execDraw x s
  | .shuffle x => Sys2Proof.Machine.execShuffle x s
  | .random x => Sys2Proof.Machine.execRandom x s
  | .sign x => Sys2Proof.Machine.execSign x s
  | .verify x => Sys2Proof.Machine.execVerify x s
  | .ecdh x => Sys2Proof.Machine.execEcdh x s
  | .ledgerProof x => Sys2Proof.Machine.execLedgerProof x s
  | .stamp x => Sys2Proof.Machine.execStamp x s
  | .keyDerive x => Sys2Proof.Machine.execKeyDerive x s
  | .keyGenerate x => Sys2Proof.Machine.execKeyGenerate x s
  | .keyImport x => Sys2Proof.Machine.execKeyImport x s
  | .keyExport x => Sys2Proof.Machine.execKeyExport x s
  | .keyRotate x => Sys2Proof.Machine.execKeyRotate x s
  | .keyDestroy x => Sys2Proof.Machine.execKeyDestroy x s
  | .keyInfo x => Sys2Proof.Machine.execKeyInfo x s
  | .keyPublic x => Sys2Proof.Machine.execKeyPublic x s
  | .keyAgree x => Sys2Proof.Machine.execKeyAgree x s
  | .keyComponent x => Sys2Proof.Machine.execKeyComponent x s
  | .tenantRetire x => Sys2Proof.Machine.execTenantRetire x s
  | .keyPackageInit x => Sys2Proof.Machine.execKeyPackageInit x s
  | .quorumOpen x => Sys2Proof.Machine.execQuorumOpen x s
  | .quorumStatus x => Sys2Proof.Machine.execQuorumStatus x s
  | .quorumCancel x => Sys2Proof.Machine.execQuorumCancel x s
  | .roleSet x => Sys2Proof.Machine.execRoleSet x s
  | .epcBeacon x => Sys2Proof.Machine.execEpcBeacon x s
  | .epcQuery x => Sys2Proof.Machine.execEpcQuery x s
  | .gameCloseSet x => Sys2Proof.Machine.execGameCloseSet x s
  | .gameCloseRead x => Sys2Proof.Machine.execGameCloseRead x s
  | .epcConfigure x => Sys2Proof.Machine.execEpcConfigure x s
  | .epcEpochSetup x => Sys2Proof.Machine.execEpcEpochSetup x s
  | .epcAuthoritySet x => Sys2Proof.Machine.execEpcAuthoritySet x s
  | .keyMigrate x => Sys2Proof.Machine.execKeyMigrate x s
  | .drawQuery x => Sys2Proof.Machine.execDrawQuery x s
  | .drawMap x => Sys2Proof.Machine.execDrawMap x s
  | .rngReseedSet x => Sys2Proof.Machine.execRngReseedSet x s
  | .fwQuery x => Sys2Proof.Machine.execFwQuery x s
  | .fwActivate x => Sys2Proof.Machine.execFwActivate x s
  | .cntConfigure x => Sys2Proof.Machine.execCntConfigure x s
  | .cntSnapshotSet x => Sys2Proof.Machine.execCntSnapshotSet x s
  | .cntRead x => Sys2Proof.Machine.execCntRead x s
  | .cntSampleConfigure x => Sys2Proof.Machine.execCntSampleConfigure x s
  | .cntSampleRead x => Sys2Proof.Machine.execCntSampleRead x s
  | .ldgRingCreate x => Sys2Proof.Machine.execLdgRingCreate x s
  | .ldgRingDestroy x => Sys2Proof.Machine.execLdgRingDestroy x s
  | .ldgConfigure x => Sys2Proof.Machine.execLdgConfigure x s
  | .ldgRead x => Sys2Proof.Machine.execLdgRead x s
  | .ldgRootSubmit x => Sys2Proof.Machine.execLdgRootSubmit x s
  | .ldgRootProve x => Sys2Proof.Machine.execLdgRootProve x s
  | .ldgQuiesce x => Sys2Proof.Machine.execLdgQuiesce x s
  | .tmpConfigure x => Sys2Proof.Machine.execTmpConfigure x s
  | .tmpMonitorTest x => Sys2Proof.Machine.execTmpMonitorTest x s
  | .tmpLogRead x => Sys2Proof.Machine.execTmpLogRead x s
  | .tmpEventRead x => Sys2Proof.Machine.execTmpEventRead x s
  | .tmpUnlock x => Sys2Proof.Machine.execTmpUnlock x s
  | .pkeCurveLoad x => Sys2Proof.Machine.execPkeCurveLoad x s
  | .pkeCurveUnload x => Sys2Proof.Machine.execPkeCurveUnload x s
  | .pkeCurveRead x => Sys2Proof.Machine.execPkeCurveRead x s
  | .pwrRetain x => Sys2Proof.Machine.execPwrRetain x s
  | .pwrReset x => Sys2Proof.Machine.execPwrReset x s
  | .lcsTransition x => Sys2Proof.Machine.execLcsTransition x s
  | .lcsTokenSet x => Sys2Proof.Machine.execLcsTokenSet x s
  | .lcsReturnUnlock x => Sys2Proof.Machine.execLcsReturnUnlock x s
  | .dbgChallenge x => Sys2Proof.Machine.execDbgChallenge x s
  | .dbgGrant x => Sys2Proof.Machine.execDbgGrant x s
  | .dbgRevoke x => Sys2Proof.Machine.execDbgRevoke x s
  | .instanceCreate x => Sys2Proof.Machine.execInstanceCreate x s
  | .instanceDestroy x => Sys2Proof.Machine.execInstanceDestroy x s
  | .instanceReset x => Sys2Proof.Machine.execInstanceReset x s
  | .instanceShare x => Sys2Proof.Machine.execInstanceShare x s
  | .splitSet x => Sys2Proof.Machine.execSplitSet x s
  | .instanceQuery x => Sys2Proof.Machine.execInstanceQuery x s
  | .tenantGrant x => Sys2Proof.Machine.execTenantGrant x s
  | .ringCreate x => Sys2Proof.Machine.execRingCreate x s
  | .ringDestroy x => Sys2Proof.Machine.execRingDestroy x s
  | .cqCreate x => Sys2Proof.Machine.execCqCreate x s
  | .cqDestroy x => Sys2Proof.Machine.execCqDestroy x s
  | .sqCreate x => Sys2Proof.Machine.execSqCreate x s
  | .sqDestroy x => Sys2Proof.Machine.execSqDestroy x s
  | .ringDoorbell t q tail => Sys2Proof.Machine.execRingDoorbell t q tail s
  | .ringInvalidate t q from_ => Sys2Proof.Machine.execRingInvalidate t q from_ s
  | .ringEnable t q => Sys2Proof.Machine.execRingEnable t q s
  | .ringDisable t q => Sys2Proof.Machine.execRingDisable t q s
  | .ringCqHead t fn c head => Sys2Proof.Machine.execRingCqHead t fn c head s
  | .ringCqMod t fn c value => Sys2Proof.Machine.execRingCqMod t fn c value s
  | .ringPollWrite t die value => Sys2Proof.Machine.execRingPollWrite t die value s
  | .pfAdminConfigWrite t off len value => Sys2Proof.Machine.execPfAdminConfigWrite t off len value s
  | .ldgJsEnable t value => Sys2Proof.Machine.execLdgJsEnable t value s
  | .pwrWake t value => Sys2Proof.Machine.execPwrWake t value s
  | .registerWrite t fn off len value => Sys2Proof.Machine.execRegisterWrite t fn off len value s
  | .pairLatchRead t p len => Sys2Proof.Machine.execPairLatchRead t p len s
  | .descriptorArrival t q first ds => Sys2Proof.Machine.execDescriptorArrival t q first ds s
  | .descriptorFetchFail t q idx err => Sys2Proof.Machine.execDescriptorFetchFail t q idx err s
  | .descriptorTake t => Sys2Proof.Machine.execDescriptorTake t s
  | .psnReservationWritten t => Sys2Proof.Machine.execPsnReservationWritten t s
  | .diePoll t die => Sys2Proof.Machine.execDiePoll t die s
  | .fragmentTableArrival t job table => Sys2Proof.Machine.execFragmentTableArrival t job table s
  | .sourceArrival t job src => Sys2Proof.Machine.execSourceArrival t job src s
  | .sourceReadFail t job addr => Sys2Proof.Machine.execSourceReadFail t job addr s
  | .engineJobDone t job => Sys2Proof.Machine.execEngineJobDone t job s
  | .collectorBatchSend t die => Sys2Proof.Machine.execCollectorBatchSend t die s
  | .leafArrival t => Sys2Proof.Machine.execLeafArrival t s
  | .completionPost t fn c => Sys2Proof.Machine.execCompletionPost t fn c s
  | .cqTimerExpiry t fn c => Sys2Proof.Machine.execCqTimerExpiry t fn c s
  | .invHoldTimeout t q => Sys2Proof.Machine.execInvHoldTimeout t q s
  | .ppsEdge t width rising => Sys2Proof.Machine.execPpsEdge t width rising s
  | .ppsTimeout t => Sys2Proof.Machine.execPpsTimeout t s
  | .tclkFault t => Sys2Proof.Machine.execTclkFault t s
  | .tclkRecovery t => Sys2Proof.Machine.execTclkRecovery t s
  | .pllLock t => Sys2Proof.Machine.execPllLock t s
  | .beaconGraceExpiry t => Sys2Proof.Machine.execBeaconGraceExpiry t s
  | .uncLimitReached t => Sys2Proof.Machine.execUncLimitReached t s
  | .acquisitionOverdue t => Sys2Proof.Machine.execAcquisitionOverdue t s
  | .timingWord t die epoch => Sys2Proof.Machine.execTimingWord t die epoch s
  | .offsetCheck t die offset => Sys2Proof.Machine.execOffsetCheck t die offset s
  | .epochBoundary t => Sys2Proof.Machine.execEpochBoundary t s
  | .stagingAck t die target => Sys2Proof.Machine.execStagingAck t die target s
  | .fenceConfirm t target => Sys2Proof.Machine.execFenceConfirm t target s
  | .confirmFlit t die target => Sys2Proof.Machine.execConfirmFlit t die target s
  | .scheduledDrawExecute t drawId => Sys2Proof.Machine.execScheduledDrawExecute t drawId s
  | .drawPlacement t job => Sys2Proof.Machine.execDrawPlacement t job s
  | .dieRootReturn t die tenant epoch => Sys2Proof.Machine.execDieRootReturn t die tenant epoch s
  | .dieRootRebuild t die tenant epoch ok => Sys2Proof.Machine.execDieRootRebuild t die tenant epoch ok s
  | .batchSigned t => Sys2Proof.Machine.execBatchSigned t s
  | .hostRootDeadline t x => Sys2Proof.Machine.execHostRootDeadline t x s
  | .journalPageWrite t ok => Sys2Proof.Machine.execJournalPageWrite t ok s
  | .checkpointOverdue t => Sys2Proof.Machine.execCheckpointOverdue t s
  | .ledgerLeafMessage t ring => Sys2Proof.Machine.execLedgerLeafMessage t ring s
  | .laneYield t die lane remaining need => Sys2Proof.Machine.execLaneYield t die lane remaining need s
  | .laneJobDone t die lane verified => Sys2Proof.Machine.execLaneJobDone t die lane verified s
  | .curveFetchDone t die tenant table => Sys2Proof.Machine.execCurveFetchDone t die tenant table s
  | .engineFault t die kind core => Sys2Proof.Machine.execEngineFault t die kind core s
  | .memoryError t die w code unit addr => Sys2Proof.Machine.execMemoryError t die w code unit addr s
  | .flitReceive t die port flit worst => Sys2Proof.Machine.execFlitReceive t die port flit worst s
  | .keepaliveTimer t die port => Sys2Proof.Machine.execKeepaliveTimer t die port s
  | .linkSilenceTimeout t die port => Sys2Proof.Machine.execLinkSilenceTimeout t die port s
  | .portRetrainDone t die port width => Sys2Proof.Machine.execPortRetrainDone t die port width s
  | .upstreamTimeout t die => Sys2Proof.Machine.execUpstreamTimeout t die s
  | .mandrelWatchdog t die => Sys2Proof.Machine.execMandrelWatchdog t die s
  | .crownFault t => Sys2Proof.Machine.execCrownFault t s
  | .hypervisorWatchdog t => Sys2Proof.Machine.execHypervisorWatchdog t s
  | .worldException t die world trigger => Sys2Proof.Machine.execWorldException t die world trigger s
  | .heartbeatMiss t die world => Sys2Proof.Machine.execHeartbeatMiss t die world s
  | .worldRestartDone t die world ok => Sys2Proof.Machine.execWorldRestartDone t die world ok s
  | .gate t die index regs mbox => Sys2Proof.Machine.execGate t die index regs mbox s
  | .gateRet t die a0 a1 => Sys2Proof.Machine.execGateRet t die a0 a1 s
  | .worldInterrupt t die world => Sys2Proof.Machine.execWorldInterrupt t die world s
  | .accessRefused t die a => Sys2Proof.Machine.execAccessRefused t die a s
  | .debugAccess t die a halt => Sys2Proof.Machine.execDebugAccess t die a halt s
  | .gatingRequest t die block want => Sys2Proof.Machine.execGatingRequest t die block want s
  | .claimRelease t die block => Sys2Proof.Machine.execClaimRelease t die block s
  | .gatingRequestOverdue t die block => Sys2Proof.Machine.execGatingRequestOverdue t die block s
  | .dieIdleEntry t die => Sys2Proof.Machine.execDieIdleEntry t die s
  | .bowTestFail t die bow test => Sys2Proof.Machine.execBowTestFail t die bow test s
  | .bowRetest t die bow pass => Sys2Proof.Machine.execBowRetest t die bow pass s
  | .releaseBlock t die => Sys2Proof.Machine.execReleaseBlock t die s
  | .entropyWaitTimeout t job => Sys2Proof.Machine.execEntropyWaitTimeout t job s
  | .entropyReady t die => Sys2Proof.Machine.execEntropyReady t die s
  | .shieldReseed t die => Sys2Proof.Machine.execShieldReseed t die s
  | .imageWriteDone t => Sys2Proof.Machine.execImageWriteDone t s
  | .flashWaitTimeout t job => Sys2Proof.Machine.execFlashWaitTimeout t job s
  | .generationDrop t die slot => Sys2Proof.Machine.execGenerationDrop t die slot s
  | .quorumWindowEnd t role => Sys2Proof.Machine.execQuorumWindowEnd t role s
  | .imprintPass t die starting overran => Sys2Proof.Machine.execImprintPass t die starting overran s
  | .lkInvert t => Sys2Proof.Machine.execLkInvert t s
  | .cardInsert t port => Sys2Proof.Machine.execCardInsert t port s
  | .cardPowerTimer t port => Sys2Proof.Machine.execCardPowerTimer t port s
  | .cardResponse t port frame => Sys2Proof.Machine.execCardResponse t port frame s
  | .cardWaitByte t port => Sys2Proof.Machine.execCardWaitByte t port s
  | .cardDataBlock t port data crcOk => Sys2Proof.Machine.execCardDataBlock t port data crcOk s
  | .cardCrcToken t port token => Sys2Proof.Machine.execCardCrcToken t port token s
  | .cardBusyRelease t port => Sys2Proof.Machine.execCardBusyRelease t port s
  | .cardTimeout t port => Sys2Proof.Machine.execCardTimeout t port s
  | .cardCheckDone t port => Sys2Proof.Machine.execCardCheckDone t port s
  | .cardRemove t port => Sys2Proof.Machine.execCardRemove t port s
  | .tamperAlarm t code die inst detail => Sys2Proof.Machine.execTamperAlarm t code die inst detail s
  | .liningAlarm t code detail ticks => Sys2Proof.Machine.execLiningAlarm t code detail ticks s
  | .tamperLogProgram t ok => Sys2Proof.Machine.execTamperLogProgram t ok s
  | .eventRecordWrite t => Sys2Proof.Machine.execEventRecordWrite t s
  | .monitorTestResult t code die inst pass => Sys2Proof.Machine.execMonitorTestResult t code die inst pass s
  | .xtalCheck t ok => Sys2Proof.Machine.execXtalCheck t ok s
  | .hatterWatchdog t exception => Sys2Proof.Machine.execHatterWatchdog t exception s
  | .sensorSample t readings => Sys2Proof.Machine.execSensorSample t readings s
  | .mctpPacket t binding pkt pecOk => Sys2Proof.Machine.execMctpPacket t binding pkt pecOk s
  | .mctpAssemblyTimeout t binding => Sys2Proof.Machine.execMctpAssemblyTimeout t binding s
  | .smbusTimeout t => Sys2Proof.Machine.execSmbusTimeout t s
  | .setEndpointId t binding op eid => Sys2Proof.Machine.execSetEndpointId t binding op eid s
  | .getEndpointId t binding => Sys2Proof.Machine.execGetEndpointId t binding s
  | .getEndpointUuid t binding => Sys2Proof.Machine.execGetEndpointUuid t binding s
  | .getMctpVersionSupport t binding msgType => Sys2Proof.Machine.execGetMctpVersionSupport t binding msgType s
  | .getMessageTypeSupport t binding => Sys2Proof.Machine.execGetMessageTypeSupport t binding s
  | .getTid t binding => Sys2Proof.Machine.execGetTid t binding s
  | .setTid t binding tid => Sys2Proof.Machine.execSetTid t binding tid s
  | .getPldmVersion t binding pldmType => Sys2Proof.Machine.execGetPldmVersion t binding pldmType s
  | .getPldmTypes t binding => Sys2Proof.Machine.execGetPldmTypes t binding s
  | .getPldmCommands t binding pldmType => Sys2Proof.Machine.execGetPldmCommands t binding pldmType s
  | .getPdrRepositoryInfo t binding => Sys2Proof.Machine.execGetPdrRepositoryInfo t binding s
  | .getPdr t binding record => Sys2Proof.Machine.execGetPdr t binding record s
  | .getSensorReading t binding sensor => Sys2Proof.Machine.execGetSensorReading t binding sensor s
  | .getStateSensorReadings t binding sensor => Sys2Proof.Machine.execGetStateSensorReadings t binding sensor s
  | .setEventReceiver t binding enable eid => Sys2Proof.Machine.execSetEventReceiver t binding enable eid s
  | .pollForPlatformEventMessage t binding => Sys2Proof.Machine.execPollForPlatformEventMessage t binding s
  | .queryDeviceIdentifiers t binding => Sys2Proof.Machine.execQueryDeviceIdentifiers t binding s
  | .getFirmwareParameters t binding => Sys2Proof.Machine.execGetFirmwareParameters t binding s
  | .requestUpdate t binding maxTransfer => Sys2Proof.Machine.execRequestUpdate t binding maxTransfer s
  | .passComponentTable t binding component svn => Sys2Proof.Machine.execPassComponentTable t binding component svn s
  | .updateComponent t binding component size => Sys2Proof.Machine.execUpdateComponent t binding component size s
  | .firmwareDataReceived t binding data => Sys2Proof.Machine.execFirmwareDataReceived t binding data s
  | .activateFirmware t binding => Sys2Proof.Machine.execActivateFirmware t binding s
  | .getStatus t binding => Sys2Proof.Machine.execGetStatus t binding s
  | .cancelUpdateComponent t binding => Sys2Proof.Machine.execCancelUpdateComponent t binding s
  | .cancelUpdate t binding => Sys2Proof.Machine.execCancelUpdate t binding s
  | .getVersion t binding => Sys2Proof.Machine.execGetVersion t binding s
  | .getCapabilities t binding req => Sys2Proof.Machine.execGetCapabilities t binding req s
  | .negotiateAlgorithms t binding req => Sys2Proof.Machine.execNegotiateAlgorithms t binding req s
  | .getDigests t binding => Sys2Proof.Machine.execGetDigests t binding s
  | .getCertificate t binding slot offset length => Sys2Proof.Machine.execGetCertificate t binding slot offset length s
  | .challenge t binding slot nonce => Sys2Proof.Machine.execChallenge t binding slot nonce s
  | .getMeasurements t binding index signed nonce => Sys2Proof.Machine.execGetMeasurements t binding index signed nonce s
  | .fwSampleTimer t die world address => Sys2Proof.Machine.execFwSampleTimer t die world address s
  | .supplyWarning t rail die mv => Sys2Proof.Machine.execSupplyWarning t rail die mv s
  | .supplyRecovery t rail die => Sys2Proof.Machine.execSupplyRecovery t rail die s
  | .supplyReset t rail die => Sys2Proof.Machine.execSupplyReset t rail die s
  | .powerOn t => Sys2Proof.Machine.execPowerOn t s
  | .perstAssert t width => Sys2Proof.Machine.execPerstAssert t width s
  | .perstRelease t => Sys2Proof.Machine.execPerstRelease t s
  | .measurement t => Sys2Proof.Machine.execMeasurement t s
  | .bandBringup t trained => Sys2Proof.Machine.execBandBringup t trained s
  | .brimBoot t => Sys2Proof.Machine.execBrimBoot t s
  | .keystoreRestore t => Sys2Proof.Machine.execKeystoreRestore t s
  | .entropyStartup t die kat passing => Sys2Proof.Machine.execEntropyStartup t die kat passing s
  | .startupStepOverrun t step us => Sys2Proof.Machine.execStartupStepOverrun t step us s
  | .retainEntry t => Sys2Proof.Machine.execRetainEntry t s
  | .retainDrawWake t => Sys2Proof.Machine.execRetainDrawWake t s
  | .wakeDone t checkOk => Sys2Proof.Machine.execWakeDone t checkOk s
  | .liningPowerLoss t => Sys2Proof.Machine.execLiningPowerLoss t s
  | .otpWordProgrammed t ok => Sys2Proof.Machine.execOtpWordProgrammed t ok s
  | .flr t fn => Sys2Proof.Machine.execFlr t fn s
  | .vfEnableClear t => Sys2Proof.Machine.execVfEnableClear t s
  | .hotReset t => Sys2Proof.Machine.execHotReset t s
  | .busMasterEnableChange t fn c => Sys2Proof.Machine.execBusMasterEnableChange t fn c s
  | .d3hotEntry t fn => Sys2Proof.Machine.execD3hotEntry t fn s
  | .d0Return t fn => Sys2Proof.Machine.execD0Return t fn s
  | .msixUnmask t fn vector => Sys2Proof.Machine.execMsixUnmask t fn vector s
  | .linkFatalError t addr => Sys2Proof.Machine.execLinkFatalError t addr s
  | .poisonedBarWrite t fn off => Sys2Proof.Machine.execPoisonedBarWrite t fn off s
  | .linkTrained t width speed => Sys2Proof.Machine.execLinkTrained t width speed s
  | .liningPowerOn t => Sys2Proof.Machine.execLiningPowerOn t s
  | .powerRemovalBetweenAttempts t port => Sys2Proof.Machine.execPowerRemovalBetweenAttempts t port s
  | .monitorAlarmEnd t code die => Sys2Proof.Machine.execMonitorAlarmEnd t code die s
  | .hatterRestartDone t => Sys2Proof.Machine.execHatterRestartDone t s
  | .packageResetBegin t => Sys2Proof.Machine.execPackageResetBegin t s
  | .vfEnableSet t x => Sys2Proof.Machine.execVfEnableSet t x s
  | .slotRefetchDone t die slot => Sys2Proof.Machine.execSlotRefetchDone t die slot s
  | .instanceResetDone t fn => Sys2Proof.Machine.execInstanceResetDone t fn s
  | .counterSaturation t die counter => Sys2Proof.Machine.execCounterSaturation t die counter s

end Sys2Proof.Machine
end

