-- ==== Sys2Proof/Safety.lean ====
section
/-! DEFINITION. What counts as a safe run, and the terms in which statements speak of descriptor rows: the job of a row, the conditions under
which its queue gives it up and its admission finds no fault, and the states at its admission, with its source held and at its engine. -/

namespace Sys2Proof.Safety

open Sys2Proof.Machine

/-- The step from a state goes on to a next state: it neither faults nor refuses. -/
def GoesOn (s : State) : Prop := ∃ t, step s = .next t

/-- The part has all its dies, and no die beyond them (R1, R20). -/
def DiesComplete (s : State) : Prop := s.dies.length = dieCount s

/-- JOB_ID of the job that a descriptor row takes. -/
def jobOf (x : Sub) (s : State) : Nat := (tick x.t s).nextJob

/-- The state in which the dispatcher's turn at the row's instant falls on the entry: the take is counted (R136, R139). -/
def turnState (op : Nat) (x : Sub) (s : State) : State := (taking x.q (x.d.withOp op) (tick x.t s)).getD (tick x.t s)

/-- The state just after the take of a descriptor row (R123). -/
def takenState (op : Nat) (x : Sub) (s : State) : State := (takeEntry x.q (x.d.withOp op) (turnState op x s)).2

/-- The state in which the admission checks of a service or admin command run (R35). -/
def admission0 (op : Nat) (x : Sub) (s : State) : State := admitState (jobOf x s) (takenState op x s)

/-- The job as its admission sees it. -/
def admittedAs (op : Nat) (x : Sub) (s : State) : Job :=
  admittedJob (takenState op x s) (getJob (takenState op x s) (jobOf x s))

/-- The dispatcher takes the entry at the row's instant: the queue may give it up, and the turn is the queue's (R123, R136, R137, R139). -/
def Takes (op : Nat) (x : Sub) (s : State) : Prop := (taking x.q (x.d.withOp op) (tick x.t s)).isSome = true

/-- A command reaches its admission at its take: its queue is a service queue or an admin ring that accepts the opcode, and its world of the
Crown does not restart (R12, R405, R410). -/
def Reaches (op : Nat) (x : Sub) (s : State) : Prop :=
  Takes op x s ∧ queueKind x.q.ring ≠ 0 ∧ opAccepted op x.q.ring = true
    ∧ (worldOf op = 0 ∨ (getWorld (takenState op x s) 0 (worldOf op)).st ≠ 1)

/-- A command whose admission finds nothing wrong (R18, R504), with no source to read. -/
def Accepted (op : Nat) (x : Sub) (s : State) : Prop :=
  Reaches op x s ∧ admission (fullSem op) (admission0 op x s) (admittedAs op x s) = none
    ∧ ((fullSem op).src = false ∨ (x.d.withOp op).srcLen = 0)

/-- A command whose admission finds nothing wrong and whose source, named directly, arrives whole (R141). -/
def AcceptedSrc (op : Nat) (x : Sub) (s : State) : Prop :=
  Reaches op x s ∧ admission (fullSem op) (admission0 op x s) (admittedAs op x s) = none
    ∧ (fullSem op).src = true ∧ (x.d.withOp op).srcLen ≠ 0 ∧ (x.d.withOp op).indirect = false ∧ x.srcFail = false

/-- The state in which a command holds its source (R141): the source's instant has come, its bytes are counted and the job has them. -/
def sourceHeld (op : Nat) (x : Sub) (s : State) : State :=
  let a := tick x.tSrc (modJob (jobOf x s) (fun y => { y with phase := .source, srcLen := y.d.srcLen }) (admission0 op x s))
  let y := getJob a (jobOf x s)
  countOn y.die 5 y.fn y.srcLen
    (modJob (jobOf x s) (fun y => { y with phase := .engine, src := fit y.srcLen x.src, arrived := some (jobStamp a y) }) a)

/-- What follows the work of a row's job: the sequencer, the device's own signatures it waits for, and the completions of its ring. -/
def ended (x : Sub) (s v : State) : State := rowEnd x.q (getQ (tick x.t s) x.q).cq (jobOf x s) v

/-- The state in which a work-ring job is at its engine: taken, polled and admitted on its die, its source held (R141, R176). -/
def engineState (op : Nat) (x : Sub) (s : State) : State :=
  let r := takeJob x.q (x.d.withOp op) (turnState op x s)
  feed r.1 x (pollTo r.1 64 r.2)

/-- A work-ring row whose job reaches an engine at once and is served by it, and whose result finds room (R190). -/
def AtEngine (op : Nat) (x : Sub) (s : State) : Prop :=
  let e := engineState op x s
  let j := getJob e (jobOf x s)
  Takes op x s ∧ queueKind x.q.ring = 0 ∧ j.phase = .engine ∧ j.d.op = op ∧ j.ring = x.q.ring ∧ onEngine e (jobOf x s) j = true
    ∧ stalled (getDie e j.die) (outlet j).1 (outlet j).2 = false

/-- The state in which the dispatcher of its die has read the entries of the internal ring whose turn it is (R141, R142). -/
def polledState (op : Nat) (x : Sub) (s : State) : State :=
  let r := (takeJob x.q (x.d.withOp op) (turnState op x s)).2
  modDie (getJob r (jobOf x s)).die (fun d =>
    if d.turnG then { d with turnG := false, ringG := d.ringG.drop 16, consG := (d.consG + (d.ringG.take 16).length) % 512 }
    else { d with turnG := true, ringP := d.ringP.drop 16, consP := (d.consP + (d.ringP.take 16).length) % 512 }) r

/-- A work-ring row whose job stands alone in an internal ring of its die, which runs and whose turn it is, and whose admission at that poll finds
nothing wrong. -/
def AtPoll (op : Nat) (x : Sub) (s : State) : Prop :=
  let r := (takeJob x.q (x.d.withOp op) (turnState op x s)).2
  let j := getJob r (jobOf x s)
  let d := getDie r j.die
  let w := polledState op x s
  Takes op x s ∧ queueKind x.q.ring = 0 ∧ mget r.jobs (jobOf x s) = some j ∧ j.phase = .ring ∧ j.d.op = op ∧ j.die < r.dies.length ∧ d.live = true ∧ d.halted = false
    ∧ r.crownFault = false ∧ (if d.turnG then d.ringG = [jobOf x s] else d.ringP = [jobOf x s])
    ∧ admission (fullSem op) (admitState (jobOf x s) w) (admittedJob w (getJob w (jobOf x s))) = none

/-- The state in which a work-ring row's job starts, admitted at the poll of its die. -/
def polledJob (op : Nat) (x : Sub) (s : State) : State := admitState (jobOf x s) (polledState op x s)

/-- The descriptor rows of work rings, with their opcodes. -/
def workRows : List (Nat × (Sub → Instr)) :=
  [(0x00, .nop), (0x10, .seal), (0x11, .sealDigest), (0x12, .verifySeal), (0x13, .mac), (0x20, .draw), (0x21, .shuffle),
   (0x22, .random), (0x30, .sign), (0x31, .verify), (0x32, .ecdh), (0x40, .ledgerProof), (0x50, .stamp)]

/-- The descriptor rows of service queues and admin rings, with their opcodes. -/
def commandRows : List (Nat × (Sub → Instr)) :=
  [(0x80, .keyDerive), (0x81, .keyGenerate), (0x82, .keyImport), (0x83, .keyExport), (0x84, .keyRotate), (0x85, .keyDestroy),
   (0x86, .keyInfo), (0x87, .keyPublic), (0x88, .keyAgree), (0x89, .keyComponent), (0x8A, .tenantRetire), (0x8B, .keyPackageInit),
   (0x8C, .quorumOpen), (0x8D, .quorumStatus), (0x8E, .quorumCancel), (0x8F, .roleSet), (0x90, .epcBeacon), (0x91, .epcQuery),
   (0x92, .gameCloseSet), (0x93, .gameCloseRead), (0x94, .epcConfigure), (0x95, .epcEpochSetup), (0x96, .epcAuthoritySet),
   (0x97, .keyMigrate), (0x98, .drawQuery), (0x99, .drawMap), (0x9A, .rngReseedSet), (0x9B, .fwQuery), (0x9C, .fwActivate),
   (0x9D, .cntConfigure), (0x9E, .cntSnapshotSet), (0x9F, .cntRead), (0xA0, .ldgRingCreate), (0xA1, .ldgRingDestroy),
   (0xA2, .ldgConfigure), (0xA4, .ldgRead), (0xA5, .ldgRootSubmit), (0xA6, .ldgRootProve), (0xA7, .ldgQuiesce),
   (0xA8, .tmpConfigure), (0xA9, .tmpMonitorTest), (0xAA, .tmpLogRead), (0xAB, .tmpEventRead), (0xAC, .tmpUnlock),
   (0xAD, .cntSampleConfigure), (0xAE, .cntSampleRead), (0xB0, .pkeCurveLoad), (0xB1, .pkeCurveUnload), (0xB2, .pkeCurveRead),
   (0xB4, .pwrRetain), (0xB5, .pwrReset), (0xB8, .lcsTransition), (0xB9, .lcsTokenSet), (0xBA, .lcsReturnUnlock),
   (0xBB, .dbgChallenge), (0xBC, .dbgGrant), (0xBD, .dbgRevoke), (0xC0, .instanceCreate), (0xC1, .instanceDestroy),
   (0xC2, .instanceReset), (0xC3, .instanceShare), (0xC4, .splitSet), (0xC5, .instanceQuery), (0xC6, .tenantGrant),
   (0xC8, .ringCreate), (0xC9, .ringDestroy), (0xCA, .cqCreate), (0xCB, .cqDestroy), (0xCC, .sqCreate), (0xCD, .sqDestroy)]

/-- A fenced change is accepted for boundary T: the job waits at the fence and the schedule holds the changes (R37 step 1, R76). -/
def fencedFor (id tgt : Nat) (cs : List Change) (a : State) : State :=
  stagingStart (modJob id (fun y => { y with phase := .fence, target := tgt })
    { a with fence := addTarget a.fence tgt (cs.map fun c => (id, c)) })

/-- JOB of a row at its admission. -/
def admittedJobOf (op : Nat) (x : Sub) (s : State) : Job := getJob (admission0 op x s) (jobOf x s)

/-- The state after a command that completes with OK, a result and an output, its operation having left the state v. -/
def completed (x : Sub) (s : State) (result out : Bytes) (v : State) : State := ended x s (okJob (jobOf x s) result out v)

/-- The state after a fenced command accepted for boundary T with its changes; it waits for the staging (R37, R75). -/
def fencedState (op : Nat) (x : Sub) (s : State) (tgt : Nat) (cs : List Change) : State :=
  ended x s (fencedFor (jobOf x s) tgt cs (admission0 op x s))

end Sys2Proof.Safety
end

