-- ==== Sys2Proof/Certificates/Slice0/Obligations.lean ====
section
/-! DEFINITION. The statements for the provers. The premises Takes, Reaches, Accepted, AcceptedSrc, AtPoll and AtEngine, and the states they speak of,
are those of Sys2Proof/Safety.lean. Every event is at an instant t: tick t s is the machine once its clock stands there. -/

open Sys2Proof Sys2Proof.Machine Sys2Proof.Safety

/-- The step is the command at the front of the queue, acting on the machine with the rest of the queue; on an empty queue the block idles, which is the
model's own choice (log entry 52). -/
def Obligations.StepRunsTheFrontCommand : Prop := ∀ (s : State),
  (∀ c rest, s.pending = c :: rest → step s = exec c { s with pending := rest }) ∧ (s.pending = [] → step s = .next s)

/-- Every command of the table answers a next state, from every state and with every operand: none faults and none is refused. -/
def Obligations.EveryCommandGoesOn : Prop := ∀ (c : Instr) (s : State), ∃ v, exec c s = .next v

/-- R22, R467, R470: after the power-on reset the part has all its dies, and only the Crown is in service until Band bring-up; start-up stands at step 3, the
package is in neither HOLD nor RETAIN nor LOCK, time is neither acquired nor trusted, no function is ready, and no job, fenced change or command waits. -/
def Obligations.ResetState : Prop :=
  DiesComplete State.reset ∧ State.reset.pending = [] ∧ State.reset.startStep = 3 ∧ State.reset.pwrState = 0 ∧ State.reset.hold = false ∧ State.reset.locked = false
  ∧ acquired State.reset = false ∧ pkgTrusted State.reset = false ∧ State.reset.jobs = [] ∧ State.reset.fence = []
  ∧ (∀ d, d < dieCount State.reset → (getDie State.reset d).live = (d == 0)) ∧ (∀ n, (getFn State.reset n).ready = false)

/-- Every step from a state in which the part has all its dies leads to one in which it still has all of them and is the same part, and uses up exactly the
command at the front of the queue. -/
def Obligations.StepKeepsThePart : Prop := ∀ (s t : State), DiesComplete s → step s = .next t →
  DiesComplete t ∧ t.part = s.part ∧ t.pending = s.pending.tail

/-- R54, R57, R73: an edge of the inactive polarity does nothing. A pulse of the active polarity whose level holds for less than 100 ns is counted in NARROW and does
nothing else; before the PLL has locked a longer one does nothing. From then on the first edge gives the timescale its base, and the second one is accepted if it falls 1 s ± 2 µs after it
and otherwise becomes the base. Later, the first edge within ±2 µs of the predicted instant is accepted, in HOLDOVER and while slewing too: its phase error and the one before are kept,
its instant begins the next interval, slewing ends, and unless time is NOT_ACQUIRED the device is LOCKED. An edge that is not accepted is counted in OUT_OF_WINDOW,
up to 0xFFFF; outside HOLDOVER, and within the window, nothing else follows, and in HOLDOVER only the timescale changes. -/
def Obligations.PpsEdgeAccepted : Prop := ∀ (t w : Nat) (s : State), let u := tick t s
  let accepted (u : State) : State := refreshTrust { u with time := { u.time with
      phi1 := phase u u.time.now, phi2 := u.time.phi1, lastEdge := u.time.now, lastWindow := some (nearestRoll u u.time.now)
      st := if u.time.reasons.notAcquired then u.time.st else .locked, slewing := false
      residual := 0, cand := [], contraLocked := u.time.contraLocked || u.time.reasons.ppsContradict } }
  let based : State := refreshTrust { u with time := { u.time with base := some u.time.now, lastEdge := u.time.now, lastWindow := some 0 } }
  let early : Bool := inWindow u u.time.now && u.time.lastWindow != some (nearestRoll u u.time.now)
  exec (.ppsEdge t w u.ecfg.falling) s = .next (refreshTrust u)
  ∧ (w < 100 → exec (.ppsEdge t w (!u.ecfg.falling)) s = .next (refreshTrust { u with time := { u.time with narrow := min (u.time.narrow + 1) 0xFFFF } }))
  ∧ (100 ≤ w → u.time.st = .unset → exec (.ppsEdge t w (!u.ecfg.falling)) s = .next (refreshTrust u))
  ∧ (100 ≤ w → u.time.st ≠ .unset → u.time.base = none → exec (.ppsEdge t w (!u.ecfg.falling)) s = .next based)
  ∧ (∀ b, 100 ≤ w → u.time.st ≠ .unset → u.time.base = some b →
    (u.time.edgePair = false → exec (.ppsEdge t w (!u.ecfg.falling)) s = .next (if (((u.time.now - b : Nat) : Int) - 1000000000).natAbs ≤ 2000
      then accepted { u with time := { u.time with edgePair := true } } else based))
    ∧ (u.time.edgePair = true → early = true → exec (.ppsEdge t w (!u.ecfg.falling)) s = .next (accepted u))
    ∧ (u.time.edgePair = true → early = false → ∃ m, exec (.ppsEdge t w (!u.ecfg.falling)) s = .next (refreshTrust { u with time := m })
        ∧ m.outOfWindow = min (u.time.outOfWindow + 1) 0xFFFF
        ∧ (u.time.st ≠ .holdover ∨ inWindow u u.time.now = true → m = { u.time with
            outOfWindow := min (u.time.outOfWindow + 1) 0xFFFF, oowSecond := rollOf u u.time.now, oowCount := u.time.oowCount + 1 })))

/-- R54, R55, R68: a LOCKED device with no accepted edge for 1.2 s enters HOLDOVER, and otherwise the timer does nothing. A failed TCLK check sets TCLK_FAULT and the completed
recovery clears it. Once time is acquired, BEACON_GRACE seconds without a verified beacon set BEACON_STALE, and otherwise that timer does nothing; the clock's advance alone brings
UNC_LIMIT up to date. Each changes the timescale and nothing but what TRUSTED is derived from it.
R73: at start-up step 10 the first lock of the PLL begins acquisition; any other lock is only kept. While acquisition is not complete at step 10 when its next report is due, event
0x0103 with the seconds since acquisition began is recorded and the report after it is due 60 s later; otherwise nothing follows.
R39: a timing word with the Crown's epoch sets the epoch count of a live die, and any other does nothing. -/
def Obligations.TimeReasonsAndAcquisition : Prop := ∀ (t : Nat) (s : State), let u := tick t s
  exec (.ppsTimeout t) s = .next (refreshTrust (if u.time.st = .locked ∧ u.time.lastEdge + 1200000000 ≤ u.time.now
    then { u with time := { u.time with st := .holdover, cand := [] } } else u))
  ∧ exec (.tclkFault t) s = .next (refreshTrust { u with time := { u.time with pllLocked := false, reasons := { u.time.reasons with tclkFault := true } } })
  ∧ exec (.tclkRecovery t) s = .next (refreshTrust { u with time := { u.time with pllLocked := true, reasons := { u.time.reasons with tclkFault := false } } })
  ∧ exec (.beaconGraceExpiry t) s = .next (refreshTrust (if acquired u = true ∧ u.time.freshAt + u.epc.grace * 1000000000 ≤ u.time.now
    then { u with time := { u.time with reasons := { u.time.reasons with beaconStale := true } } } else u))
  ∧ exec (.uncLimitReached t) s = .next (refreshTrust u)
  ∧ (u.startStep = 10 → u.time.st = .unset → exec (.pllLock t) s = .next { u with time := { u.time with st := .acquiring, pllLocked := true } })
  ∧ (¬ (u.startStep = 10 ∧ u.time.st = .unset) → exec (.pllLock t) s = .next { u with time := { u.time with pllLocked := true } })
  ∧ exec (.acquisitionOverdue t) s = .next (if u.startStep = 10 ∧ acquired u = false ∧ u.time.acqDue ≤ u.time.now
    then recEvent 0x0103 (leBytes 4 ((u.time.now - u.time.acqStart) / 1000000000) ++ zeros 4) { u with time := { u.time with acqDue := u.time.acqDue + 60000000000 } }
    else u)
  ∧ (∀ die epoch, exec (.timingWord t die epoch) s = .next (if (getDie u die).live = true ∧ epoch = u.time.epoch
    then modDie die (fun d => { d with epoch := u.time.epoch }) u else u))

/-- R125, rows 1 to 3, 6 and 7: a doorbell with tail value w. Where the function's window acts, it is ignored if the function resets or has no instance or the queue is
ABSENT, sets DB_DROPPED if the queue is STOPPED, and otherwise moves TAIL (row 6 leaves the same TAIL in force), releases the hold and clears DONE.
The doorbell is counted by the counters of event 0x80; nothing else changes. Where the window does not act, nothing follows. -/
def Obligations.DoorbellMovesTail : Prop := ∀ (t w : Nat) (q : QRef) (s : State), let u := tick t s
  let v := countOn 0 0x80 q.fn 1 u
  let x := getQ u q
  (fnOpen u q.fn = false → exec (.ringDoorbell t q w) s = .next u)
  ∧ (fnOpen u q.fn = true →
    (((getFn u q.fn).resetting = true ∨ (getFn u q.fn).present = false ∨ x.st = .absent) → exec (.ringDoorbell t q w) s = .next v)
    ∧ ((getFn u q.fn).resetting = false → (getFn u q.fn).present = true →
      (x.st = .stopped → exec (.ringDoorbell t q w) s = .next (modQ q (fun y => { y with dropped := true }) v))
      ∧ (x.st = .disabled ∨ x.st = .running →
          (x.tail + 65536 - x.head % 65536) % 65536 ≤ (w % 65536 + 65536 - x.head % 65536) % 65536 →
          (w % 65536 + 65536 - x.head % 65536) % 65536 ≤ 2 ^ x.log2 →
          exec (.ringDoorbell t q w) s = .next (modQ q (fun y => { y with tail := w % 65536, hold := none, done := false }) v))))

/-- R125 rows 4 and 5, R126: a doorbell past the size, or one that retreats, stops the queue with cause 1 or 2. TAIL and HEAD stay, the
prefetched copies and the hold are gone, FN_EVENT.RING_STOPPED is set, no job changes and no other queue of the package does. -/
def Obligations.DoorbellStopsQueue : Prop := ∀ (t w : Nat) (q : QRef) (s : State), let u := tick t s
  let x := getQ u q
  let a := (x.tail + 65536 - x.head % 65536) % 65536
  let b := (w % 65536 + 65536 - x.head % 65536) % 65536
  fnOpen u q.fn = true → (getFn u q.fn).resetting = false → (getFn u q.fn).present = true → (x.st = .disabled ∨ x.st = .running) →
  (2 ^ x.log2 < b ∨ b < a) →
  ∃ v, exec (.ringDoorbell t q w) s = .next v
    ∧ (getQ v q).st = .stopped ∧ (getQ v q).cause = (if 2 ^ x.log2 < b then 1 else 2)
    ∧ (getQ v q).head = x.head ∧ (getQ v q).tail = x.tail ∧ (getQ v q).copies = [] ∧ (getQ v q).hold = none
    ∧ (4 < u.fnEvent.length → v.fnEvent.getD 4 false = true) ∧ v.jobs = u.jobs
    ∧ (∀ r : QRef, r ≠ q → getQ v r = getQ u r)

/-- R134, R135: RING_INVALIDATE on a queue that exists and has no hold. FROM not yet taken: copies from FROM on are discarded and the hold stands at FROM;
FROM already taken: every copy is discarded, the hold stands at HEAD and LATE is set. A failed read at or after the hold is forgotten, HEAD goes to HEAD_AT and DONE is set.
On an ABSENT queue, and where the function's window does not act, nothing follows. -/
def Obligations.InvalidatePlacesHold : Prop := ∀ (t w : Nat) (q : QRef) (s : State), let u := tick t s
  let x := getQ u q
  let fr := w % 65536
  ((fnOpen u q.fn = false ∨ x.st = .absent) → exec (.ringInvalidate t q w) s = .next u)
  ∧ (fnOpen u q.fn = true → x.st ≠ .absent → x.hold = none →
    (idxDist fr x.head ≤ idxDist x.tail x.head → exec (.ringInvalidate t q w) s = .next (modQ q (fun y => { y with
      copies := y.copies.take (idxDist fr y.head), failAt := (y.failAt.filter fun i => idxDist i y.head < idxDist fr y.head)
      hold := some fr, holdSince := u.time.now, holdNoted := false, headAt := y.head, done := true, late := false }) u))
    ∧ (idxDist x.tail x.head < idxDist fr x.head → exec (.ringInvalidate t q w) s = .next (modQ q (fun y => { y with
      copies := [], failAt := none, hold := some y.head, holdSince := u.time.now, holdNoted := false, headAt := y.head, done := true, late := true }) u)))

/-- R135: a second invalidation while a hold is in force keeps the instant of the first and moves the hold to the lower of the two indices. A hold of 1 s that has no record yet
sets HOLD_LONG and records event 0x0202; one with a record, a shorter one, and a queue without a hold do nothing. -/
def Obligations.HoldMovesDownAndIsReported : Prop := ∀ (t w h : Nat) (q : QRef) (s : State), let u := tick t s
  let x := getQ u q
  let fr := w % 65536
  (x.hold = some h → fnOpen u q.fn = true → x.st ≠ .absent →
    (idxDist fr x.head ≤ idxDist x.tail x.head → exec (.ringInvalidate t q w) s = .next (modQ q (fun y => { y with
      copies := y.copies.take (idxDist fr y.head), failAt := (y.failAt.filter fun i => idxDist i y.head < idxDist fr y.head)
      hold := some (if idxDist h x.head ≤ idxDist fr x.head then h else fr), headAt := y.head, done := true, late := false }) u))
    ∧ (idxDist x.tail x.head < idxDist fr x.head → exec (.ringInvalidate t q w) s = .next (modQ q (fun y => { y with
      copies := [], failAt := none, hold := some (if idxDist h x.head ≤ idxDist x.head x.head then h else x.head), headAt := y.head, done := true, late := true }) u)))
  ∧ (x.hold = some h → x.holdNoted = false → x.holdSince + 1000000000 ≤ u.time.now →
    exec (.invHoldTimeout t q) s = .next (recEvent 0x0202 (leBytes 2 q.fn ++ leBytes 2 q.ring ++ zeros 4) (modQ q (fun y => { y with holdLong := true, holdNoted := true }) u)))
  ∧ (x.hold = none ∨ x.holdNoted = true ∨ u.time.now < x.holdSince + 1000000000 → exec (.invHoldTimeout t q) s = .next u)

/-- R147 to R149: where the function's window acts, ENABLE = 1 on a DISABLED queue with IDLE = 1 makes it RUNNING, whatever its TAIL; the PF admin ring needs legal registers for it, and its first
enabling writes its index block. ENABLE = 1 on any other queue, and ENABLE = 0 on one that is neither RUNNING nor STOPPED, does nothing. ENABLE = 0 on a STOPPED queue drops its
posted entries and makes it DISABLED; on a RUNNING queue it discards copies and hold, and the jobs that no die and no world has been handed complete with SQUASHED. R143: RING_POLL_Dn takes
an interval of 1 to 200 for a die that is not fenced, which the die is told, and ignores every other write. -/
def Obligations.RingControlAndPoll : Prop := ∀ (t w : Nat) (q : QRef) (s : State), let u := tick t s
  (fnOpen u q.fn = false → exec (.ringEnable t q) s = .next u ∧ exec (.ringDisable t q) s = .next u)
  ∧ (fnOpen u q.fn = true →
    ((getQ u q).st = .disabled → idle u q = true → q ≠ ⟨0, 0x40⟩ →
      exec (.ringEnable t q) s = .next (modQ q (fun y => { y with st := .running }) u))
    ∧ ((getQ u q).st = .disabled → idle u q = true → q = ⟨0, 0x40⟩ →
      (pfAdminLegal u = false → exec (.ringEnable t q) s = .next u)
      ∧ (pfAdminLegal u = true → exec (.ringEnable t q) s = .next (let v := modQ q (fun y => { y with st := .running }) u
          if u.pfFresh then indexOut 0 16 { v with pfFresh := false } else v)))
    ∧ ((getQ u q).st ≠ .disabled ∨ idle u q = false → exec (.ringEnable t q) s = .next u)
    ∧ ((getQ u q).st = .stopped → exec (.ringDisable t q) s = .next (modQ q (fun y => { y with st := .disabled, tail := y.head, copies := [] }) u))
    ∧ ((getQ u q).st = .running → let v := modQ q (fun y => { y with st := .disabled, copies := [], failAt := none, hold := none }) u
      exec (.ringDisable t q) s = .next ((unhanded v q).foldl (fun a j => squash j a) v))
    ∧ ((getQ u q).st = .absent ∨ (getQ u q).st = .disabled → exec (.ringDisable t q) s = .next u))
  ∧ (∀ die, windowOpen u 0 true = true → die < u.dies.length → (getDie u die).fenced = none → 1 ≤ w → w ≤ 200 →
    exec (.ringPollWrite t die w) s = .next (modDie die (fun d => { d with pollIv := w }) (tellDie 6 1 w die u)))
  ∧ (∀ die, windowOpen u 0 true = false ∨ u.dies.length ≤ die ∨ (getDie u die).fenced.isSome ∨ w % 256 = 0 ∨ 200 < w % 256 →
    exec (.ringPollWrite t die w) s = .next u)

/-- R153: where the function's window acts and the ring exists, a CQ head between the old head and PRODUCER is taken, and each queue that completes into the ring may place an owed stop completion;
one beyond PRODUCER only sets BAD_HEAD. R157: a moderation write with COUNT 0 is ignored; any other sets TIMER_US and COUNT, and sends the ring's message
if more completions than COUNT are unsignalled and the ring has a vector; a timer that runs keeps its expiry unless that message stops it. Without the ring, or the window, nothing follows. -/
def Obligations.CqRegisterWrites : Prop := ∀ (t fn c w : Nat) (s : State), let u := tick t s
  let r := (getFn u fn).cq c
  let n := w / 65536 % 256
  (fnOpen u fn = false ∨ mget (getFn u fn).cqs c = none → exec (.ringCqHead t fn c w) s = .next u ∧ exec (.ringCqMod t fn c w) s = .next u)
  ∧ (fnOpen u fn = true → (mget (getFn u fn).cqs c).isSome →
    (idxDist r.producer r.head < idxDist (w % 65536) r.head →
      exec (.ringCqHead t fn c w) s = .next (modCq fn c (fun y => { y with badHead := true }) u))
    ∧ (idxDist (w % 65536) r.head ≤ idxDist r.producer r.head →
      exec (.ringCqHead t fn c w) s = .next ((attached u fn c).foldl (fun a ring => settleOwed ⟨fn, ring⟩ a) (modCq fn c (fun y => { y with head := w % 65536 }) u)))
    ∧ (n = 0 → exec (.ringCqMod t fn c w) s = .next u)
    ∧ (n ≠ 0 → let v := modCq fn c (fun y => { y with timerUs := w % 1024, count := n }) u
      exec (.ringCqMod t fn c w) s = .next (if r.vector ≠ 0xFF ∧ n < r.unsig
        then signal fn r.vector (modCq fn c (fun y => { y with unsig := 0, timer := none }) v) else v)))

/-- R129, R133: descriptors that arrive in one read and continue the prefetched copies of a RUNNING queue are kept, as many as there is room for below TAIL, the hold and 8
copies and before the end of the queue; nothing is taken by it. Any other arrival does nothing. R119, R128: a read of the entry at HEAD that fails in any way reports the error at the entry's address, takes the entry and stops the queue with
cause 3; one of a later entry that could be prefetched reports the error and is kept until the entries before it are taken; no job changes. -/
def Obligations.PrefetchAndFetchFailure : Prop := ∀ (t : Nat) (q : QRef) (err : ReadError) (s : State), let u := tick t s
  let x := getQ u q
  (∀ first ds, x.st = .running → first % 65536 = (x.head + x.copies.length) % 65536 → busOff u q.fn = false → (getFn u q.fn).d3hot = false →
    exec (.descriptorArrival t q first ds) s = .next (let kept := ds.take (min (prefetchRoom x) (2 ^ x.log2 - first % 2 ^ x.log2))
      modQ q (fun y => { y with copies := y.copies ++ kept.map (fun d => (⟨fit 64 d.bytes⟩ : Desc)) }) u))
  ∧ (∀ first ds, x.st ≠ .running ∨ first % 65536 ≠ (x.head + x.copies.length) % 65536 ∨ busOff u q.fn = true ∨ (getFn u q.fn).d3hot = true →
    exec (.descriptorArrival t q first ds) s = .next u)
  ∧ (∀ idx, x.st = .running → idxDist idx x.head = 0 → x.head < 65536 → x.copies = [] → 0 < prefetchRoom x →
    ∃ v, exec (.descriptorFetchFail t q idx err) s = .next v ∧ (getQ v q).st = .stopped ∧ (getQ v q).cause = 3
      ∧ (getQ v q).head = (x.head + 1) % 65536 ∧ (getQ v q).tail = x.tail ∧ (getQ v q).copies = [] ∧ v.jobs = u.jobs)
  ∧ (∀ idx, x.st = .running → x.copies.length ≤ idxDist idx x.head → idxDist idx x.head < x.copies.length + prefetchRoom x → idx % 65536 ≠ x.head →
    exec (.descriptorFetchFail t q idx err) s = .next (modQ q (fun y => { y with failAt := some (idx % 65536) }) (aerError q.fn 1 (x.base + idx % 2 ^ x.log2 * 64) u)))
  ∧ (∀ idx, x.st ≠ .running ∨ idxDist idx x.head < x.copies.length ∨ x.copies.length + prefetchRoom x ≤ idxDist idx x.head →
    exec (.descriptorFetchFail t q idx err) s = .next u)

/-- R118, R152, R155, R156: with Bus Master Enable clear COMPLETION_POST writes nothing, and a ring without a held index block and without ready completions does nothing. Of a ring with one ready completion, without DST output and without a
vector, it writes the 32 bytes at PRODUCER's place and then the index block. An expired moderation timer sends
the ring's message if it has a vector, clears UNSIGNALLED and stops; one that has not expired, and a ring without a running timer, do nothing. -/
def Obligations.CompletionPostAndTimer : Prop := ∀ (t fn c : Nat) (s : State), let u := tick t s
  let r := (getFn u fn).cq c
  (busOff u fn = true ∨ (r.idxDue = none ∧ r.ready = []) → exec (.completionPost t fn c) s = .next u)
  ∧ (∀ k, r.ready = [k] → busOff u fn = false → r.idxDue = none → k.out = [] → r.vector = 0xFF →
    ∃ v, exec (.completionPost t fn c) s = .next v
      ∧ v.out = u.out ++ [.write fn (r.base + r.producer % 2 ^ r.log2 * 32) (k.bytes (k.epochAt u)),
          .write fn r.indexBase (indexBlock ((r.producer + 1) % 65536) (getFn u fn).gen (r.posted + 1) (k.epochAt u))]
      ∧ ((getFn v fn).cq c).producer = (r.producer + 1) % 65536 ∧ ((getFn v fn).cq c).posted = r.posted + 1
      ∧ ((getFn v fn).cq c).ready = [] ∧ ((getFn v fn).cq c).reserved = r.reserved - 1)
  ∧ (∀ e, r.timer = some e → e ≤ u.time.now → let v := modCq fn c (fun y => { y with unsig := 0, timer := none }) u
    exec (.cqTimerExpiry t fn c) s = .next (if r.vector = 0xFF then v else signal fn r.vector v))
  ∧ ((∀ e, r.timer = some e → u.time.now < e) → exec (.cqTimerExpiry t fn c) s = .next u)

/-- R136, R137, R139: a descriptor row does nothing but let time pass, and its entry stays, where its queue may not give the entry up (it is not RUNNING, nothing is posted below the hold,
a barrier, OUTSTANDING, no room in its completion ring or in an internal ring, the function's power state) or where the dispatcher's turn at that instant is another queue's. -/
def Obligations.UntakenRowWaits : Prop := ∀ (x : Sub) (s : State),
  ∀ r ∈ workRows ++ commandRows,
    ¬ Takes r.1 x s → exec (r.2 x) s = .next (tick x.t s)

/-- R18, R504: a service or admin command whose admission fails is refused with the first failing status and its INFO: none of its operation takes place. One whose admission finds
nothing wrong performs its operation, at once where it reads no source and otherwise once its source is held. Every descriptor row of service queues and admin rings is covered. -/
def Obligations.FailedAdmissionCompletes : Prop := ∀ (x : Sub) (s : State),
  (∀ f : Fail, ∀ r ∈ commandRows, Reaches r.1 x s →
    admission (fullSem r.1) (admission0 r.1 x s) (admittedAs r.1 x s) = some f →
    exec (r.2 x) s = .next (ended x s (finishJob (jobOf x s) f.st f.info [] []
      (modJob (jobOf x s) (fun y => { y with refused := true }) (admission0 r.1 x s)))))
  ∧ (∀ r ∈ commandRows, Accepted r.1 x s →
    exec (r.2 x) s = .next (ended x s (workJob (jobOf x s) x ((fullSem r.1).go (jobOf x s) (admission0 r.1 x s)))))
  ∧ (∀ r ∈ commandRows, AcceptedSrc r.1 x s →
    exec (r.2 x) s = .next (ended x s (endWork (jobOf x s) ((semOf r.1).go (jobOf x s) (sourceHeld r.1 x s)))))

/-- R12: on a service queue or an admin ring, a descriptor whose opcode the queue does not accept is taken and completes with INPUT_INVALID and
INFO 0xFF, unless LOCKED comes before it; where the queue accepts the opcode, which is then no case of this row, and where the dispatcher does not take the entry, only time passes. -/
def Obligations.InvalidOpcodeCompletes : Prop := ∀ (x : Sub) (s : State), let u := tick x.t s
  (opAccepted x.d.op x.q.ring = true ∨ taking x.q x.d u = none → exec (.invalidOpcode x) s = .next u)
  ∧ (∀ w, opAccepted x.d.op x.q.ring = false → taking x.q x.d u = some w → queueKind x.q.ring ≠ 0 →
    let v := (takeEntry x.q x.d w).2
    let id := w.nextJob
    lockedFail (admitState id v) (admittedJob v (getJob v id)) = [] →
    exec (.invalidOpcode x) s = .next (rowEnd x.q (getQ u x.q).cq id
      (finishJob id stInput 0xFF [] [] (modJob id (fun y => { y with refused := true }) (admitState id v)))))

/-- R16, R19: finishing a job of a live generation writes its completion's fields: TAG, STATUS, INFO (0 with OK), Consumed head, ring, the die that
ran it, HOST_SPLIT_RUN and RETRIED as the job has them, 8 Result bytes that begin with those given, and, only with an OK status, DST output, SEQ and the epoch of the record. -/
def Obligations.CompletionFields : Prop := ∀ (x : Job) (id st info : Nat) (result out : Bytes), let c := mkCompletion x id st info result out
  c.tag = x.d.tag ∧ c.status = st ∧ c.info = (if st = 0 then 0 else info) ∧ c.head = (x.idx + 1) % 65536 ∧ c.ring = x.ring ∧ c.die = x.die
  ∧ c.flags.testBit 1 = x.hostRun ∧ c.flags.testBit 2 = x.moved
  ∧ c.result.length = 8 ∧ (∀ i < 8, c.result[i]? = some (result.getD i 0))
  ∧ (okStatus st = false → c.out = [] ∧ c.seq = 0 ∧ c.epoch = none)
  ∧ (okStatus st = true → c.out = out ∧ c.seq = x.c.seq ∧ c.epoch = x.c.epoch)

/-- R83, R86: EPC_QUERY and GAME_CLOSE_READ complete with OK and change nothing. EPC_QUERY writes 64 bytes, among them the epoch at 16, the epoch
length at 22, STATE at 24 and the reasons at 25; GAME_CLOSE_READ gives the number of entries and writes 32 bytes for each entry of the table. -/
def Obligations.TimeQueriesAnswer : Prop := ∀ (x : Sub) (s : State),
  (Accepted 0x91 x s → let a := admission0 0x91 x s
    ∃ out, exec (.epcQuery x) s = .next (completed x s [] out a) ∧ out.length = 64 ∧ field out 16 6 = a.time.epoch % 2 ^ 48
      ∧ field out 22 2 = a.ecfg.k % 65536 ∧ field out 24 1 = a.time.st.num % 256 ∧ field out 25 1 = a.time.reasons.num % 256)
  ∧ (Accepted 0x93 x s → let a := admission0 0x93 x s
    let l := closeNow a (admittedJobOf 0x93 x s)
    ∃ out, exec (.gameCloseRead x) s = .next (completed x s (leBytes 4 l.length ++ zeros 4) out a) ∧ out.length = 32 * l.length)

/-- R308, R265: KEY_INFO MODE 0 writes the record of its slot, MODE 1 the records of the slots that it lists, as many as fit, and their number;
KEY_PUBLIC writes the public key of the handle's slot and its length; PKE_CURVE_READ writes the loaded table and gives 0 where no change of it is
pending, 1 where the last pending one is a load and 2 where it is an unload. None of them changes anything. -/
def Obligations.KeyAndCurveQueriesAnswer : Prop := ∀ (x : Sub) (s : State),
  (Accepted 0x86 x s → let a := admission0 0x86 x s
    let j := admittedJobOf 0x86 x s
    let l := (infoSlots a j).take (x.d.aux / 64)
    (x.d.f 34 1 = 0 → exec (.keyInfo x) s = .next (completed x s [] (infoRecord a (x.d.f 32 2)) a))
    ∧ (x.d.f 34 1 = 1 → exec (.keyInfo x) s = .next (completed x s (leBytes 4 l.length ++ zeros 4) (l.map (infoRecord a)).flatten a)))
  ∧ (Accepted 0x87 x s → let a := admission0 0x87 x s
    let k := slotOf (crownBank a) x.d.handle
    exec (.keyPublic x) s = .next (completed x s (leBytes 2 k.pub.length ++ zeros 6) k.pub a))
  ∧ (Accepted 0xB2 x s → let a := admission0 0xB2 x s
    let t := (admittedJobOf 0xB2 x s).tenant
    let pending := match (curveChanges a t (x.d.f 32 1)).getLast? with
      | none => 0
      | some loads => if loads then 1 else 2
    exec (.pkeCurveRead x) s = .next (completed x s ([byte pending] ++ zeros 7) ((mget (crownBank a).curves (t * 16 + x.d.f 32 1)).getD []) a))

/-- R107, R312, R436, R442: INSTANCE_QUERY, QUORUM_STATUS, FW_QUERY and CNT_READ complete with OK and change nothing. They write the 128 bytes of the instance, the
entry of each session, the entry of each of the three firmware components, and a block of 576 bytes for each die named.
R446: CNT_SAMPLE_READ writes records of its die that the function may see, oldest first, as many as AUX has room for, and gives their number and how many the die still holds for the function. On the PF the
records written are gone from the die's buffer, which then has room; where none is written, and on any other function, nothing changes. -/
def Obligations.PackageQueriesAnswer : Prop := ∀ (x : Sub) (s : State),
  (Accepted 0xC5 x s → let a := admission0 0xC5 x s
    exec (.instanceQuery x) s = .next (completed x s [] (queryBlock a (x.d.f 32 2)) a) ∧ (queryBlock a (x.d.f 32 2)).length = 128)
  ∧ (Accepted 0x8D x s → let a := admission0 0x8D x s
    exec (.quorumStatus x) s = .next (completed x s [] (a.vault.sessions.map (sessionEntry a)).flatten a))
  ∧ (Accepted 0x9B x s → let a := admission0 0x9B x s
    exec (.fwQuery x) s = .next (completed x s [] (fwEntry a 0 ++ fwEntry a 1 ++ fwEntry a 2) a))
  ∧ (Accepted 0x9F x s → let a := admission0 0x9F x s
    exec (.cntRead x) s = .next (completed x s [] ((cntDies a x.d).flatMap (cntBlock a x.q.fn 0)) a) ∧ ∀ die, (cntBlock a x.q.fn 0 die).length = 576)
  ∧ (Accepted 0xAE x s → let a := admission0 0xAE x s
    let die := x.d.f 32 1
    let l := (getDie a die).sampler.recs.filter fun r => x.q.fn = 0 || r.fn = x.q.fn
    let n := min (x.d.aux / 32) l.length
    let out := (l.take n).flatMap (·.bytes)
    (x.q.fn ≠ 0 ∨ n = 0 → exec (.cntSampleRead x) s = .next (completed x s (leBytes 2 n ++ leBytes 2 l.length) out a))
    ∧ (x.q.fn = 0 → n ≠ 0 → exec (.cntSampleRead x) s = .next (completed x s (leBytes 2 n ++ leBytes 2 (l.length - n)) out
        (modDie die (fun d => { d with sampler := { d.sampler with recs := d.sampler.recs.drop n, full := false } }) a))))

/-- R205, R214: LDG_READ of content that the device holds writes whole items as far as they fit and their number, and changes nothing; content that lies in the journal store only is
first read back, in whole pages. R399, R400: TMP_LOG_READ writes entries
of the package log or of the lining's log, their number and the first entry of the package log whose link fails; TMP_EVENT_READ writes records of the event flash, each marked where its MAC fails,
their number, and 2 where FIRST had been overwritten, else 1 where some MAC fails, else 0. Neither changes anything. -/
def Obligations.LogQueriesAnswer : Prop := ∀ (x : Sub) (s : State),
  (Accepted 0xA4 x s → let a := admission0 0xA4 x s
    let j := admittedJobOf 0xA4 x s
    let l := fitItems (readItems a j) x.d.aux
    let n := ((readEpochs a j).map fun e => (storeOnly a e).length).sum * 4608
    (n = 0 → exec (.ldgRead x) s = .next (completed x s (leBytes 4 l.length ++ zeros 4) l.flatten a))
    ∧ (n ≠ 0 → exec (.ldgRead x) s = .next (ended x s (workJob (jobOf x s) x
        (modJob (jobOf x s) (fun y => { y with phase := .source, srcLen := n, tmp := 1 }) a)))))
  ∧ (Accepted 0xAA x s → let a := admission0 0xAA x s
    let l := if x.d.f 32 1 = 0 then a.tamper.log.drop (x.d.f 40 2) else (a.lining.log.dropWhile fun e => e.num ≠ x.d.f 40 2).map LiningEntry.bytes
    let o := l.take (x.d.aux / 32)
    exec (.tmpLogRead x) s = .next (completed x s (leBytes 2 o.length ++ leBytes 2 (badLink a.tamper.log)) o.flatten a))
  ∧ (Accepted 0xAB x s → let a := admission0 0xAB x s
    let st := eventStart a (x.d.f 40 4)
    let n := min (min (x.d.f 48 4) (x.d.aux / 32)) (a.evFlash.length - st.1)
    let code := if st.2 then 2 else if ∀ i < n, macOk a (i + st.1) = true then 0 else 1
    let out := (List.range n).flatMap fun i => match a.evFlash[i + st.1]? with
      | none => []
      | some r => lset (r.r.head r.number) 15 (byte (bit (!macOk a (i + st.1)) 7)) ++ r.mac
    exec (.tmpEventRead x) s = .next (completed x s (leBytes 4 n ++ [byte code]) out a))

/-- R75, R76: the fenced commands below change nothing at once: an accepted one's change stands in the fence schedule for T (TARGET, or the epoch plus 2 where TARGET is 0) and the command waits for its staging;
where the schedule would hold a 65th target the command completes with QUOTA instead. R81, R87, R109, R111, R197, R233, R265, R393, R441, R443, R444: they are GAME_CLOSE_SET, EPC_CONFIGURE after
acquisition, INSTANCE_SHARE, SPLIT_SET, LDG_CONFIGURE, RNG_RESEED_SET, PKE_CURVE_UNLOAD, TMP_CONFIGURE, CNT_CONFIGURE, CNT_SNAPSHOT_SET and CNT_SAMPLE_CONFIGURE. Before acquisition EPC_CONFIGURE acts at once. -/
def Obligations.ScheduledChangesAreFenced : Prop := ∀ (x : Sub) (s : State),
  let T (op : Nat) : Nat := if x.d.targetField = 0 then (admission0 op x s).time.epoch + 2 else x.d.targetField
  let fenced (op : Nat) (cs : List Change) : State := if fenceFull (admission0 op x s) (T op)
    then ended x s (finishJob (jobOf x s) stQuota 0 [] [] (admission0 op x s)) else fencedState op x s (T op) cs
  (Accepted 0x92 x s → let t := (admittedJobOf 0x92 x s).tenant
    (x.d.f 34 1 = 0 → exec (.gameCloseSet x) s = .next (fenced 0x92 [.closeSet t { game := x.d.f 32 2, seconds := x.d.f 36 6, ns := x.d.f 42 4 }]))
    ∧ (x.d.f 34 1 = 1 → exec (.gameCloseSet x) s = .next (fenced 0x92 [.closeRetire t (x.d.f 32 2)])))
  ∧ (Accepted 0xA2 x s →
    exec (.ldgConfigure x) s = .next (fenced 0xA2
      [.ledgerCfg (if x.d.f 33 1 = 1 then 0xFFFF else (admittedJobOf 0xA2 x s).tenant) (x.d.f 32 1) (x.d.f 36 4) (x.d.f 34 1) (x.d.f 40 2)]))
  ∧ (Accepted 0xC4 x s → let p := x.d.f 36 2
    (Nat.testBit (x.d.f 38 1) 1 = false → exec (.splitSet x) s = .next (fenced 0xC4 [.splitSet (x.d.f 32 2) p (x.d.f 38 1)]))
    ∧ (Nat.testBit (x.d.f 38 1) 1 = true → exec (.splitSet x) s = .next (fenced 0xC4
        [.splitSet (x.d.f 32 2) p (x.d.f 38 1), .ledgerPol (tenantOf (admission0 0xC4 x s) (x.d.f 32 2)) (p / 4 % 4)])))
  ∧ (Accepted 0x94 x s → let a := admission0 0x94 x s
    (acquired a = true → exec (.epcConfigure x) s = .next (fenced 0x94 [.epcParams (x.d.f 32 1) (epcOf x.d)]))
    ∧ (acquired a = false → exec (.epcConfigure x) s = .next (completed x s [] []
        (consume (fencedRoles a (admittedJobOf 0x94 x s)) { a with epc := epcMerge a.epc (epcOf x.d) (x.d.f 32 1) }))))
  ∧ (Accepted 0xC3 x s → let a := admission0 0xC3 x s
    let fn := x.d.f 32 2
    (x.d.f 34 1 ≠ 0xFF → exec (.instanceShare x) s = .next (fenced 0xC3
      [.shareRing fn (x.d.f 34 1) (x.d.f 35 1) (x.d.f 36 1) ((getFn a fn).queue (x.d.f 34 1)).creation]))
    ∧ (x.d.f 34 1 = 0xFF → exec (.instanceShare x) s = .next (fenced 0xC3
        [.shareInst fn (x.d.f 38 2) (x.d.f 40 2) (x.d.f 38 2 - (fnAt a (T 0xC3) fn).g.outstanding)])))
  ∧ (Accepted 0x9A x s →
    exec (.rngReseedSet x) s = .next (fenced 0x9A [.reseed (x.d.f 36 4)]))
  ∧ (Accepted 0xB1 x s →
    exec (.pkeCurveUnload x) s = .next (fenced 0xB1 [.curve (admittedJobOf 0xB1 x s).tenant (x.d.f 32 1) []]))
  ∧ (Accepted 0xA8 x s →
    exec (.tmpConfigure x) s = .next (fenced 0xA8 [.tmp (x.d.f 32 1) (x.d.f 33 1) (Nat.testBit (x.d.f 34 1) 0) (Nat.testBit (x.d.f 34 1) 1)]))
  ∧ (Accepted 0x9D x s →
    exec (.cntConfigure x) s = .next (fenced 0x9D [.cnt (cntDies (admission0 0x9D x s) x.d) (x.d.f 33 1) (x.d.f 34 1)
      (if Nat.testBit (x.d.f 35 1) 1 then some (x.d.f 38 2) else none) (x.d.f 36 2) (Nat.testBit (x.d.f 35 1) 0)]))
  ∧ (Accepted 0x9E x s →
    exec (.cntSnapshotSet x) s = .next (fenced 0x9E [.snap (x.d.f 32 1 = 1) (x.d.f 33 1) (x.d.f 36 4) (x.d.f 40 8) (x.d.f 48 8)]))
  ∧ (Accepted 0xAD x s →
    exec (.cntSampleConfigure x) s = .next (fenced 0xAD
      [.sample (cntDies (admission0 0xAD x s) x.d) (x.d.f 33 1) (x.d.f 36 2) (x.d.f 38 2) (x.d.f 40 2)]))

/-- R302, R303, R305: KEY_DERIVE, KEY_GENERATE (an RSA key apart, which a Crown lane generates), KEY_IMPORT, KEY_AGREE and KEY_COMPONENT, at their admission or with their source held,
where the internal DRBG that they draw on can serve them. Once a key k is made and slot n found for it (its generation advanced), with an epoch range that T is not beyond and
room in the fence schedule, in BLANK and TEST its change is scheduled at once for T, with the slot's 64 bytes as the
DST output; in the other states the command waits for the image write. Nothing else changes but the state b that the making of the key leaves. Where the making fails, or no slot is found, the command
completes with that failure; where the DRBG cannot serve it, it waits for entropy. -/
def Obligations.CreatedKeyIsScheduled : Prop := ∀ (x : Sub) (s a b : State) (r : Nat × (Sub → Instr)),
  let id := jobOf x s
  let T := if x.d.targetField = 0 then b.time.epoch + 2 else x.d.targetField
  let short : Prop := ∃ n, createKeyRng (getJob a id) = some n ∧ internalShort a 0 n = true
  r ∈ ([(0x80, .keyDerive), (0x81, .keyGenerate), (0x89, .keyComponent), (0x82, .keyImport), (0x88, .keyAgree)] : List (Nat × (Sub → Instr))) →
  ¬ (r.1 = 0x81 ∧ 0x10 ≤ x.d.f 32 1 ∧ x.d.f 33 1 = 6) →
  (Accepted r.1 x s ∧ a = admission0 r.1 x s) ∨ (AcceptedSrc r.1 x s ∧ a = sourceHeld r.1 x s) →
  firstFail (createKeyLen a (getJob a id) (getJob a id).src.length) = none →
  (short → exec (r.2 x) s = .next (ended x s (awaitEntropy id a)))
  ∧ (∀ f, ¬ short → createdKey a (getJob a id) = (.error f, b) → exec (r.2 x) s = .next (ended x s (finishJob id f.st f.info [] [] b)))
  ∧ (∀ f k, ¬ short → createdKey a (getJob a id) = (.ok k, b) → allocate b k = .error f → exec (r.2 x) s = .next (ended x s (finishJob id f.st f.info [] [] b)))
  ∧ (∀ n k k1, ¬ short → createdKey a (getJob a id) = (.ok k, b) → allocate b k = .ok (n, k1) →
    (x.d.targetField = 0 ∨ b.time.epoch + 2 ≤ x.d.targetField) → k1.first ≤ k1.last → T ≤ k1.last → fenceFull b T = false →
    exec (r.2 x) s = .next (ended x s (if imageless b
      then fencedFor id T [.key n k1 x.d.targetField] (modJob id (fun y => { y with slot := some (n, k1), data := attrRecord n k1 2 0 }) b)
      else modJob id (fun y => { y with slot := some (n, k1), phase := .wait 20, waitT := b.time.now }) b)))

/-- R295, R303: the key that a creation makes has the purpose, algorithm, game and epoch range that the command gives, the tenant of the command,
the origin of the opcode and FLAGS bit 0 from OPTIONS. -/
def Obligations.CreatedKeyAttributes : Prop := ∀ (s b : State) (j : Job) (k : KeySlot),
  createdKey s j = (.ok k, b) →
  k.purpose = j.d.f 32 1 ∧ k.alg = j.d.f 33 1 ∧ k.game = j.d.f 34 2 ∧ k.first = j.d.f 36 6
  ∧ k.last = (if j.d.f 42 6 = 0 then 2 ^ 48 - 1 else j.d.f 42 6) ∧ k.tenant = j.tenant ∧ k.st = 2
  ∧ k.flags.testBit 0 = (j.d.f 52 1).testBit 0
  ∧ (j.d.op = 0x80 → k.origin = 1) ∧ (j.d.op = 0x81 → k.origin = 2) ∧ (j.d.op = 0x82 → k.origin = 3) ∧ (j.d.op = 0x88 → k.origin = 4) ∧ (j.d.op = 0x89 → k.origin = 5)

/-- R302, R306, R307, R316, R318: KEY_ROTATE (a generated RSA key apart, which a Crown lane generates), a scheduled KEY_DESTROY, TENANT_RETIRE and EPC_AUTHORITY_SET, at their admission or with their
source held, change nothing at once. Where TARGET is not too early and the fence schedule has room, in BLANK and TEST their change is scheduled for T (the rotated slot; every slot of the destruction cleared; the retirement; the
authority key installed or removed); in the other states the command waits for the image write. -/
def Obligations.KeyStoreChangesAreScheduled : Prop := ∀ (x : Sub) (s : State),
  let id := jobOf x s
  let T (a : State) : Nat := if x.d.targetField = 0 then a.time.epoch + 2 else x.d.targetField
  let fit (a : State) : Prop := (x.d.targetField = 0 ∨ a.time.epoch + 2 ≤ x.d.targetField) ∧ fenceFull a (T a) = false
  let waits (a : State) : State := modJob id (fun y => { y with phase := .wait 20, waitT := a.time.now }) a
  let starts (op : Nat) (a : State) : Prop := (Accepted op x s ∧ a = admission0 op x s) ∨ (AcceptedSrc op x s ∧ a = sourceHeld op x s)
  (∀ a k b, starts 0x84 a →
    let old := slotOf (crownBank a) x.d.handle
    let n := (getJob a id).src.length
    (old.flags.testBit 1 = true → if old.alg = 6 then 260 ≤ n ∧ rsaSize (8 * (n - 4)) = true else n = pubLen old.alg 0 (blockOf a old.tenant old.alg)) →
    (∀ g, rotateRng old = some g → internalShort a 0 g = false) → ¬ (old.origin = 2 ∧ old.wide ∧ old.alg = 6) → rotatedKey a (getJob a id) = (.ok k, b) →
    (k.wide = false ∨ k.span = old.span) → k.first ≤ k.last → T b ≤ k.last → fit b →
    exec (.keyRotate x) s = .next (ended x s (if imageless b then fencedFor id (T b) [.key (x.d.handle % 65536) k x.d.targetField]
        (modJob id (fun y => { y with slot := some (x.d.handle % 65536, k), data := [] }) b)
      else modJob id (fun y => { y with slot := some (x.d.handle % 65536, k), phase := .wait 20, waitT := b.time.now }) b)))
  ∧ (Accepted 0x85 x s → x.d.f 33 1 = 0 → let a := admission0 0x85 x s
    fit a → exec (.keyDestroy x) s = .next (ended x s (if imageless a then fencedFor id (T a)
      ((destroySlots a (admittedJobOf 0x85 x s)).map fun n => .key n (clearedSlot (slotOf (crownBank a) n)) x.d.targetField) a else waits a)))
  ∧ (Accepted 0x8A x s → let a := admission0 0x8A x s
    fit a → exec (.tenantRetire x) s = .next (ended x s (if imageless a then fencedFor id (T a) [.retire (x.d.f 32 2) x.d.targetField] a else waits a)))
  ∧ (∀ a, starts 0x96 a →
    firstFail (authorityFails a (getJob a id)) = none → fit a →
    exec (.epcAuthoritySet x) s = .next (ended x s (if imageless a
      then fencedFor id (T a) [.authority (x.d.f 32 1 = 0) (slice (x.d.withOp 0x96).bytes 40 8) (getJob a id).src x.d.targetField] a else waits a)))

/-- R307: an urgent KEY_DESTROY of SCOPE 0 or 1 clears its slots at once, with SCOPE 1 those of the tenant's pending keys too: in BLANK and TEST it completes with OK, otherwise it waits for the image write. SCOPE 2
raises EMERGENCY_ERASE, event 0x26, whose erasure takes every key of the package and LK, and completes with OK. R308: KEY_EXPORT gives the wrapped key of the tenant and its length, and
uses up the quorum of the Key Custodian. -/
def Obligations.UrgentDestructionAndExport : Prop := ∀ (x : Sub) (s : State),
  (Accepted 0x85 x s → x.d.f 33 1 = 1 → let a := admission0 0x85 x s
    let j := admittedJobOf 0x85 x s
    let pend := ((keyChanges a).filter fun c => x.d.f 32 1 = 1 ∧ c.2.2.tenant = j.tenant).map (·.2.1)
    let v := clearSlots (destroySlots a j ++ pend) (jobOf x s) a
    (x.d.f 32 1 = 2 → exec (.keyDestroy x) s = .next (completed x s [] []
        (internalEvent 0x26 0 0 0 (if tamperQuiet a then loseLk (eraseAll a) else a))))
    ∧ (x.d.f 32 1 ≠ 2 → imageless v = true → exec (.keyDestroy x) s = .next (completed x s [] [] v))
    ∧ (x.d.f 32 1 ≠ 2 → imageless v = false →
        exec (.keyDestroy x) s = .next (ended x s (modJob (jobOf x s) (fun y => { y with phase := .wait 21, waitT := v.time.now }) v))))
  ∧ (Accepted 0x83 x s → let a := admission0 0x83 x s
    let m := (slotOf (crownBank a) x.d.handle).mat
    let n := cdiv m.length 8 * 8 + 8
    exec (.keyExport x) s = .next (completed x s (leBytes 4 n ++ zeros 4) (fit n (Config.kwpWrap (slotOf (crownBank a) (x.d.f 32 4)).mat m)) (consume [1] a)))

/-- R145, R146: the queue commands of an admin ring complete with OK and the index of their object. RING_CREATE and SQ_CREATE make a queue that is
DISABLED and empty, with the size, address, completion ring, burst and weight of the descriptor; the two destructions leave no such queue.
CQ_CREATE makes an empty completion ring and writes its index block once; while the function makes no memory request the block is held. CQ_DESTROY removes the ring. -/
def Obligations.QueueCommandsAct : Prop := ∀ (x : Sub) (s : State),
  let i := x.d.f 32 1
  (Accepted 0xC8 x s → let a := admission0 0xC8 x s
    exec (.ringCreate x) s = .next (completed x s (leBytes 2 i) [] (modQ ⟨x.q.fn, i⟩ (fun _ => {
      st := .disabled, log2 := x.d.f 33 1, base := x.d.f 40 8,
      cq := x.d.f 34 1, creation := a.nextCreation, burst := x.d.f 35 1, weight := x.d.f 36 1 })
      { a with nextCreation := a.nextCreation + 1 })))
  ∧ (Accepted 0xCC x s → let a := admission0 0xCC x s
    exec (.sqCreate x) s = .next (completed x s (leBytes 2 i) [] (modQ ⟨x.q.fn, 0x20 + i⟩ (fun _ => {
      st := .disabled, log2 := x.d.f 33 1, base := x.d.f 40 8,
      cq := x.d.f 34 1, creation := a.nextCreation })
      { a with nextCreation := a.nextCreation + 1 })))
  ∧ (Accepted 0xC9 x s →
    exec (.ringDestroy x) s = .next (completed x s (leBytes 2 i) [] (modFn x.q.fn (fun f => { f with queues := mdel f.queues i }) (admission0 0xC9 x s))))
  ∧ (Accepted 0xCD x s →
    exec (.sqDestroy x) s = .next (completed x s (leBytes 2 i) [] (modFn x.q.fn (fun f => { f with queues := mdel f.queues (0x20 + i) }) (admission0 0xCD x s))))
  ∧ (Accepted 0xCA x s →
    exec (.cqCreate x) s = .next (completed x s (leBytes 2 i) [] (indexOut x.q.fn i (modCq x.q.fn i (fun _ => {
      log2 := x.d.f 33 1, vector := x.d.f 34 1, base := x.d.f 40 8, indexBase := x.d.f 48 8,
      count := x.d.f 35 1, timerUs := x.d.f 36 1 + 256 * x.d.f 37 1 }) (admission0 0xCA x s)))))
  ∧ (Accepted 0xCB x s →
    exec (.cqDestroy x) s = .next (completed x s (leBytes 2 i) [] (modFn x.q.fn (fun f => { f with cqs := mdel f.cqs i }) (admission0 0xCB x s))))

/-- R103 to R105: INSTANCE_CREATE with its source held. A grant block that fails a check of R104 completes with that check's STATUS and INFO. With a good
one the command completes with OK, FUNCTION and GENERATION; the function then has an instance of the
tenant with the grants of the block, its generation advanced, READY, its admin ring RUNNING and empty and no other queue; no job is touched, and no other function.
Where the tenant needs its salt and the Crown's KEYGEN instance waits for its seed (R228), the command waits for it. -/
def Obligations.InstanceCreateAct : Prop := ∀ (x : Sub) (s : State),
  AcceptedSrc 0xC0 x s → let h := sourceHeld 0xC0 x s
  let j := getJob h (jobOf x s)
  let fn := x.d.f 32 2
  let short := lacksSalt h (x.d.f 34 2) = true ∧ internalShort h 0 0 = true
  (∀ f, firstFail (createFails h j) = some f →
    exec (.instanceCreate x) s = .next (ended x s (finishJob (jobOf x s) f.1 f.2 [] [] h)))
  ∧ (firstFail (createFails h j) = none → short →
    exec (.instanceCreate x) s = .next (ended x s (awaitEntropy (jobOf x s) h)))
  ∧ (firstFail (createFails h j) = none → ¬ short →
    ∃ v, exec (.instanceCreate x) s = .next (completed x s (leBytes 2 fn ++ zeros 2 ++ leBytes 4 (getFn v fn).gen) [] v)
    ∧ (getFn v fn).present = true ∧ (getFn v fn).tenant = x.d.f 34 2 ∧ (getFn v fn).gen = ((getFn h fn).gen + 1) % 2 ^ 32 ∧ (getFn v fn).ready = true
    ∧ (getFn v fn).g = grantsOf j.src ∧ (getQ v ⟨fn, 0x40⟩).st = .running ∧ (getQ v ⟨fn, 0x40⟩).head = 0 ∧ (getQ v ⟨fn, 0x40⟩).tail = 0
    ∧ (∀ r, r ≠ 0x40 → (getQ v ⟨fn, r⟩).st = .absent) ∧ v.jobs = h.jobs ∧ (∀ m, m ≠ fn → getFn v m = getFn h m))

/-- R106, R112: INSTANCE_RESET and INSTANCE_DESTROY begin the reset of FUNCTION and wait for its end: RESETTING is set, READY is 0, the generation
is one higher, no queue of it keeps a prefetched descriptor and no completion ring of it a ready completion. FUNCTION is never the sender's own function: function 0 sends these commands and they refuse function 0. -/
def Obligations.InstanceResetBegins : Prop := ∀ (x : Sub) (s : State),
  let fn := x.d.f 32 2
  ∀ r ∈ ([(0xC1, .instanceDestroy), (0xC2, .instanceReset)] : List (Nat × (Sub → Instr))),
  Accepted r.1 x s → x.q.fn ≠ fn → let a := admission0 r.1 x s
  ∃ v, exec (r.2 x) s = .next (ended x s v) ∧ (getFn v fn).resetting = true ∧ (getFn v fn).ready = false ∧ (getFn v fn).gen = ((getFn a fn).gen + 1) % 2 ^ 32
    ∧ (getFn v fn).waiters = (getFn a fn).waiters ++ [jobOf x s] ∧ (r.1 = 0xC1 → (getFn v fn).destroying = true)
    ∧ (∀ q ∈ (getFn v fn).queues, q.2.copies = []) ∧ (∀ c ∈ (getFn v fn).cqs, c.2.ready = [] ∧ c.2.reserved = 0)
    ∧ (mget v.jobs (jobOf x s)).map (·.phase) = some (.wait 1)

/-- R108: TENANT_GRANT completes with OK and sets the grants of the tenant at once, a request of 0 leaving a grant as it is; draw instances are
assigned or idle ones released to the number granted. -/
def Obligations.TenantGrantAct : Prop := ∀ (x : Sub) (s : State),
  Accepted 0xC6 x s → let a := admission0 0xC6 x s
  let t := x.d.f 32 2
  let g := (getTenant a t).g
  let new (r old : Nat) : Nat := if r = 0 then old else r
  let d := new (x.d.f 46 1) g.drbgs
  let v := modTenant t (fun y => { y with g := { narrow := new (x.d.f 40 2) g.narrow, wide := new (x.d.f 42 2) g.wide, close := new (x.d.f 44 2) g.close, drbgs := d } }) a
  (g.drbgs ≤ d → exec (.tenantGrant x) s = .next (completed x s [] [] (assignDrbgs t (d - g.drbgs) v)))
  ∧ (d < g.drbgs → exec (.tenantGrant x) s = .next (completed x s [] [] (releaseDrbgs t (g.drbgs - d) v)))

/-- R72, R88: EPC_EPOCH_SETUP, admitted. Outside PROVISION it completes with OK and the epoch length, the origin and the edge are as it gives them.
In PROVISION it waits while another OTP write runs, completes with LOCKED once the marker is programmed, completes with INPUT_INVALID and INFO 0xE9 over words
that hold other bits, and otherwise starts the writes of the origin, of K with the edge and of the marker, and waits for them.
R201: LDG_RING_CREATE completes with OK and the lowest free index; the ring belongs to the submitting function and, with REPLAY, first gets every retained record of
its scope in order. LDG_RING_DESTROY removes the ring that it names.
R211: LDG_ROOT_SUBMIT with its source held completes with the first failing check; with counts that differ from the device's own it completes with INFO 0x40; where the
Crown's function DRBG waits for its seed it waits; otherwise it answers with a sorted challenge of one leaf in 64 and keeps the submitted roots with it.
R212: LDG_ROOT_PROVE with its source held completes with the first failing check, or LENGTH where the source is not the leaves' entries. Sequence numbers other than
those challenged, or a path that fails, void the submission with INFO 0x41; good paths for part of the challenge are noted and complete with OK; with the last of them the
command completes with OK and the root, the host's, takes its place in the chain.
R218: LDG_QUIESCE 1 waits until every record is covered; it stops the appends once no commitment leaf waits, and with everything covered completes, outside BLANK and TEST once the checkpoint that it asks for is written. LDG_QUIESCE 0 lets appends run again with a checkpoint write, which it waits for outside BLANK and TEST. -/
def Obligations.LedgerAndEpochCommandsAct : Prop := ∀ (x : Sub) (s : State),
  let id := jobOf x s
  (Accepted 0x95 x s → let a := admission0 0x95 x s
    let o := x.d.f 32 6
    let k := x.d.f 38 2
    let f := Nat.testBit (x.d.f 40 1) 0
    exec (.epcEpochSetup x) s = .next (ended x s (
      if a.lcs ≠ .provision then okJob id [] [] { a with ecfg := { k := k, origin := o, falling := f, fromOtp := false } }
      else if a.life.burn.isSome then modJob id (fun y => { y with phase := .wait 47 }) a
      else if a.otp.marker then finishJob id stLocked 0 [] [] a
      else if otpConflict a (admittedJobOf 0x95 x s) then finishJob id stInput 0xE9 [] [] a
      else startBurn id [.originLow (o % 2 ^ 32), .originHigh (o / 2 ^ 32), .kWord k f, .marker] a)))
  ∧ (Accepted 0xA0 x s → let a := admission0 0xA0 x s
    let j := admittedJobOf 0xA0 x s
    let i := freeIdx (scopeRings a (x.d.f 32 1) j.tenant)
    let r : LRing := { owner := x.q.fn, scope := x.d.f 32 1, tenant := j.tenant, idx := i, log2 := x.d.f 33 1, vector := x.d.f 34 1
                       opts := x.d.f 35 1, base := x.d.f 40 8, index := x.d.f 48 8 }
    let y := if Nat.testBit (x.d.f 35 1) 2 then (retained a r).foldl (fun (p : LRing × State) rec => deliverOne rec p.1 p.2) (r, a) else (r, a)
    exec (.ldgRingCreate x) s = .next (completed x s ([byte i] ++ zeros 7) [] { y.2 with lrings := y.2.lrings ++ [y.1] }))
  ∧ (Accepted 0xA1 x s → let a := admission0 0xA1 x s
    ∃ r, namedRing a (admittedJobOf 0xA1 x s) = some r ∧
      exec (.ldgRingDestroy x) s = .next (completed x s [] []
        { a with lrings := a.lrings.filter fun y => !(y.scope = r.scope ∧ y.tenant = r.tenant ∧ y.idx = r.idx) }))
  ∧ (AcceptedSrc 0xA5 x s → let h := sourceHeld 0xA5 x s
    let j := getJob h id
    match firstFail (rootSubmitOwn h j) with
    | some f => exec (.ldgRootSubmit x) s = .next (ended x s (finishJob id f.st f.info [] [] h))
    | none => ∃ p, awaiting (getLedger h j.tenant) = some p ∧
      let n := (List.range 8).map fun d => field j.src (8 * d) 8
      let seqs := ((readable h).filter fun y => y.tenant = j.tenant ∧ y.epoch = p.epoch).map (·.seq)
      let roots := (List.range 8).map fun d => slice j.src (64 + 48 * d) 48
      (n ≠ p.counts → exec (.ldgRootSubmit x) s = .next (ended x s (finishJob id stInput 0x40 [] [] h)))
      ∧ (n = p.counts → fnSeeded 0 j.fn false h = none → exec (.ldgRootSubmit x) s = .next (ended x s (awaitEntropy id h)))
      ∧ (∀ w, n = p.counts → fnSeeded 0 j.fn false h = some w →
        let c := pickSome j.fn (cdiv p.counts.sum 64) seqs w
        let chal := sortNat c.1
        exec (.ldgRootSubmit x) s = .next (completed x s (leBytes 4 chal.length ++ zeros 4) (chal.map (leBytes 8)).flatten
          (modLedger j.tenant (fun l => { putPend { p with sub := some { roots := roots, chal := chal } } l with lapsed := false }) c.2))))
  ∧ (AcceptedSrc 0xA6 x s → let h := sourceHeld 0xA6 x s
    let j := getJob h id
    match firstFail (rootProveOwn h j) with
    | some f => exec (.ldgRootProve x) s = .next (ended x s (finishJob id f.st f.info [] [] h))
    | none => ∃ p c, awaiting (getLedger h j.tenant) = some p ∧ p.sub = some c ∧
      let want := (c.chal.drop (x.d.f 32 4)).take (x.d.f 36 4)
      let done := want.foldl insertNat c.proven
      (proveEntries (x.d.f 36 4) j.src = none → exec (.ldgRootProve x) s = .next (ended x s (finishJob id stLength 0 [] [] h)))
      ∧ (∀ es, proveEntries (x.d.f 36 4) j.src = some es →
        let good := es.map (·.1) = want ∧ (es.all fun e => pathOk h j.tenant c.roots e.1 e.2) = true
        (¬ good → exec (.ldgRootProve x) s = .next (ended x s (finishJob id stInput 0x41 [] []
          (modLedger j.tenant (putPend { p with sub := none }) h))))
        ∧ (good → done.length ≠ c.chal.length →
          exec (.ldgRootProve x) s = .next (completed x s [] [] (modLedger j.tenant (putPend { p with sub := some { c with proven := done } }) h)))
        ∧ (good → done.length = c.chal.length → let q := { p with sub := some { c with proven := done }, roots := (List.range 8).map fun d => if p.counts.getD d 0 = 0 then some (zeros 48) else some (c.roots.getD d []) }
          exec (.ldgRootProve x) s = .next (ended x s (endWork id (settleProofs (finalise 64 j.tenant (okJob id [] [] (modLedger j.tenant (putPend q) h)))))))))
  ∧ (Accepted 0xA7 x s → let a := admission0 0xA7 x s
    let w := modJob id (fun y => { y with phase := .wait 3 }) a
    let r := { a with quiesced := false, ckptDirty := true }
    (x.d.f 32 1 = 1 → exec (.ldgQuiesce x) s = .next (ended x s (workJob id x (quiescePoll w)))
      ∧ (w.quiesced = false ∧ commitsDue w = true → quiescePoll w = w)
      ∧ (commitsDue w = false ∨ w.quiesced = true → let v := { w with quiesced := true }
        quiescePoll w = if allCovered v = true ∧ v.ckptReq = none
          then if imageless w then ((w.jobs.filter fun j => j.2.phase = .wait 3).map (·.1)).foldl (fun s j => okJob j [] [] s) v else requestCkpt true v
          else v))
    ∧ (x.d.f 32 1 ≠ 1 → imageless a = true →
      exec (.ldgQuiesce x) s = .next (completed x s [] [] (requestCkpt false r)))
    ∧ (x.d.f 32 1 ≠ 1 → imageless a = false →
      exec (.ldgQuiesce x) s = .next (ended x s (requestCkpt false (modJob id (fun y => { y with phase := .wait 4 }) r)))))

/-- R252: DRAW_QUERY, admitted, names a draw of the tenant. With WAIT it waits for an unresolved one; otherwise it completes with LENGTH and INFO 3 where AUX is too small, and else with OK, the
state and the bytes of the draw, and with RELEASE lets a resolved draw go. R251: DRAW_MAP with its source held completes with INFO 0xA9 where the draw is not a pending host-assisted one, with LENGTH and INFO 4 where
the source does not fit EXHAUSTED, with 0xAA where the words do not have the committed digest and with 0xA8 where the device's own mapping differs from the host's. Otherwise the
draw has the host's outcome, or is void with reason 5 where the words were exhausted, and the command waits for the append of its leaf. -/
def Obligations.DrawQueryAndMapAct : Prop := ∀ (x : Sub) (s : State),
  let id := jobOf x s
  (Accepted 0x98 x s → let a := admission0 0x98 x s
    ∃ d, queryDraw a (admittedJobOf 0x98 x s) = some d ∧ exec (.drawQuery x) s = .next (ended x s (
      if Nat.testBit (x.d.f 40 1) 0 = true ∧ d.resolved = false then modJob id (fun y => { y with phase := .wait 15 }) a
      else if x.d.aux < d.outBytes.length then finishJob id stLength 3 [] [] a
      else okJob id ([byte d.shown] ++ zeros 3 ++ leBytes 4 d.outBytes.length) d.outBytes
        (if Nat.testBit (x.d.f 40 1) 1 = true ∧ d.resolved = true then { a with draws := a.draws.filter (·.id ≠ d.id) } else a))))
  ∧ (AcceptedSrc 0x99 x s → let h := sourceHeld 0x99 x s
    let j := getJob h id
    match mapTarget h j with
    | none => exec (.drawMap x) s = .next (ended x s (finishJob id stInput 0xA9 [] [] h))
    | some d =>
      let words := j.src.take (8 * d.w)
      let host := j.src.drop (8 * d.w)
      let mapped := (mapDraw d.op (d.n1 + 1) d.count (wordsOf d.w words)).map outcomeBytes
      let ex := x.d.f 40 1 = 1
      let d1 : Draw := if ex then { d with st := 4, void := 5 } else { d with st := 3, outcome := host, outDig := outcomeDigest host }
      exec (.drawMap x) s = .next (ended x s (
        if j.srcLen ≠ 8 * d.w + (if ex then 0 else 4 * d.count) then finishJob id stLength 4 [] [] h
        else if wordsDigest d.id words ≠ d.wordsDig then finishJob id stInput 0xAA [] [] h
        else if (ex ∧ mapped ≠ none) ∨ (¬ ex ∧ mapped ≠ some host) then finishJob id stInput 0xA8 [] [] h
        else modJob id (fun y => { y with phase := .sequenced, leaf := some (drawLeaf h (if ex then 0x12 else 0x11) d1), draw := some d1, die := 0 })
          (modDraw d.id (fun _ => d1) h))))

/-- R312: QUORUM_CANCEL closes the session of its role, whose QUORUM_OPEN it ends with ABORTED, and completes with OK. QUORUM_OPEN with its source held opens the session of its role
with the next session number and INTENT, starts an exchange on every port that is free, and waits. R311: ROLE_SET with its source held completes with the first failing check;
ACTION 0 completes with INFO 0xDD where its port has an enrolment already, and otherwise asks its port to enrol the card and waits; ACTION 1 removes the card of the serial number, and ACTION 2 sets M: both
use up a Security Officer quorum where one was needed and complete with OK.
R317: KEY_PACKAGE_INIT, admitted, waits while the image is not writable (R299) or the Crown's KEYGEN instance waits for its seed; otherwise it forms PR, LK and SALT_0 and waits for the OTP and image writes.
R309: KEY_MIGRATE with its source held completes with INFO 0xD0 without its two quorums; otherwise it keeps the alternative wrapping and, in BLANK and TEST, completes with OK, else waits for the image write. R437:
FW_ACTIVATE that names no key world makes its staged banks pending and completes with OK; with the key world and its source held it completes with the first failing check, or else uses up its two quorums too; both wait during HOLD (R299).
R392: TMP_MONITOR_TEST tests every instance that it names and waits, or completes at once where there is none. R394, R395: TMP_UNLOCK logs UNLOCK and waits. R462: PWR_RETAIN completes, disables its
queue and begins RETAIN entry. R469: PWR_RESET completes with OK, and the reset follows 1 ms later. -/
def Obligations.SecurityCommandsAct : Prop := ∀ (x : Sub) (s : State),
  let id := jobOf x s
  (Accepted 0x8E x s → exec (.quorumCancel x) s = .next (completed x s [] [] (closeSession (x.d.f 32 1) stAborted 1 (admission0 0x8E x s))))
  ∧ (AcceptedSrc 0x8C x s → let h := sourceHeld 0x8C x s
    let n := h.vault.nextSession
    ∃ v, exec (.quorumOpen x) s = .next (ended x s (endWork id ((List.range 4).foldl (fun s p => startExchange p s) v)))
      ∧ v.vault.sessions = lset h.vault.sessions (x.d.f 32 1) { st := 1, num := n, endAt := h.time.now + x.d.f 33 1 * 60000000000
                                                                intent := (getJob h id).src, collect := x.d.f 34 1 = 1, job := some id }
      ∧ v.vault.nextSession = (if n = 0xFFFF then 1 else n + 1) ∧ (getJob v id).phase = .wait 23)
  ∧ (AcceptedSrc 0x8F x s → let h := sourceHeld 0x8F x s
    let j := getJob h id
    let p := x.d.f 35 1
    let r := h.vault.rosters.getD (x.d.f 32 1) {}
    let put (r : Roster) : State := { h with vault := { h.vault with rosters := lset h.vault.rosters (x.d.f 32 1) r } }
    let used (v : State) : State := if (h.otp.w.headD none).isSome then consume [0] v else v
    (∀ f, firstFail (roleSetFails h j) = some f → exec (.roleSet x) s = .next (ended x s (finishJob id f.st f.info [] [] h)))
    ∧ (firstFail (roleSetFails h j) = none →
      (x.d.f 33 1 = 0 → (getPort h p).enrol.isSome = true → exec (.roleSet x) s = .next (ended x s (finishJob id stInput 0xDD [] [] h)))
      ∧ (x.d.f 33 1 = 0 → (getPort h p).enrol = none → exec (.roleSet x) s = .next (ended x s (endWork id
          (startExchange p (modPort p (fun y => { y with enrol := some id }) (modJob id (fun y => { y with phase := .wait 23 }) h))))))
      ∧ (x.d.f 33 1 = 1 → exec (.roleSet x) s = .next (completed x s [] [] (used (put { r with cards := r.cards.filter (·.serial ≠ j.src.take 16) }))))
      ∧ (1 < x.d.f 33 1 → exec (.roleSet x) s = .next (completed x s [] [] (used (put { r with m := x.d.f 34 1 }))))))
  ∧ (Accepted 0x8B x s → let a := admission0 0x8B x s
    exec (.keyPackageInit x) s = .next (ended x s (
      if a.hold then modJob id (fun y => { y with phase := .wait 45, waitT := a.time.now }) a
      else if internalShort a 0 0 then awaitEntropy id a
      else packageInitNow id a)))
  ∧ (AcceptedSrc 0x97 x s → let h := sourceHeld 0x97 x s
    let v := { h with vault := { h.vault with alt := mnOf h (getJob h id).src } }
    exec (.keyMigrate x) s = .next (ended x s (
      if quorumOpenFor h (getJob h id) 0 = false ∨ quorumOpenFor h (getJob h id) 1 = false then finishJob id stInput 0xD0 [] [] h
      else if imageless h then okJob id [] [] (consume [0, 1] v)
      else modJob id (fun y => { y with phase := .wait 24, waitT := h.time.now }) v)))
  ∧ (Accepted 0x9C x s → let a := admission0 0x9C x s
    let m := x.d.f 32 1
    m.testBit 1 = false → exec (.fwActivate x) s = .next (ended x s (
      if a.hold then modJob id (fun y => { y with phase := .wait 44, waitT := a.time.now }) a
      else okJob id [byte m, 0] [] (activateBanks m a))))
  ∧ (AcceptedSrc 0x9C x s → let h := sourceHeld 0x9C x s
    let j := getJob h id
    let m := x.d.f 32 1
    m.testBit 1 = true →
    (∀ f, firstFail (fwActivateFails h j) = some f → exec (.fwActivate x) s = .next (ended x s (finishJob id f.st f.info [] [] h)))
    ∧ (firstFail (fwActivateFails h j) = none → exec (.fwActivate x) s = .next (ended x s (
      if h.hold then modJob id (fun y => { y with phase := .wait 44, waitT := h.time.now }) h
      else okJob id [byte m, byte (bit (h.vault.alt = none ∨ h.vault.alt ≠ mnOf h (stagedKw h)) 0)] [] (consume [0, 1] (activateBanks m h))))))
  ∧ (Accepted 0xA9 x s → let a := admission0 0xA9 x s
    let l := (if x.d.f 33 1 = 0xFF then liveDies a else [x.d.f 33 1]).flatMap fun d => instancesOf a (some id) (x.d.f 32 1) d
    (l = [] → exec (.tmpMonitorTest x) s = .next (completed x s (zeros 4) [] a))
    ∧ (l ≠ [] → exec (.tmpMonitorTest x) s = .next (ended x s (modJob id (fun y => { y with phase := .wait 40 })
        { a with tamper := { a.tamper with tests := a.tamper.tests ++ l } }))))
  ∧ (Accepted 0xAC x s → let a := admission0 0xAC x s
    exec (.tmpUnlock x) s = .next (ended x s (workJob id x (unlockLogged (modJob id (fun y => { y with phase := .wait 41, tmp := a.lining.logNext })
      (internalEvent 0x25 0 0 (unlockDetail a) a))))))
  ∧ (Accepted 0xB4 x s → let v := okJob id [] [] (admission0 0xB4 x s)
    exec (.pwrRetain x) s = .next (ended x s (workJob id x (disableRing x.q { v with pwrState := 1 }))))
  ∧ (Accepted 0xB5 x s → let a := admission0 0xB5 x s
    exec (.pwrReset x) s = .next (completed x s [] [] { a with pwr := { a.pwr with resetAt := some (a.time.now + 1000000) } }))

/-- R354, R355: LCS_TRANSITION with its source held completes with the first failing check; it waits during HOLD or while an OTP write runs (R299); otherwise it ends every grant and job, erases the keys and
waits for its programming. R353: LCS_TOKEN_SET with its source held waits while an OTP write runs, completes with INFO 0xE9 over bits that the digest does not have, completes with OK where the slot holds the
digest already, and otherwise starts the writes of the words that differ and waits. R363: LCS_RETURN_UNLOCK with the token of slot 4 sets UNLOCK_PENDING and completes with OK, with another with INFO 0xED. R365: DBG_CHALLENGE
answers with 128 bytes, a fresh nonce and the next count, or waits for the seed of its nonce's instance. R367, R368: DBG_GRANT with its source held completes with INFO 0xD0 without its quorum, with 0xF0 where the response does not match the
challenge, with the first failing check of the signature, the mask and the age, and otherwise opens the enables granted; the challenge is used up by all but the first two. R369: DBG_REVOKE closes them and completes with OK. -/
def Obligations.LifecycleCommandsAct : Prop := ∀ (x : Sub) (s : State),
  let id := jobOf x s
  (AcceptedSrc 0xB8 x s → let h := sourceHeld 0xB8 x s
    (∀ f, inOrder (transitionFails h (getJob h id)) = some f → exec (.lcsTransition x) s = .next (ended x s (finishJob id f.st f.info [] [] h)))
    ∧ (inOrder (transitionFails h (getJob h id)) = none → (h.hold = true ∨ h.life.burn.isSome = true) →
      exec (.lcsTransition x) s = .next (ended x s (modJob id (fun y => { y with phase := .wait 30, waitT := h.time.now }) h)))
    ∧ (inOrder (transitionFails h (getJob h id)) = none → h.hold = false → h.life.burn = none →
      let v := beginTransition id h
      exec (.lcsTransition x) s = .next (ended x s (endWork id v))
      ∧ v.life.trans.map (fun r => (r.job, r.target, r.from_)) = some (id, x.d.f 32 1, h.lcs.code)))
  ∧ (AcceptedSrc 0xB9 x s → let h := sourceHeld 0xB9 x s
    let i := x.d.f 32 1 - 1
    let new := (getJob h id).src
    exec (.lcsTokenSet x) s = .next (ended x s (
      if h.life.burn.isSome then modJob id (fun y => { y with phase := .wait 47 }) h
      else if digestConflict (h.otp.slots.getD i []) new then finishJob id stInput 0xE9 [] [] h
      else if slotSteps h i new = [] then okJob id [] [] h
      else startBurn id (slotSteps h i new) h)))
  ∧ (AcceptedSrc 0xBA x s → let h := sourceHeld 0xBA x s
    exec (.lcsReturnUnlock x) s = .next (if slotProgrammed (h.otp.slots.getD 3 []) ∧ digest384 (getJob h id).src = h.otp.slots.getD 3 []
      then completed x s [] [] { h with lining := { h.lining with unlockPending := true } } else ended x s (finishJob id stInput 0xED [] [] h)))
  ∧ (Accepted 0xBB x s → let a := admission0 0xBB x s
    let n := internalGen 0 1 32 [] a
    let b := challengeBytes a (x.d.f 32 4) (a.lining.dbgCount + 1) n.1
    (internalShort a 0 1 = true → exec (.dbgChallenge x) s = .next (ended x s (awaitEntropy id a)))
    ∧ (internalShort a 0 1 = false → exec (.dbgChallenge x) s = .next (completed x s [] b { n.2 with
      lining := { n.2.lining with dbgCount := a.lining.dbgCount + 1 }, life := { n.2.life with challenge := some (b, a.time.now) } })))
  ∧ (AcceptedSrc 0xBC x s → let h := sourceHeld 0xBC x s
    let r := (getJob h id).src
    let g := field r 4 4
    let w := { h with life := { h.life with challenge := none } }
    exec (.dbgGrant x) s = .next (if quorumOpenFor h (getJob h id) 0 = false then ended x s (finishJob id stInput 0xD0 [] [] h)
      else if responseMatches h r = false then ended x s (finishJob id stInput 0xF0 [] [] h)
      else match inOrder (grantFails h r) with
        | some f => ended x s (finishJob id f.st f.info [] [] w)
        | none => completed x s (leBytes 4 g ++ zeros 4) [] (consume [0] (
            let v := if g.testBit 3 then let e := loseLk (eraseReplicas w); { e with life := { e.life with keysShut := true } } else w
            { v with life := { v.life with enables := v.life.enables ||| g, granted := v.life.granted ||| g, grantOn := true } }))))
  ∧ (Accepted 0xBD x s → exec (.dbgRevoke x) s = .next (completed x s [] [] (endGrant (admission0 0xBD x s))))

/-- R163 to R167, R171 to R173: a MAC-core job whose source is held and that runs on a core goes to its die's collector with what the core gives. SEAL and SEAL_DIGEST give
the tag of the header and the source, or with OUT = 1 the receipt of header, LEAF and TPAD, with the PSN as Result and a leaf for the ledger, and OK_FLAGGED
where the job is flagged, else OK. VERIFY_SEAL and MAC with MODE 1 compare and give 0 or 1, VERIFY_SEAL with LEAF where DST is given; MAC with MODE 0 gives the tag. The core is given up. -/
def Obligations.MacCoreJobsEnd : Prop := ∀ (x : Sub) (s : State),
  let id := jobOf x s
  let e (op : Nat) : State := engineState op x s
  let j (op : Nat) : Job := getJob (e op) id
  (∀ r ∈ ([(0x10, 1, .seal), (0x11, 2, .sealDigest)] : List (Nat × Nat × (Sub → Instr))), AtEngine r.1 x s →
    let j := j r.1
    let k := j.key.getD {}
    let h := sealHeader j.tenant r.2.1 k.alg (if r.2.1 = 2 then j.d.aux else j.srcLen) j
    let tag := (macFull k (h ++ j.src) "XZSEAL").take (j.d.f 34 1)
    let leaf : Leaf := { header := h, rd := if r.2.1 = 1 then digest384 j.src else j.src, tpad := fit 16 tag }
    exec (r.2.2 x) s = .next (ended x s (collect id (if j.flagged then stFlagged else stOk) 0 (leBytes 8 j.psn)
      (if j.d.f 35 1 = 1 then h ++ leaf.hash ++ leaf.tpad else tag) (some leaf) (freeMac id (e r.1)))))
  ∧ (AtEngine 0x12 x s → let j := j 0x12
    let h := j.src.take 64
    let tag := (macFull (j.key.getD {}) (h ++ j.src.drop 64) "XZSEAL").take (field h 3 1)
    exec (.verifySeal x) s = .next (ended x s (collect id stOk 0 [if tag = slice j.d.bytes 32 (field h 3 1) then 0 else 1]
      (if j.d.dst = 0 then [] else (sealLeaf h (j.src.drop 64) tag (field h 1 1)).hash) none (freeMac id (e 0x12)))))
  ∧ (AtEngine 0x13 x s → let j := j 0x13
    let n := j.d.f 33 1
    let tag := (macFull (j.key.getD {}) j.src "XZMAC").take n
    (j.d.f 32 1 = 0 → exec (.mac x) s = .next (ended x s (collect id stOk 0 [] tag none (freeMac id (e 0x13)))))
    ∧ (j.d.f 32 1 ≠ 0 → exec (.mac x) s = .next (ended x s
        (collect id stOk 0 [if tag = slice j.d.bytes 48 n then 0 else 1] [] none (freeMac id (e 0x13))))))

/-- R84, R85, R267, R268, R270 to R272, R274: a Reckoner job whose source is held and that runs on a lane. A failed check of SIGN, VERIFY or ECDH ends the job with INPUT_INVALID and
the INFO of the first one. Otherwise SIGN gives the signature, its length,
the lane and the suspensions; VERIFY gives 0 for a good signature and 1 for a bad one, with the lane; ECDH gives the shared secret and its length; each goes to its die's collector. STAMP with MODE 1 finishes with
the token: the head and its signature, r and s in 96 bytes, with OK or OK_FLAGGED. The lane is given up. -/
def Obligations.LaneJobsEnd : Prop := ∀ (x : Sub) (s : State) (lane : Nat),
  let id := jobOf x s
  let e (op : Nat) : State := engineState op x s
  let j (op : Nat) : Job := getJob (e op) id
  (∀ r ∈ ([(0x30, .sign), (0x31, .verify), (0x32, .ecdh)] : List (Nat × (Sub → Instr))), AtEngine r.1 x s → laneOf (e r.1) id = some lane →
    (r.1 = 0x32 → (curveOf ((j r.1).key.getD {}).alg (j r.1).curve).isSome = true) →
    ∀ i, firstCheck (laneChecks (j r.1)) = some i → exec (r.2 x) s = .next (ended x s (validationFail id i (e r.1))))
  ∧ (AtEngine 0x30 x s → laneOf (e 0x30) id = some lane → let j := j 0x30
    let k := j.key.getD {}
    let g := slotSign j.die k j.d.handle (j.d.f 33 1) (j.hostRun && edAlg k.alg) j.curve (signRep j) (e 0x30)
    firstCheck (laneChecks j) = none →
      exec (.sign x) s = .next (ended x s (collect id stOk 0 (leBytes 2 g.1.length ++ [byte lane, byte j.suspends] ++ zeros 4) g.1 none (freeLane id g.2))))
  ∧ (AtEngine 0x31 x s → laneOf (e 0x31) id = some lane → let j := j 0x31
    let p := verifyParts j
    let alg := verifyAlg j
    firstCheck (laneChecks j) = none →
      exec (.verify x) s = .next (ended x s (collect id stOk 0
        ([if Config.verifyOf alg (j.d.f 33 1) (j.d.f 35 1 = 1 && edAlg alg) j.curve p.1 p.2.2 p.2.1 then 0 else 1, byte lane] ++ zeros 6) [] none (freeLane id (e 0x31)))))
  ∧ (∀ c, AtEngine 0x32 x s → laneOf (e 0x32) id = some lane → let j := j 0x32
    let k := j.key.getD {}
    curveOf k.alg j.curve = some c → firstCheck (laneChecks j) = none →
      exec (.ecdh x) s = .next (ended x s (collect id stOk 0 (leBytes 2 (fieldLen c) ++ zeros 6)
        (fit (fieldLen c) (Config.ecdhOf k.alg j.curve k.mat j.src)) none (freeLane id (e 0x32)))))
  ∧ (AtEngine 0x50 x s → laneOf (e 0x50) id = some lane → let j := j 0x50
    let h := j.stamp.bytes ++ leBytes 6 j.epoch ++ leBytes 2 j.fn ++ slice j.d.bytes 32 8
    let g := slotSign j.die (j.key.getD {}) j.d.handle 0 false [] (digest384 h) (e 0x50)
    exec (.stamp x) s = .next (ended x s (stampEnd id (h ++ fit 96 g.1) (freeLane id g.2))))

/-- R236, R245, R250: RANDOM on its die gives LENGTH bytes of the submitting function's instance with the source as additional input. An immediate DRAW or SHUFFLE on its die
takes the words of the tenant's draw instance that the job holds. In host-assisted mode it gives the words, DRAW_ID and a leaf of kind 0x13. In hardware mode it gives
the outcome that R238 maps from the words, and a leaf of kind 0x11; words that run out end the job with FAULT_RETRY. The instance is free again. -/
def Obligations.EntropyJobsEnd : Prop := ∀ (x : Sub) (s : State),
  let id := jobOf x s
  (AtEngine 0x22 x s → let e := engineState 0x22 x s
    let j := getJob e id
    let o := fnGen j.die j.fn (j.d.f 32 4) j.src e
    exec (.random x) s = .next (ended x s (collect id stOk 0 [] o.1 none o.2)))
  ∧ (∀ r ∈ ([(0x20, .draw), (0x21, .shuffle)] : List (Nat × (Sub → Instr))), ∀ d, AtEngine r.1 x s → (getJob (engineState r.1 x s) id).draw = some d →
    let e := engineState r.1 x s
    let die := (getJob e id).die
    (d.host = true → let o := drawBytes die (instOf e id) (8 * d.w) e
      let d1 := { d with wordsDig := wordsDigest d.id o.1 }
      exec (r.2 x) s = .next (ended x s (freeInst id (collect id (if d.flagged then stFlagged else stOk) 0 (leBytes 8 d.id) o.1 (some (drawLeaf o.2 0x13 d1))
        (modJob id (fun y => { y with draw := some d1 }) o.2)))))
    ∧ (d.host = false → let o := drawBytes die (instOf e id) (8 * mapWords d.count) e
      exec (r.2 x) s = .next (ended x s (match mapDraw d.op (d.n1 + 1) d.count (wordsOf (mapWords d.count) o.1) with
        | none => freeInst id (collect id stRetry 0 [] [] none (modJob id (fun y => { y with draw := none }) o.2))
        | some out => let d1 := { d with outcome := outcomeBytes out, outDig := outcomeDigest (outcomeBytes out), st := 3 }
          collect id stOk 0 [] [] (some (drawLeaf o.2 0x11 d1)) (freeInst id (modJob id (fun y => { y with draw := some d1 }) o.2))))))

/-- R40: NOP, taken from a queue of any kind, completes with OK, DIE 0, SEQUENCE 0 and Result 0 where its admission finds nothing wrong, and otherwise with the first failure. R84: STAMP
with MODE 0, admitted, completes with OK or, where its Stamp is not trusted, OK_FLAGGED; DST gets the 16 bytes of the Stamp, and Result SECONDS and FLAGS. R206, R209: LEDGER_PROOF, admitted, of a SEQUENCE that
the device does not hold, or whose epoch can have no root any more, completes with INFO 0x31; it waits for a root that is still to come; it completes with INFO 0x32 where the leaf's die was lost from the root; it reads back and verifies the epoch's pages
that only the store holds; it completes with INFO 0x34, an event recorded, where the journal does not give the host's root; and otherwise with the proof and its length.
R141: a descriptor of any work row but NOP, admitted at its poll, starts its operation. -/
def Obligations.JobsWithoutEngineEnd : Prop := ∀ (x : Sub) (s : State),
  let id := jobOf x s
  (Takes 0 x s → opAccepted 0 x.q.ring = true → admission (fullSem 0) (admission0 0 x s) (admittedAs 0 x s) = none →
    exec (.nop x) s = .next (completed x s [] [] (admission0 0 x s)))
  ∧ (∀ f : Fail, Takes 0 x s → opAccepted 0 x.q.ring = true → admission (fullSem 0) (admission0 0 x s) (admittedAs 0 x s) = some f →
    exec (.nop x) s = .next (ended x s (finishJob id f.st f.info [] [] (modJob id (fun y => { y with refused := true }) (admission0 0 x s)))))
  ∧ (AtPoll 0x50 x s → let v := polledJob 0x50 x s
    let j := getJob v id
    let ok := j.stamp.flags.testBit 0
    j.d.f 40 1 = 0 → exec (.stamp x) s = .next (ended x s (finishJob id (if ok then stOk else stFlagged) 0 (leBytes 6 j.stamp.seconds ++ leBytes 2 j.stamp.flags) j.stamp.bytes
      (modJob id (fun y => { y with flagged := !ok }) (modJob id (fun y => { y with hostRun := y.onlyBeacon }) v)))))
  ∧ (AtPoll 0x40 x s → let v := polledJob 0x40 x s
    let j := getJob v id
    let seq := j.d.f 32 8
    match entryOf v j.tenant seq with
    | none => exec (.ledgerProof x) s = .next (ended x s (finishJob id stInput 0x31 [] [] v))
    | some en => (rootOf v j.tenant en.epoch = none →
      let waits := en.epoch = v.time.epoch ∨ (getLedger v j.tenant).pend.any (·.epoch = en.epoch) = true
      (waits → exec (.ledgerProof x) s = .next (ended x s (modJob id (fun y => { y with phase := .wait 2 }) v)))
      ∧ (¬ waits → exec (.ledgerProof x) s = .next (ended x s (finishJob id stInput 0x31 [] [] v))))
    ∧ (∀ root, rootOf v j.tenant en.epoch = some root →
      let lost := (field root.bytes 29 1).testBit en.die
      let p := proofBytes v j.tenant seq en root
      (lost = true → exec (.ledgerProof x) s = .next (ended x s (finishJob id stInput 0x32 [] [] v)))
      ∧ (lost = false → storeOnly v en.epoch ≠ [] → j.tmp = 0 → exec (.ledgerProof x) s = .next (ended x s (endWork id (feed id x
          (modJob id (fun y => { y with phase := .source, srcLen := (storeOnly v en.epoch).length * 4608, tmp := 1 }) v)))))
      ∧ (lost = false → storeOnly v en.epoch = [] → j.tmp = 0 → hostDiffers v j.tenant en root = true →
        exec (.ledgerProof x) s = .next (ended x s (finishJob id stInput 0x34 [] [] (recEvent 0x0403 (leBytes 2 j.tenant ++ leBytes 6 en.epoch) v))))
      ∧ (lost = false → storeOnly v en.epoch = [] → j.tmp = 0 → hostDiffers v j.tenant en root = false →
        exec (.ledgerProof x) s = .next (completed x s (leBytes 4 p.length ++ zeros 4) p v))))
  ∧ (∀ r ∈ workRows, r.1 ≠ 0 → AtPoll r.1 x s →
    exec (r.2 x) s = .next (ended x s (endWork id (feed id x (pollTo id 63 (startSource (fullSem r.1) id (polledJob r.1 x s)))))))

/-- R60 to R62, R73, R264, R265, R303, R306: the service commands that a lane of the Crown runs, whose lane is free. An EPC_BEACON that fails a check ends with that check's STATUS and INFO and changes no time state; one whose label
disagrees with the Crown's seconds ends with INFO 7 and sets LABEL_MISMATCH; a good one is applied and completes with OK, its second, STATE and the
reasons, and, where it is the first of an acquisition, the Crown has acquired time. A PKE_CURVE_LOAD with a reserved byte set ends with its offset and waits where the BLIND instance waits for a seed; one whose parameters fail a check ends with that check's INFO;
one over a table that is loaded or is being loaded ends with INFO 0xC5, and one whose TARGET is too early by then with 0xFD; otherwise its curve is scheduled for T, or QUOTA reported where the fence schedule is full, the function not having been reset meanwhile. The generation of an RSA key by KEY_GENERATE or KEY_ROTATE, its length good and the KEYGEN instance
seeded, gives up its lane at its end, waits where the instance waits for a seed again, and else makes the key. -/
def Obligations.LaneCommandsEnd : Prop := ∀ (x : Sub) (s : State) (lane : Nat),
  let id := jobOf x s
  let runs (e : State) : Prop := (getJob e id).phase = .engine ∧ laneOf e id = some lane
  (AcceptedSrc 0x90 x s → let e := laneGo id (sourceHeld 0x90 x s)
    let j := getJob e id
    let v := freeLane id e
    let fails := inOrder (beaconFails v j.auths j.src j.admAt)
    runs e →
    (∀ f, fails = some f → exec (.epcBeacon x) s = .next (ended x s (finishJob id f.st f.info [] [] v)))
    ∧ (fails = none → labelAgrees v j.src j.admAt = false →
      exec (.epcBeacon x) s = .next (ended x s (finishJob id stInput 7 [] []
        (refreshTrust { v with time := { v.time with reasons := { v.time.reasons with labelMismatch := true } } }))))
    ∧ (fails = none → labelAgrees v j.src j.admAt = true → let w := refreshTrust (applyBeacon j.src j.admAt v)
      let o := okJob id (leBytes 6 (beaconSec j.src) ++ [byte w.time.st.num, byte w.time.reasons.num]) [] w
      exec (.epcBeacon x) s = .next (ended x s (if acquired v then o else acquire o))))
  ∧ (AcceptedSrc 0xB0 x s → let h := sourceHeld 0xB0 x s
    (∀ i, firstNonzero (getJob h id).src (span 4 15) = some i → exec (.pkeCurveLoad x) s = .next (ended x s (finishJob id stInput i [] [] h)))
    ∧ (firstNonzero (getJob h id).src (span 4 15) = none → internalShort h 0 2 = true → exec (.pkeCurveLoad x) s = .next (ended x s (awaitEntropy id h)))
    ∧ (firstNonzero (getJob h id).src (span 4 15) = none → internalShort h 0 2 = false → let e := laneGo id h
      let j := getJob e id
      let bp := blindBases 64 e
      let bn := blindBases 64 bp.2
      let v := freeLane id bn.2
      let tf := j.d.targetField
      let T := if tf = 0 then e.time.epoch + 2 else tf
      let n := j.d.f 32 1
      runs e →
      exec (.pkeCurveLoad x) s = .next (ended x s (match curveCheck j.src bp.1 bn.1 with
        | some i => finishJob id stInput i [] [] v
        | none =>
          if loadPending e j = true ∨ (mget (bankAt e T).curves (j.tenant * 16 + n)).isSome = true then finishJob id stInput 0xC5 [] [] v
          else if tf ≠ 0 ∧ tf < e.time.epoch + 2 then finishJob id stInput 0xFD [] [] v
          else acceptFenced id T [.curve j.tenant n j.src] v))
      ∧ (stale v (getJob v id) = false → fenceFull v T = true → acceptFenced id T [.curve j.tenant n j.src] v = finishJob id stQuota 0 [] [] v)
      ∧ (stale v (getJob v id) = false → fenceFull v T = false → acceptFenced id T [.curve j.tenant n j.src] v = fencedFor id T [.curve j.tenant n j.src] v)))
  ∧ (Accepted 0x81 x s → let a := admission0 0x81 x s
    let e := laneGo id a
    let v := freeLane id e
    firstFail (createKeyLen a (getJob a id) (getJob a id).src.length) = none → internalShort a 0 0 = false → 0x10 ≤ x.d.f 32 1 → x.d.f 33 1 = 6 → runs e →
      exec (.keyGenerate x) s = .next (ended x s (if internalShort v 0 0 then awaitEntropy id v else createKeyNow id v)))
  ∧ (∀ a, (Accepted 0x84 x s ∧ a = admission0 0x84 x s) ∨ (AcceptedSrc 0x84 x s ∧ a = sourceHeld 0x84 x s) →
    let k := slotOf (crownBank a) x.d.handle
    let e := laneGo id a
    let v := freeLane id e
    k.flags.testBit 1 = false → k.flags.testBit 2 = false → k.origin = 2 → k.wide = true → k.alg = 6 → internalShort a 0 0 = false → runs e →
      exec (.keyRotate x) s = .next (ended x s (if internalShort v 0 0 then awaitEntropy id v else rotateNow id v)))

/-- R25 to R27: an in-use port whose flits pass (portUp) and that is not retraining takes a good flit in sequence, passes it on where it is for another die, and its ACK field lets the acknowledged
flits leave the retry buffer; a NAK replays the rest, and the fifth call for the same flit retrains. A flit whose length or CRC is wrong, or whose body holds a word with more than two
wrong bits, is discarded and answered with NAK and the last good FSEQ; one out of sequence is discarded. A port that has sent nothing for 1 µs sends a keepalive flit; one that has heard nothing for 4 µs begins a retrain,
the third of them within one second taking it down. A retrain that ends at x4 or x2 leaves the port at the lower of its width and the new one, with a record where that is a drop, and the retry buffer replays; any other end takes the port down. -/
def Obligations.BandPortsCarryAndRetrain : Prop := ∀ (t die port : Nat) (s : State), let u := tick t s
  let p := getBand u die port
  let now := u.time.now
  let carries := portUp u die port = true ∧ p.training = false
  let retrain (v : State) : State :=
    let l := (getBand v die port).retrains.filter (fun r => now < r + 1000000000) ++ [now]
    if 3 ≤ l.length then portDown die port (modBand die port (fun p => { p with retrains := l }) v)
    else modBand die port (fun p => { p with retrains := l, training := true, replays := 0 }) v
  (∀ f worst, let good := flitOk f = true ∧ worst ≤ 2
    let seq := bits (field f 0 2) 0 12
    let w := modBand die port (fun p => { p with rxSeq := seq, nak := false }) (modBand die port (fun p => { p with lastRx := now }) u)
    let q := getBand w die port
    let a := bits (field f 2 2) 0 12
    let n := if a = q.acked then q.replays else 0
    let x := modBand die port (fun p => { p with acked := a, replays := n, retry := ackedUpTo p.retry a }) w
    let y := countOn die 0x0B 0 1 (modBand die port (fun p => { p with replays := n + 1 }) x)
    (¬ carries → exec (.flitReceive t die port f worst) s = .next u)
    ∧ (carries → ¬ good → exec (.flitReceive t die port f worst) s =
        .next (transmit die port (keepaliveFlit u die port) (modBand die port (fun p => { p with nak := true }) u)))
    ∧ (carries → good → seq ≠ (p.rxSeq + 1) % 4096 → exec (.flitReceive t die port f worst) s = .next (modBand die port (fun p => { p with lastRx := now }) u))
    ∧ (carries → good → seq = (p.rxSeq + 1) % 4096 → exec (.flitReceive t die port f worst) s = .next (forwardFlit die (flitOf f)
        (if (field f 2 2).testBit 12 = false then x else if n < 4 then replay die port y else startRetrain die port y))))
  ∧ exec (.keepaliveTimer t die port) s = .next (if carries ∧ p.lastTx + 1000 ≤ now then transmit die port (keepaliveFlit u die port) u else u)
  ∧ exec (.linkSilenceTimeout t die port) s = .next (if carries ∧ p.lastRx + 4000 ≤ now then retrain u else u)
  ∧ (∀ w, let v := modBand die port (fun p => { p with training := false, wide := min p.wide w, nak := false, lastRx := now }) u
    (p.training = false → exec (.portRetrainDone t die port w) s = .next u)
    ∧ (p.training = true → w ≠ 4 → w ≠ 2 → exec (.portRetrainDone t die port w) s = .next (portDown die port u))
    ∧ (p.training = true → w = 4 ∨ w = 2 → exec (.portRetrainDone t die port w) s = .next (drainPort die port (replay die port
        (if min p.wide w < p.wide then recEventAt die 0 0x0B01 (byte port :: zeros 7) v else v)))))
  ∧ (∀ v, portDown die port v = (let w := modBand die port (fun p => { p with down := true, training := false }) v
      match cutOff v die port with | some d => fenceDie d 0 w | none => w))

/-- R31, R32, R39, R48, R51, R52, R119: an offset above 50 ns and a silent Mandrel fence a die with causes 3 and 1; 24 µs without an upstream flit fence it with cause 0, clear its key registers, replica and queues and halt it,
and only time passes before. The Crown is not fenced, nor a die out of service again; a relay's leaves go with it, with cause 5. A word with at most two wrong bits, read where it was stored, is only counted; every other error is
counted and recorded, and acts as the code of its place says. The Crown's fault completes the jobs not yet journalled with FAULT_FATAL, stops every ring, and is remembered in the lining; a second one does nothing. A key slot that a
die has asked for again takes the Crown's copy, and what waited for it starts; one it has not asked for changes nothing. -/
def Obligations.DiesAndCrownLeaveService : Prop := ∀ (t die : Nat) (s : State), let u := tick t s
  (∀ o : Int, exec (.offsetCheck t die o) s = .next (if 50 < o.natAbs then fenceDie die 3 u else u))
  ∧ exec (.mandrelWatchdog t die) s = .next (fenceDie die 1 u)
  ∧ (let late := die ≠ 0 ∧ die < u.dies.length ∧ (getBand u die 0).lastRx + 24000 ≤ u.time.now
    let v := fenceDie die 0 u
    (¬ late → exec (.upstreamTimeout t die) s = .next u)
    ∧ (late → ∃ w, exec (.upstreamTimeout t die) s = .next w ∧ w.jobs = v.jobs ∧ w.fns = v.fns ∧ (die < v.dies.length → (getDie w die).halted = true ∧ (getDie w die).held = [] ∧ (getDie w die).bank.slots = []
      ∧ (∀ c ∈ (getDie w die).cores, c.cache = [] ∧ c.job = none) ∧ (∀ c ∈ (getDie w die).lanes, c.key = [] ∧ c.suspKey = [] ∧ c.job = none ∧ c.susp = none)
      ∧ (getDie w die).ringP = [] ∧ (getDie w die).ringG = [] ∧ (getDie w die).collector = [] ∧ (getDie w die).macQ = [] ∧ (getDie w die).rq = [])))
  ∧ (∀ c v, (die = 0 ∨ (getDie v die).live = false → fenceDie die c v = v)
    ∧ (die ≠ 0 → (getDie v die).live = true → fenceDie die c v = settleAll ((leavesOf v die).foldl (fun s l => fenceOne l 5 s) (fenceOne die c v))))
  ∧ (∀ errors stored code unit addr,
    let r := recEventAt die 0 0x0B02 (byte code :: zeros 7 ++ leBytes 8 addr) (modDie die (fun d => { d with memErrors := d.memErrors + 1 }) u)
    let good := errors ≤ 2 ∧ stored = addr
    (die < u.dies.length → good → errors ≠ 0 → exec (.memoryError t die ⟨errors, stored⟩ code unit addr) s = .next (countOn die 0x0C 0 1 u))
    ∧ ((die ≠ 0 ∧ u.dies.length ≤ die) ∨ (good ∧ errors = 0) → exec (.memoryError t die ⟨errors, stored⟩ code unit addr) s = .next u)
    ∧ (die < u.dies.length → ¬ good →
      (code = 0 → exec (.memoryError t die ⟨errors, stored⟩ code unit addr) s = .next (settleAll
        (if unit < 16 then coreFault die 0 unit r else if unit < 22 then coreFault die 1 (unit - 16) r else coreFault die 2 (unit - 22) r)))
      ∧ (code = 1 → die ≠ 0 → (getDie r die).live = true → exec (.memoryError t die ⟨errors, stored⟩ code unit addr) s =
          .next (modDie die (fun d => { d with refetch := insertNat d.refetch unit }) r))
      ∧ (code = 2 → die = 0 → exec (.memoryError t die ⟨errors, stored⟩ code unit addr) s = .next (settleAll (slotLost unit r)))
      ∧ (3 ≤ code → code ≤ 7 → die = 0 → exec (.memoryError t die ⟨errors, stored⟩ code unit addr) s = .next (crownFail addr r))
      ∧ (code = 8 → die = 0 → exec (.memoryError t die ⟨errors, stored⟩ code unit addr) s = .next (if unit = 3
          then restartWorld 0 1 0 (modWorld 0 1 (fun x => { x with imageBad := true }) r) else restartWorld 0 unit 0 r))
      ∧ (code = 9 ∨ code = 10 → exec (.memoryError t die ⟨errors, stored⟩ code unit addr) s = .next (fenceDie die 2 r))))
  ∧ (u.crownFault = true → exec (.crownFault t) s = .next u)
  ∧ (u.crownFault = false →
    let ids := (u.jobs.filter fun j => j.2.phase ≠ .done ∧ !j.2.appended).map (·.1)
    let refused := (u.jobs.filter fun j => j.2.phase = .done && j.2.refused).map (·.1)
    let s1 := refused.foldl (fun s j => replaceResult j stFatal s) { u with crownFault := true, lining := { u.lining with crownFault := true } }
    let s2 := ids.foldl (fun s j => if (getJob s j).ring = ownRing then dropJob j (unplace j s) else stopJob j stFatal 0 s) s1
    let v := aerError 0 2 0 (s2.fns.foldl (fun s f => stopQueues f.1 s) s2)
    exec (.crownFault t) s = .next v ∧ ∀ f, ∀ q ∈ (getFn v f).queues, q.2.st ≠ .running)
  ∧ (∀ slot, exec (.slotRefetchDone t die slot) s = .next (if (getDie u die).refetch.contains slot then
      startLanes die (startMac die (modDie die (fun d => { d with
      refetch := d.refetch.filter (· ≠ slot)
      bank := { d.bank with slots := match mget (crownBank u).slots slot with
        | some k => mset d.bank.slots slot k
        | none => mdel d.bank.slots slot } }) u)) else u))

/-- R406 to R408, R418: a GATE in a world whose checks pass saves the caller with its registers, enters the target world at the entry of the gate and passes the
registers under ARGS, the others zeroed; the first check that fails puts its code in a0 and the caller goes on. A GATE_RET restores the caller and passes a0 and a1 back; a world that an interrupt stopped goes on with its
own registers. An interrupt for a running world that is not the one in control saves the other's registers, zeroes them and enters that world. Where no world is in control, none is saved, or the interrupt's world runs already or is stopped, only time passes. -/
def Obligations.GatewaysPassControl : Prop := ∀ (t die : Nat) (s : State), die < (tick t s).dies.length → let u := tick t s
  let m := (getDie u die).mandrel
  (∀ index regs mbox, let e := if index < 64 then (if m.cur = 1 then m.gatesK else m.gatesS)[index]? else none
    let code := match e with
      | none => 1
      | some g => if g.flags.testBit 0 = false then 1
        else if g.callers.testBit m.cur = false then 2
        else if g.flags.testBit 1 = true ∧ (mbox.any fun b => 131072 < b.1 + b.2 || g.mboxLen < b.2) = true then 3
        else if (getWorld u die g.target).st ≠ 0 then 4 else 0
    (m.cur = 0 → exec (.gate t die index regs mbox) s = .next u)
    ∧ (∀ g, m.cur ≠ 0 → e = some g → code = 0 → exec (.gate t die index regs mbox) s = .next (modMandrel die (fun m => { m with
      saved := (m.cur, true, passRegs 6 regs) :: m.saved, cur := g.target, regs := passRegs g.args regs, entry := g.entry }) u))
    ∧ (m.cur ≠ 0 → code ≠ 0 → exec (.gate t die index regs mbox) s =
        .next (modMandrel die (fun m => { m with regs := lset (passRegs 6 regs) 0 code }) u)))
  ∧ (∀ a0 a1, exec (.gateRet t die a0 a1) s = .next (match m.saved with
    | [] => u
    | (w, gate, regs) :: rest => modMandrel die (fun m => { m with cur := w, regs := if gate then lset (lset regs 0 a0) 1 a1 else regs, saved := rest }) u))
  ∧ (∀ w, exec (.worldInterrupt t die w) s = .next (if (w = 1 ∨ w = 2) ∧ m.cur ≠ w ∧ (getWorld u die w).st = 0 then modMandrel die (fun m => { m with
      saved := if m.cur = 0 then m.saved else (m.cur, false, m.regs) :: m.saved, cur := w, regs := [0, 0, 0, 0, 0, 0] }) u else u))

/-- R405, R407, R409 to R412, R418: a running world that raises an exception, or misses its heartbeat while the debug port has not halted it, stops, is counted and recorded, and its calls return or go on;
on the Crown the commands caught in it complete with FAULT_RETRY, and a key world's unconfirmed changes are withdrawn. A world that does not run is not restarted again. The restart ends with the world running, unless its measurement failed or this
is its third restart within 60 s, which is recorded; what waited on the Crown goes on. A service world's reload does not end during HOLD. A gating request for a block is applied, held while a claim is on it, withdrawn, or recorded where the block can never be
gated; a held one is applied once no claim is left, and recorded once after 100 ms. -/
def Obligations.WorldsRestartAndGate : Prop := ∀ (t die w block : Nat) (s : State), let u := tick t s
  let x := getWorld u die w
  let m := (getDie u die).mandrel
  (∀ trig, let may := (w = 1 ∨ w = 2) ∧ die < u.dies.length ∧ x.st = 0
    let v := recEventAt die 0 0x0D02 ([byte w, byte trig] ++ zeros 6) (modMandrel die (·.without w)
        (modWorld die w (fun x => { x with st := 1, halted := false, restarts := satAdd x.restarts 1 0xFF
                                           times := (x.times.filter fun r => u.time.now < r + 60000000000) ++ [u.time.now] }) u))
    let jobs := (v.jobs.filter fun j => j.2.caught w).foldl (fun s j => stopJob j.1 stRetry 0 s) v
    let after := if die ≠ 0 then v else settleAll (claimRelease 0 6 (claimRelease 0 2 (if w = 1 then withdrawUnstaged jobs else jobs)))
    exec (.worldException t die w trig) s = .next (if may then after else u)
    ∧ (trig = 1 → exec (.heartbeatMiss t die w) s = .next (if may ∧ x.halted = false then after else u)))
  ∧ (∀ ok, let many := 3 ≤ (x.times.filter fun r => u.time.now < r + 60000000000).length
    let good := ok = true ∧ ¬ (w = 1 ∧ x.imageBad = true)
    let v := if x.st ≠ 1 ∨ (w = 2 ∧ u.hold = true) then u
      else if good ∧ ¬ many then modMandrel die (fun m => { m with cur := if m.cur = 0 then w else m.cur }) (modWorld die w (fun x => { x with st := 0 }) u)
      else recEventAt die 0 0x0D03 ([byte w, if good then 1 else if w = 1 then 0 else 2] ++ zeros 6) (modWorld die w (fun x => { x with st := 2 }) u)
    exec (.worldRestartDone t die w ok) s = .next (settleLedger (if die = 0 ∧ (w = 1 ∨ w = 2) then resumeWorld w v else v)))
  ∧ (∀ want, exec (.gatingRequest t die block want) s = .next (if (getDie u die).live = false then u
    else if 8 ≤ block then recEventAt die 0 0x0D04 ([byte block, 1] ++ zeros 6) u
    else if want = false then modMandrel die (fun m => { m with
      req := setBit m.req block false, held := setBit m.held block false, gated := setBit m.gated block false
      noted := setBit m.noted block false, heldAt := mdel m.heldAt block }) u
    else if claimed u die block = true then modMandrel die (fun m => { m with
      req := setBit m.req block true, held := setBit m.held block true
      heldAt := if m.held.testBit block then m.heldAt else mset m.heldAt block u.time.now }) u
    else modMandrel die (fun m => { m with req := setBit m.req block true, gated := setBit m.gated block true }) u))
  ∧ exec (.claimRelease t die block) s = .next (if m.held.testBit block = true ∧ claimed u die block = false then modMandrel die (fun m => { m with
      held := setBit m.held block false, gated := setBit m.gated block true, noted := setBit m.noted block false, heldAt := mdel m.heldAt block }) u else u)
  ∧ (let due := ∃ r, mget m.heldAt block = some r ∧ m.held.testBit block = true ∧ m.noted.testBit block = false ∧ r + 100000000 ≤ u.time.now
    (due → exec (.gatingRequestOverdue t die block) s =
        .next (recEventAt die 0 0x0D04 ([byte block, 0] ++ zeros 6) (modMandrel die (fun m => { m with noted := setBit m.noted block true }) u)))
    ∧ (¬ due → exec (.gatingRequestOverdue t die block) s = .next u))

/-- R364, R415 to R417: an access whose beats all pass changes nothing. Otherwise its refused beats are counted, and the first is reported with its address, kind, master, descriptor and reason, and recorded. A world that made it restarts, an access of the hypervisor level counts as an
uncorrectable error of Mandrel memory, the job of a DMA transfer is tried once more or ends, and for every other master nothing else happens. The debug port is held to the same check under its own master number, and
its halt acts on a world that the enables permit, else on nothing. -/
def Obligations.RefusedAccessesAreReported : Prop := ∀ (t die : Nat) (a : Access) (s : State), die < (tick t s).dies.length → let u := tick t s
  let bad (a : Access) := (beatsOf a).filterMap fun b => (beatReason u die a b).map fun r => (b, r)
  let report (a : Access) (n addr region reason : Nat) : State :=
    recEventAt die 1 0x0D01 (leBytes 4 addr ++ [byte (kindCode a.kind), byte a.master, byte region, byte reason])
      (modMandrel die (fun m => { m with
        viols := satAdd m.viols n 0x7FFF, region := if region = 0xFF then 0x3F else if region = 0xFE then 0x3E else region
        kind := kindCode a.kind, reason := reason, master := a.master, addr := addr }) u)
  (a.master ≤ 10 → bad a = [] → exec (.accessRefused t die a) s = .next u)
  ∧ (∀ addr reason n rest, bad a = (addr, reason, n) :: rest → let r := report a (rest.length + 1) addr n reason
    (a.master = 1 ∨ a.master = 2 → exec (.accessRefused t die a) s = .next (restartWorld die a.master 2 r))
    ∧ (a.master = 0 → exec (.accessRefused t die a) s = .next (memoryError die 3 a.addr (if die = 0 then 7 else 9) 0 a.addr r))
    ∧ (a.master = 3 ∨ a.master = 4 → (a.job = none → exec (.accessRefused t die a) s = .next r)
      ∧ (∀ j, a.job = some j → exec (.accessRefused t die a) s = .next (settleAll (dmaFault j r))))
    ∧ (5 ≤ a.master → a.master ≤ 10 → exec (.accessRefused t die a) s = .next r))
  ∧ (∀ id x (v : State), mget v.jobs id = some x →
    (x.phase ≠ .source → x.phase ≠ .table → dmaFault id v = v)
    ∧ (x.phase = .source ∨ x.phase = .table → dmaFault id v = if x.moved then collect id stRetry 0 [] [] none v
        else modJob id (fun y => { y with moved := true }) (countOn x.die 0x0F x.fn 1 v)))
  ∧ (let b := { a with master := 9, stage2 := false }
    (bad b = [] → exec (.debugAccess t die a false) s = .next u)
    ∧ (∀ addr reason n rest, bad b = (addr, reason, n) :: rest → exec (.debugAccess t die a false) s = .next (report b (rest.length + 1) addr n reason)))
  ∧ exec (.debugAccess t die a true) s = .next (if (a.world = 1 ∨ a.world = 2) ∧ u.life.enables.testBit (if a.world = 2 then 1 else 3) = true
      then modWorld die a.world (fun x => { x with halted := true }) u else u)

/-- R130, R136, R138, R139, R141, R161, R187, R190, R191, R41: how a job moves between the instants of its way. The dispatcher takes one entry: within the 96 takes of a microsecond, an admin ring's before a service queue's, both only while no
work ring is eligible or fewer than 8 of them have been taken, then a work ring's by weighted round robin; where there is none, the round ends. A poll of a live die reads up to 16 entries of one of its two internal rings, alternately.
A fragment table that fails a check ends its job, another lets its source be read; a source that arrives starts the operation of its job and is counted, or is kept with its Stamp where the job still waits for its admission; a read that fails ends the job with 0xFA,
with an error report. The collector sends what is ready and the freed engines go on; the Crown numbers the oldest batch, leaf by leaf. A PSN reservation that is written extends the range, outside HOLD. Where the job or the phase is another, only time passes. -/
def Obligations.JobsMoveOn : Prop := ∀ (t : Nat) (s : State), let u := tick t s
  (let w := endRound (takeWindow u)
    let work := ready w 0
    let may := work = [] ∨ w.takeSvc < 8
    (96 ≤ w.takeCount → exec (.descriptorTake t) s = .next (settleLedger w))
    ∧ (∀ x, w.takeCount < 96 → may → afterKey (ready w 2) w.rrAdmin = some x →
      exec (.descriptorTake t) s = .next (settleLedger (takeJob x.2.1 x.2.2 { w with rrAdmin := x.1, takeCount := w.takeCount + 1, takeSvc := w.takeSvc + 1 }).2))
    ∧ (∀ x, w.takeCount < 96 → may → afterKey (ready w 2) w.rrAdmin = none → afterKey (ready w 1) w.rrService = some x →
      exec (.descriptorTake t) s = .next (settleLedger (takeJob x.2.1 x.2.2 { w with rrService := x.1, takeCount := w.takeCount + 1, takeSvc := w.takeSvc + 1 }).2))
    ∧ (w.takeCount < 96 → (¬ may ∨ (afterKey (ready w 2) w.rrAdmin = none ∧ afterKey (ready w 1) w.rrService = none)) →
      (∀ r, nextWork work { w with takeCount := w.takeCount + 1 } = some r → exec (.descriptorTake t) s = .next (settleLedger (takeJob r.1 r.2.1 r.2.2).2))
      ∧ (nextWork work { w with takeCount := w.takeCount + 1 } = none → exec (.descriptorTake t) s = .next (settleLedger w))))
  ∧ (∀ die, let d := getDie u die
    let es := (if d.turnG then d.ringG else d.ringP).take 16
    let v := modDie die (fun d => { d with turnG := !d.turnG }) u
    let w := modDie die (fun x => if d.turnG then { x with ringG := x.ringG.drop 16, consG := (x.consG + es.length) % 512 }
      else { x with ringP := x.ringP.drop 16, consP := (x.consP + es.length) % 512 }) v
    (d.live = false ∨ d.halted = true ∨ u.crownFault = true → exec (.diePoll t die) s = .next (settleLedger u))
    ∧ (d.live = true → d.halted = false → u.crownFault = false → die < u.dies.length →
      exec (.diePoll t die) s = .next (settleLedger (es.foldl (fun s j => if (getJob s j).phase = .ring then admitOwn j s else s) w))))
  ∧ (∀ j x table, mget u.jobs j = some x → let e := firstFail (fragFails (semOf (getJob s j).d.op) x table)
    exec (.fragmentTableArrival t j table) s = .next (settleLedger (if x.phase = .table then (match e with
      | some f => finishJob j f.st f.info [] [] (modJob j (fun x => { x with refused := true }) u)
      | none => modJob j (fun x => { x with phase := .source, frags := table, srcLen := (fragLens table x.d.srcLen).sum }) u) else u)))
  ∧ (∀ j x src, mget u.jobs j = some x → let sem := semOf (getJob s j).d.op
    exec (.sourceArrival t j src) s = .next (settleLedger (if x.phase = .source then
      sem.go j (countOn x.die 5 x.fn x.srcLen (modJob j (fun y => { y with phase := .engine, src := fit y.srcLen src, arrived := some (jobStamp u y) }) u))
      else if readsEarly sem x = true then modJob j (fun y => { y with src := fit y.d.srcLen src, arrived := some (fnStamp u (bankOf u y.die) y.fn) }) u else u)))
  ∧ (∀ j x addr, mget u.jobs j = some x → let v := aerError x.fn 1 addr u
    exec (.sourceReadFail t j addr) s = .next (settleLedger (if x.phase = .source ∨ x.phase = .table then finishJob j stInput 0xFA [] [] v
      else if readsEarly (semOf (getJob s j).d.op) x = true then modJob j (fun y => { y with srcBad := true }) v else u)))
  ∧ (∀ j, mget u.jobs j = none → (∀ table, exec (.fragmentTableArrival t j table) s = .next (settleLedger u))
    ∧ (∀ src, exec (.sourceArrival t j src) s = .next (settleLedger u)) ∧ (∀ addr, exec (.sourceReadFail t j addr) s = .next (settleLedger u)))
  ∧ (∀ die, let d := getDie u die
    let ids := (byAdmission u d.collector).foldl (fun (acc : List Nat × State) j =>
      if acc.1.length < 32 && collectorReady acc.2 die j then (acc.1 ++ [j], modJob j (fun x => { x with phase := .ingress }) acc.2) else acc) ([], u)
    let v := modDie die (fun d => refill { d with collector := d.collector.filter fun j => !ids.1.contains j }) ids.2
    let sent := if d.live = false ∨ 2048 ≤ u.ingress.length ∨ ids.1 = [] then u
      else ids.1.foldl (fun s j => if (getJob s j).leaf.isSome then countOn die 6 (getJob s j).fn 1 s else s) { v with ingress := v.ingress ++ [ids.1] }
    exec (.collectorBatchSend t die) s = .next (settleLedger (startLanes die (startMac die sent))))
  ∧ exec (.leafArrival t) s = .next (settleLedger (match u.ingress with
    | [] => settle u
    | b :: bs => b.foldl (fun s j => settle (modJob j (fun x => if x.phase = .ingress then { x with phase := .sequenced } else x) s)) { u with ingress := bs }))
  ∧ exec (.psnReservationWritten t) s = .next (if u.hold = true ∨ u.psnWriting = false then u
      else settleAll (writeCarry (writeImage { u with psnCeil := u.psnCeil + 1099511627776, psnWriting := false })))

/-- R46, R47, R176, R266, R277, R279, R281: a MAC core, the mapper or the DRBG ends the job it runs, unless its skid buffer is full. A lane ends its job, except that a signature or secret that fails its
check before release is a lane fault, counted and recorded; an idle lane ends none. A fetched curve table enters the cache and starts the jobs that wait for it. At a yield point the oldest waiting job of the highest class takes a lane whose running job is of a lower class
and has more time left than it needs, where no lane is idle, this lane holds no suspended job and is the first of those that meet the tests; the running job is suspended. An engine fault takes the job from its unit and moves it, notes the fault, and at the third
within one second retires the unit with a record; a fault of a unit that is retired or absent, or of a die out of service, changes nothing. -/
def Obligations.EnginesEndAndFail : Prop := ∀ (t die : Nat) (s : State), let u := tick t s
  let d := getDie u die
  (∀ j x, mget u.jobs j = some x →
    let ends := x.phase = .engine ∧ onLane u j = false ∧ onEngine u j x = true ∧ stalled (getDie u x.die) (outlet x).1 (outlet x).2 = false
    (ends → exec (.engineJobDone t j) s = .next (settleLedger ((semOf x.d.op).fin j u)))
    ∧ (¬ ends → exec (.engineJobDone t j) s = .next (settleLedger u)))
  ∧ (∀ lane verified, let k := d.lanes.getD lane {}
    (k.job = none → exec (.laneJobDone t die lane verified) s = .next (settleLedger u))
    ∧ (∀ j, k.job = some j → let x := getJob u j
      let bad := verified = false ∧ checkedRelease x = true
      (¬ bad → exec (.laneJobDone t die lane verified) s = .next (settleLedger (if x.ring = ownRing then signEnd j u else (semOf x.d.op).fin j u)))
      ∧ (bad → exec (.laneJobDone t die lane verified) s = .next (settleLedger (engineFault die 1 lane
          (modDie die (fun d => { d with verifyFail := satAdd d.verifyFail 1 0xFFFF })
            (recEventAt die 0 0x0601 ([byte lane, byte (match x.key with | some key => key.alg | none => 0)] ++ zeros 6) u)))))))
  ∧ (∀ tenant table,
    let hit (j : Nat) : Bool := (tableOf (getJob u j)).any fun t => t.1 = tenant && t.2.1 = table
    let lines := (d.fetching.filter hit).filterMap fun j => tableOf (getJob u j)
    exec (.curveFetchDone t die tenant table) s = .next (if lines = [] then u else startLanes die (modDie die (fun d => { d with
      fetching := d.fetching.filter fun j => !hit j
      curveCache := (lines.foldl (fun c l => l :: c.filter (· ≠ l)) d.curveCache).take 256 }) u)))
  ∧ (∀ lane remaining need, let k := d.lanes.getD lane {}
    (k.job = none ∨ pickRq u die lane = none → exec (.laneYield t die lane remaining need) s = .next u)
    ∧ (∀ j x, k.job = some j → pickRq u die lane = some x → let y := getJob u x
      let n := (laneTime y).getD need
      let meets (l : Nat) : Bool := mayYield u (d.lanes.getD l {}) (rclass y) (remaining.getD l 0) n
      let yields := d.lanes.any laneIdle = false ∧ meets lane = true ∧ u.hold = false
        ∧ ∀ l < d.lanes.length, l ≠ lane → meets l = true → yieldsBefore u k (d.lanes.getD l {}) (remaining.getD lane 0) (remaining.getD l 0) lane l = true
      (yields → exec (.laneYield t die lane remaining need) s = .next (enterLane die lane x (fun u => { u with susp := u.job, suspKey := u.key, suspBlind := u.blind })
        (modJob j (fun y => { y with suspends := satAdd y.suspends 1 255 }) (countOn die 9 0 1 u))))
      ∧ (¬ yields → exec (.laneYield t die lane remaining need) s = .next u)))
  ∧ (∀ kind core, let k := (d.units kind).getD core {}
    let works := d.live = true ∧ kind ≤ 2 ∧ core < (d.units kind).length ∧ k.retired = false
    let fs := (k.faults.filter fun r => u.time.now < r + 1000000000) ++ [u.time.now]
    (¬ works → exec (.engineFault t die kind core) s = .next (settleLedger u))
    ∧ (works → die < u.dies.length → let c := if kind = 1 then modDie die (fun d => { d with laneFault := satAdd d.laneFault 1 0xFFFF }) u else u
      let a := modDie die (fun d => d.setUnit kind core { faults := fs, retired := decide (3 ≤ fs.length) }) c
      let b := if 3 ≤ fs.length then recEventAt die 0 0x0B03 ([byte kind, byte core] ++ zeros 6) a else a
      let v := dropUnfit die kind ((k.job.toList ++ k.susp.toList).foldl (fun s j => moveJob j kind core s) b)
      exec (.engineFault t die kind core) s = .next (settleLedger (if kind = 1 then startLanes die v else startMac die v))))
  ∧ (∀ j kind core x (v : State), mget v.jobs j = some x → moveJob j kind core v =
      if x.moved = true ∨ healthy (getDie v x.die) kind x.srcLen (some core) = false then collect j stRetry 0 [] [] none v
      else modDie x.die (fun d => if kind = 1 then { d with rq := j :: d.rq.filter (· ≠ j) } else { d with macQ := j :: d.macQ.filter (· ≠ j) })
        (modJob j (fun y => { y with moved := true, bar := some core }) (countOn x.die 0x0F x.fn 1 v)))

/-- R224 to R228, R234, R239, R247: a bow of a live die that fails a test is out; the next standby bow takes an active one's place, with a record, and without one the die's entropy is down, which is recorded and signalled; a bias warning
is a record only; a repetition or adaptive failure of the active bow discards the blocks held. A retest 100 ms after a failure makes the bow standby, or active where none is, or fails it again. A released block enters the FIFO, or is
discarded after a reload, and what waits for entropy is served. A request that has waited 10 ms for entropy ends with ENTROPY_FAIL; a draw that has, is held. A waiting draw is placed, ends or goes on waiting as R239 says. A due draw, the first in order, takes a seed on a die
that holds an instance and runs; it waits where there is no seed, and in HOLD. Otherwise only time passes. -/
def Obligations.EntropyEventsAct : Prop := ∀ (t die bow : Nat) (s : State), let u := tick t s
  let d := getDie u die
  let b := d.bows.getD bow {}
  let out (test : BowTest) := modDie die (fun d => { countTest test d with bows := lset d.bows bow (failBow u.time.now b) }) u
  let drop (test : BowTest) := if b.st = 3 ∧ (test = .repetition ∨ test = .adaptive) then reloadCarder die (out test) else out test
  (∀ test, (d.live = false → exec (.bowTestFail t die bow test) s = .next u)
    ∧ (d.live = true → test = .startup → b.shown u.time.now ≠ 1 → exec (.bowTestFail t die bow test) s = .next u)
    ∧ (d.live = true → test ≠ .startup → b.st ≠ 2 → b.st ≠ 3 → exec (.bowTestFail t die bow test) s = .next u)
    ∧ (d.live = true → test = .biasWarning → b.st = 2 ∨ b.st = 3 →
      exec (.bowTestFail t die bow test) s = .next (recEventAt die 0 0x0501 ([byte bow, byte bow, 3] ++ zeros 5) u))
    ∧ (∀ n, d.live = true → test ≠ .startup → test ≠ .biasWarning → b.st = 3 → nextBow d bow = some n →
      exec (.bowTestFail t die bow test) s = .next (recEventAt die 0 0x0501 ([byte bow, byte n, byte (testCode test)] ++ zeros 5)
        (modDie die (fun d => { d with bows := lset d.bows n { d.bows.getD n {} with st := 3 }, switches := satAdd d.switches 1 255 }) (drop test))))
    ∧ (d.live = true → test ≠ .startup → test ≠ .biasWarning → b.st = 3 → nextBow d bow = none →
      exec (.bowTestFail t die bow test) s = .next (signal 0 0 (recEventAt die 0 0x0502 (zeros 8) (drop test))))
    ∧ (d.live = true → test ≠ .startup → test ≠ .biasWarning → b.st = 2 → exec (.bowTestFail t die bow test) s = .next (out test)))
  ∧ (let due := d.live = true ∧ b.st = 4 ∧ (b.fails.getLast?.getD 0) + 100000000 ≤ u.time.now
    (¬ due → ∀ pass, exec (.bowRetest t die bow pass) s = .next (settleLedger (serveEntropy die u)))
    ∧ (due → exec (.bowRetest t die bow true) s =
        .next (settleLedger (serveEntropy die (modDie die (fun d => { d with bows := lset d.bows bow { b with st := if d.bows.any (·.st = 3) then 2 else 3 } }) u)))
      ∧ exec (.bowRetest t die bow false) s = .next (settleLedger (serveEntropy die (modDie die (fun d => { d with bows := lset d.bows bow (failBow u.time.now b) }) u)))))
  ∧ (let c := freeBytes 32 u
    let f := freeBytes 32 c.2
    exec (.releaseBlock t die) s = .next (settleLedger (serveEntropy die (if d.live = false ∨ entropyUp d = false then u
      else if 0 < d.discard then modDie die (fun d => { d with discard := d.discard - 1, carder := c.1 }) c.2
      else modDie die (fun d => { d with fifo := (d.fifo ++ d.stage.headD d.carder).take 4096, stage := [c.1], carder := f.1 }) f.2))))
  ∧ (∀ j, (∀ x, mget u.jobs j = some x → (x.phase = .wait 10 ∨ x.phase = .wait 12) → x.waitT + 10000000 ≤ u.time.now →
      exec (.entropyWaitTimeout t j) s = .next (settleAll (finishJob j stEntropy 0 [] [] u)))
    ∧ (∀ x, mget u.jobs j = some x → ¬ ((x.phase = .wait 10 ∨ x.phase = .wait 12) ∧ x.waitT + 10000000 ≤ u.time.now) →
      let onQueue := x.ring ≠ ownRing ∧ x.entWait.any (· + 10000000 ≤ u.time.now) = true ∧ (getDie u x.die).rq.contains j = true
      exec (.entropyWaitTimeout t j) s = .next (settleAll (if onQueue then collect j stEntropy 0 [] [] none
        (modDie x.die (fun d => { d with rq := d.rq.filter (· ≠ j), fetching := d.fetching.filter (· ≠ j) }) u) else u)))
    ∧ (mget u.jobs j = none → exec (.entropyWaitTimeout t j) s = .next (settleAll
      (modDraw j (fun d => if d.due.isSome && d.waitT.any (· + 10000000 ≤ u.time.now) then d.hold else d) u))))
  ∧ (∀ j x, mget u.jobs j = some x → exec (.drawPlacement t j) s = .next (settleAll (if x.phase = .wait 11 ∨ x.phase = .wait 12 then (match drawPlace u x.tenant with
      | .fail i => finishJob j stNotReady i [] [] u
      | .die p => placeDraw j p u
      | .wait => modJob j (fun y => { y with phase := .wait 11 }) u
      | .waitEntropy => modJob j (fun y => { y with phase := .wait 12, waitT := if y.phase = .wait 12 then y.waitT else u.time.now }) u) else u)))
  ∧ (∀ j, mget u.jobs j = none → exec (.drawPlacement t j) s = .next (settleAll u))
  ∧ (∀ i, (u.hold = true ∨ (u.draws.find? (·.id = i)).bind (·.due) = none → exec (.scheduledDrawExecute t i) s = .next (settleAll u))
    ∧ (∀ r e, u.hold = false → u.draws.find? (·.id = i) = some r → r.due = some e →
      (dueDie u r = none → exec (.scheduledDrawExecute t i) s = .next (settleAll (if drawPossible u r.tenant then u else waitDraw i u)))
      ∧ (∀ p, dueDie u r = some p → (notFirst u r = true → exec (.scheduledDrawExecute t i) s = .next (settleAll u))
        ∧ (notFirst u r = false → takeSeed p u = none → exec (.scheduledDrawExecute t i) s = .next (settleAll (waitDraw i u)))
        ∧ (∀ v, notFirst u r = false → takeSeed p u = some v →
          let index := (((getDie v.2 p).drawDrbgs.find? fun i => i.tenant = r.tenant && i.busy = none && i.ready).map (·.index)).getD 32
          let o := mapOn p index r (setInst p index (·.reseed v.1) v.2)
          (o.1 = none → exec (.scheduledDrawExecute t i) s = .next (settleAll o.2))
          ∧ (∀ ob, o.1 = some ob → let r1 := { r with st := 3, due := none, waitT := none, die := p, exec := e, runStamp := pkgStamp v.2
                                                      seedDig := seedDigest r.id v.1, outcome := ob, outDig := outcomeDigest ob }
            exec (.scheduledDrawExecute t i) s = .next (settleAll (leafOut r1 (drawLeaf v.2 0x11 r1) o.2)))))))

/-- R192, R193, R198, R202, R210, R213, R214, R215 to R217, R221, R458: a live die finalises the subtree of a closed epoch and returns its root, which the Crown holds where its count is the Crown's own and else discards, with a record, for a rebuild; one that a HOLD has caught waits. A root that is missing is built from the
journal, or is all ones, marked LOST and recorded, where the pages fail their verification; what is complete becomes final. The lane that signs the oldest waiting batch signature ends it, and the batch is released in order. A host root not submitted by its deadline is built by the Crown and
recorded. A page goes to its place in the store, and what stood there, with the rest of its epoch, is gone; a failed write stalls the store. 60 s without a checkpoint stop the appends, not in BLANK or TEST. The leaf message of a ledger ring goes out at most every 100 µs.
LDG_JS_CFG sets its fields and enables a store of legal size and place until it is active. Otherwise only time passes. -/
def Obligations.LedgerEventsAct : Prop := ∀ (t : Nat) (s : State), let u := tick t s
  (∀ die tn e, let p? := (getLedger u tn).pend.find? (·.epoch = e)
    (∀ p, p? = some p → (getDie u die).live = true → (u.hold = false ∨ p.closedAt < u.pwr.holdAt) →
      let d := finaliseDie e (getDie u die)
      let x := subtreeOf d tn e
      let v := modDie die (fun _ => d.dropTree tn e) u
      exec (.dieRootReturn t die tn e) s = .next (settleLedger (
        if p.host = true ∨ (p.roots.getD die none).isSome = true ∨ p.discarded.testBit die = true then v
        else if x.count = p.counts.getD die 0 then finalise 64 tn (setRoot tn p.epoch die (fun p => { p with roots := lset p.roots die (some (rootOfNodes x.nodes)) }) v)
        else recEvent 0x0401 (leBytes 2 tn ++ leBytes 6 p.epoch) (setRoot tn p.epoch die (fun p => { p with discarded := p.discarded ||| 2 ^ die }) v))))
    ∧ (p? = none → exec (.dieRootReturn t die tn e) s = .next (settleLedger u))
    ∧ (∀ p, p? = some p → ((getDie u die).live = false ∨ (u.hold = true ∧ u.pwr.holdAt ≤ p.closedAt)) → exec (.dieRootReturn t die tn e) s = .next (settleLedger u))
    ∧ (∀ p, p? = some p → let no := p.host = true ∨ (p.roots.getD die none).isSome = true ∨ ((getDie u die).live = true ∧ p.discarded.testBit die = false)
      (no → ∀ ok, exec (.dieRootRebuild t die tn e ok) s = .next (settleLedger u))
      ∧ (¬ no → exec (.dieRootRebuild t die tn e true) s = .next (settleLedger (finalise 64 tn (setRoot tn e die (fun p => { p with
          roots := lset p.roots die (some (p.dieVal.getD die (zeros 48))), rebuilt := p.rebuilt ||| 2 ^ die }) u)))
        ∧ exec (.dieRootRebuild t die tn e false) s = .next (settleLedger (finalise 64 tn (recEvent 0x0405 (leBytes 2 tn ++ leBytes 6 e) (setRoot tn e die (fun p => { p with
          roots := lset p.roots die (some (List.replicate 48 0xFF)), lost := p.lost ||| 2 ^ die }) u))))))
    ∧ (p? = none → ∀ ok, exec (.dieRootRebuild t die tn e ok) s = .next (settleLedger u)))
  ∧ (let b? := u.signQ.find? (·.sig.isNone)
    (∀ b j, b? = some b → u.jobs.find? (fun j => j.2.batch = some b.no && (laneOf u j.1).isSome) = some j → exec (.batchSigned t) s = .next (settleLedger (batchEnd j.1 u)))
    ∧ (∀ b, b? = some b → u.jobs.find? (fun j => j.2.batch = some b.no && (laneOf u j.1).isSome) = none → exec (.batchSigned t) s = .next (settleLedger u))
    ∧ (b? = none → exec (.batchSigned t) s = .next (settleLedger u)))
  ∧ (∀ id v, let x := getJob v id
    let f := freeLane id v
    let w := { f with jobs := mdel f.jobs id }
    let b? := w.signQ.find? fun b => x.batch = some b.no && b.sig.isNone
    (b? = none → batchEnd id v = w) ∧ (∀ b, b? = some b → batchKey w b = none → batchEnd id v = w)
    ∧ (∀ b k, b? = some b → batchKey w b = some k → let g := deviceSign x.die k b.key (batchMessage b k.alg) w
      batchEnd id v = releaseSigned g.2.signQ.length { g.2 with signQ := g.2.signQ.map fun c => if c.no = b.no then { c with sig := some (k.alg, g.1) } else c }))
  ∧ (∀ tn ok, (∀ p, awaiting (getLedger u tn) = some p → p.closedAt + (getLedger u tn).deadline * 1000000000 ≤ u.time.now →
      let q0 := { p with fallback := true, host := false, sub := none, roots := p.dieVal.map some }
      let q := (List.range 8).foldl (fun q d => if p.counts.getD d 0 = 0 then q else rebuiltRoot d ok q) q0
      let v := recEvent 0x0404 (leBytes 2 tn ++ leBytes 6 p.epoch) (modLedger tn (fun l => { putPend q l with lapsed := p.sub.isSome || l.lapsed }) u)
      exec (.hostRootDeadline t ⟨tn, ok⟩) s = .next (settleLedger (finalise 64 tn (if ok = true then v else recEvent 0x0405 (leBytes 2 tn ++ leBytes 6 p.epoch) v))))
    ∧ (∀ p, awaiting (getLedger u tn) = some p → u.time.now < p.closedAt + (getLedger u tn).deadline * 1000000000 → exec (.hostRootDeadline t ⟨tn, ok⟩) s = .next (settleLedger u))
    ∧ (awaiting (getLedger u tn) = none → exec (.hostRootDeadline t ⟨tn, ok⟩) s = .next (settleLedger u)))
  ∧ (let may (p : JPage) := u.jsActive = true ∧ busOff u 0 = false ∧ storePlaceFree u p = true
    (∀ ok, nextStorePage u = none → exec (.journalPageWrite t ok) s = .next (settleLedger u))
    ∧ (∀ p, nextStorePage u = some p →
      (¬ may p → ∀ ok, exec (.journalPageWrite t ok) s = .next (settleLedger u))
      ∧ (may p → exec (.journalPageWrite t false) s = .next (settleLedger { u with storeFault := true, storeStall := true })
        ∧ (let v := emit (.write 0 (u.jsBase + p.no % 2 ^ u.jsLog2 * 4608) p.bytes) u
          let gone := (v.pages.filter fun q => q.store && q.no % 2 ^ u.jsLog2 = p.no % 2 ^ u.jsLog2).map (·.epoch)
          exec (.journalPageWrite t true) s = .next (settleLedger (settle { v with
            storeStall := false
            pages := (v.pages.filter fun q => !gone.contains q.epoch).map
              (fun (q : JPage) => if q.no = p.no then { q with store := true, sram := false } else q) }))))))
  ∧ exec (.checkpointOverdue t) s = .next (if u.lcs ≠ .blank ∧ u.lcs ≠ .test ∧ acquired u = true ∧ u.ckptAt + 60000000000 ≤ u.time.now then { u with ckptOverdue := true } else u)
  ∧ (∀ i, exec (.ledgerLeafMessage t i) s = .next (match u.lrings[i]? with
    | none => u
    | some r => if r.leafDue = true ∧ r.leafMsgAt + 100000 ≤ u.time.now then
        let v := { u with lrings := lset u.lrings i { r with leafDue := false, leafMsgAt := u.time.now } }
        if r.vector = 0xFF then v else signal r.owner r.vector v
      else u))
  ∧ (∀ v, let n := bits v 0 5
    exec (.ldgJsEnable t v) s = .next (if windowOpen u 0 false = false ∨ u.jsActive = true then u
      else if bits v 8 1 ≠ 1 then { u with jsLog2 := n }
      else if 10 ≤ n ∧ n ≤ 24 ∧ u.jsBase % 4096 = 0 then { u with jsLog2 := n, jsActive := true } else { u with jsBad := true }))

/-- R37, R71, R74, R77, R90, R463: a live die whose world may stage holds the changes of the target STAGED and acknowledges; a confirm flit confirms them where the Crown has confirmed the target; 10 µs before the boundary the Crown fences the dies that have not acknowledged
and confirms, or withdraws the changes while it cannot stage itself. A boundary whose instant has come advances the epoch count by one and does the work of R77 in its order; in RETAIN, or on the way to it or from it, the count alone advances. Otherwise only time passes. -/
def Obligations.FenceAndBoundary : Prop := ∀ (t : Nat) (s : State), let u := tick t s
  (∀ die tgt, let mine := u.fence.head?.filter (·.target = tgt)
    (∀ f fs, u.fence = f :: fs → f.target = tgt →
      (f.staging = true → (getDie u die).live = true → mayStage u die f = true → let v := modDie die (fun d => { d with
          staged := some { target := tgt, confirmed := false, changes := f.changes } }) u
        exec (.stagingAck t die tgt) s = .next (settleStaging { v with fence := { f with acks := insertNat f.acks die } :: fs }))
      ∧ (f.staging = false ∨ (getDie u die).live = false ∨ mayStage u die f = false → exec (.stagingAck t die tgt) s = .next u)
      ∧ exec (.confirmFlit t die tgt) s = .next (if f.confirmed = true then modDie die (fun d => { d with staged := match d.staged with
          | some g => if g.target = tgt then some { g with confirmed := true } else some g
          | none => none }) u else u)
      ∧ (let due := f.staging = true ∧ acquired u = true ∧ boundaryAt u tgt ≤ u.time.now + 10000
        (¬ due → exec (.fenceConfirm t tgt) s = .next u)
        ∧ (due → f.acks.contains 0 = false ∨ (getDie u 0).mandrel.kw.st ≠ 0 → exec (.fenceConfirm t tgt) s = .next (withdrawTarget tgt u))
        ∧ (due → f.acks.contains 0 = true → (getDie u 0).mandrel.kw.st = 0 →
          let v := urgentAll 5 tgt (((liveDies u).filter fun d => !f.acks.contains d).foldl (fun s d => fenceDie d 4 s) u)
          exec (.fenceConfirm t tgt) s = .next (settleStaging { v with fence := v.fence.map fun (g : FenceTarget) => if g.target = tgt then { g with confirmed := true } else g }))))
    ∧ (mine = none → exec (.stagingAck t die tgt) s = .next u ∧ exec (.confirmFlit t die tgt) s = .next u ∧ exec (.fenceConfirm t tgt) s = .next u))
  ∧ (let b := s.time.epoch + 1
    let at_ := boundaryAt s b
    let v := refreshTrust (flushOow (setNow (max s.time.now at_) s))
    let w := syncPair b { v with time := { v.time with epoch := b } }
    let swapped := closeEpoch (b - 1) (fun tn => ledgerPolicy s tn = 3) (refreshTrust (swapAt b w))
    let signed := ckptAtBoundary (batchesAt b (packageAt b (snapAt b (roundAt b (drawsAt b swapped)))))
    (acquired s = false ∨ max s.time.now t < at_ → exec (.epochBoundary t) s = .next u)
    ∧ (acquired s = true → at_ ≤ max s.time.now t →
      (s.pwrState = 2 ∨ s.pwrState = 3 → exec (.epochBoundary t) s = .next w)
      ∧ (s.pwrState ≠ 2 → s.pwrState ≠ 3 → exec (.epochBoundary t) s = .next (settleAll (finishRetires (stagingStart signed))))))

/-- R91, R94, R95, R118, R124, R147, R153, R463, R464, R475 to R477, R479: a write to the BAR of a function. Below 16 KiB it reaches the function's own window, where the map is open to it: a 4-byte aligned write to a slot of an existing queue acts as its register says, any other write to it is discarded and sets BAD_WRITE; a
4-byte aligned write to an existing completion ring, and a 4- or 8-byte one to the MSI-X table, act likewise; every other offset ignores it. Above, the PF alone reaches the set-up area: while it answers, a 4-byte aligned write to a register acts as the table of R477 says, an 8-byte one to a pair is the two in turn,
any other to a register is recorded, and to anything else ignored; outside ACTIVE only PWR_WAKE acts. A PF admin register changes while the ring is DISABLED and idle, and both its indices and those of its completion ring start again at 0. A read that the BAR
serves returns its bytes, the PF's latching the pairs it includes; any other completes with Unsupported Request. PWR_WAKE ends RETAIN. -/
def Obligations.BarAccessesAct : Prop := ∀ (t fn : Nat) (s : State), let u := tick t s
  (∀ off len v, off < 0x4000 →
    (fnOpen u fn = false → exec (.registerWrite t fn off len v) s = .next u)
    ∧ (fnOpen u fn = true →
      (∀ r, slotRing off = some r → exec (.registerWrite t fn off len v) s = .next (
        if (getQ u ⟨fn, r⟩).st = .absent ∨ 0x18 ≤ off % 0x40 then u
        else if len = 4 ∧ off % 4 = 0 then slotWord ⟨fn, r⟩ (off % 0x40) (lo32 v) u
        else modQ ⟨fn, r⟩ (fun y => { y with badWrite := true }) u))
      ∧ (slotRing off = none → 0x1100 ≤ off → off < 0x1320 → exec (.registerWrite t fn off len v) s = .next (
        if len = 4 ∧ off % 4 = 0 then cqWrite fn ((off - 0x1100) / 0x20) (off % 0x20) (lo32 v) u else u))
      ∧ (0x2000 ≤ off → off < 0x2400 → exec (.registerWrite t fn off len v) s = .next (
        if len = 4 ∧ off % 4 = 0 then msixWrite fn (off - 0x2000) (lo32 v) u
        else if len = 8 ∧ off % 8 = 0 then msixWrite fn (off - 0x2000 + 4) (hi32 v) (msixWrite fn (off - 0x2000) (lo32 v) u) else u))
      ∧ (slotRing off = none → (off < 0x1100 ∨ 0x1320 ≤ off) → (off < 0x2000 ∨ 0x2400 ≤ off) → exec (.registerWrite t fn off len v) s = .next u)))
  ∧ (∀ r v, slotWord ⟨fn, r⟩ 0 v u = doorbell ⟨fn, r⟩ (bits v 0 16) u ∧ slotWord ⟨fn, r⟩ 4 v u = invalidate ⟨fn, r⟩ (bits v 0 16) u
    ∧ slotWord ⟨fn, r⟩ 8 v u = (if v.testBit 0 then enableRing ⟨fn, r⟩ u else disableRing ⟨fn, r⟩ u)
    ∧ slotWord ⟨fn, r⟩ 0xC v u = modQ ⟨fn, r⟩ (fun y => { y with
        dropped := y.dropped && !v.testBit 22, badWrite := y.badWrite && !v.testBit 23, holdLong := y.holdLong && !v.testBit 24 }) u
    ∧ slotWord ⟨fn, r⟩ 0x10 v u = u ∧ slotWord ⟨fn, r⟩ 0x14 v u = u)
  ∧ (∀ off len v, 0x4000 ≤ off →
    (fn ≠ 0 → exec (.registerWrite t fn off len v) s = .next u)
    ∧ exec (.registerWrite t 0 off len v) s = .next (setupAccess off len v u))
  ∧ (∀ off len v, setupAccess off len v u = (
      if u.startStep < 5 ∨ u.lcs = .scrap ∨ (getFn u 0).mse = false then u
      else if u.pwrState ≠ 0 then (if off = 0x1C0014 ∧ len = 4 ∧ v.testBit 0 = true then wakeUp 0 u else u)
      else if u.lcs = .invalid ∧ invalidServes ((off - 0x100000) / 0x10000) = false then u
      else if len = 4 ∧ off % 4 = 0 then (if (setupReg u off).isSome then setupWord off (lo32 v) u else u)
      else if len = 8 ∧ pairWrites.contains off then setupWord (off + 4) (hi32 v) (setupWord off (lo32 v) u)
      else if (setupReg u (off / 4 * 4)).isSome then { u with badOffset := off % 4194304, badCount := satAdd u.badCount 1 255 } else u))
  ∧ (∀ v, setupWord 0x100008 v u = { u with fnEvent := clearEvents v u.fnEvent } ∧ setupWord 0x1C0010 v u = { u with pwr := { u.pwr with idleUs := bits v 0 10 } }
    ∧ setupWord 0x100004 v u = { u with dieChanged := u.dieChanged && !v.testBit 8 })
  ∧ (∀ off len v, exec (.pfAdminConfigWrite t off len v) s = .next (if off < 0x1C then setupAccess (0x110000 + off) len v u else u))
  ∧ (∀ off v, off < 0x1C → setupWord (0x110000 + off) v u = (if (getQ u ⟨0, 0x40⟩).st = .disabled ∧ idle u ⟨0, 0x40⟩ = true then
      { modCq 0 16 (fun c => { c with
          producer := 0, head := 0, posted := 0
          base := if off = 8 then setWord c.base false v else if off = 0xC then setWord c.base true v else c.base
          indexBase := if off = 0x10 then setWord c.indexBase false v else if off = 0x14 then setWord c.indexBase true v else c.indexBase
          log2 := if off = 0x18 then bits v 4 4 else c.log2
          vector := if off = 0x18 then bits v 8 6 else c.vector })
        (modQ ⟨0, 0x40⟩ (fun y => { y with
          head := 0, tail := 0
          base := if off = 0 then setWord y.base false v else if off = 4 then setWord y.base true v else y.base
          log2 := if off = 0x18 then bits v 0 4 else y.log2 }) u) with pfFresh := true } else u))
  ∧ (∀ off len, exec (.pairLatchRead t ⟨fn, off⟩ len) s = .next (
      if 5 ≤ u.startStep ∧ u.lcs ≠ .scrap ∧ fnExists u fn = true ∧ (getFn u fn).mse = true ∧ off + len ≤ barSize u fn ∧ readServed fn off len = true then
        let v := if fn = 0 then latchPairs off len u else u
        emit (.readData ((List.range len).map fun i => barByte v fn (off + i))) v
      else emit .unsupported u))
  ∧ (∀ v, exec (.pwrWake t v) s = .next (if v.testBit 0 = true ∧ u.pwrState = 2 then { u with pwrState := 3, pwr := { u.pwr with wakeCause := 0 } } else u))

/-- R93, R106, R112, R114 to R119, R221, R464, R467: the events of the host link. D3hot holds a function's messages, its end and Bus Master Enable send them, after the staged completions and held index blocks; with Bus Master Enable the engines and a failed journal store go on. A vector that is unmasked, or MSI-X Enable with
Function Mask 0, sends the pending messages of vectors not masked. VF Enable takes NumVFs and the page size, both fixed while it is 1; cleared, it starts the reset of every VF instance and marks it for destruction. An FLR of a function that exists frees it of D3hot and held messages, and begins its reset where it has an instance; the
PF's destroys the VF instances too, and ends a fatal state once the link is up; during RETAIN a reset of the link wakes the package first. A hot reset clears the host's settings of every function and resets as the PF's FLR does. A fatal link error stops all memory requests and is reported and recorded; a poisoned write is discarded and reported. A link below x16
at 32 GT/s is recorded. At the end of an instance reset, the ledger rings of its owner are gone, the admin pair is fresh and, of a VF, RUNNING, a destroyed instance is gone, and who waited completes. -/
def Obligations.HostLinkEventsAct : Prop := ∀ (t fn : Nat) (s : State), let u := tick t s
  let f := getFn u fn
  exec (.d3hotEntry t fn) s = .next (modFn fn (fun n => { n with d3hot := true }) u)
  ∧ exec (.d0Return t fn) s = .next (sendHeld fn (modFn fn (fun n => { n with d3hot := false }) u))
  ∧ (∀ on mem, let a := modFn fn (fun n => { n with bme := on, mse := mem }) u
    let b := if on then sendHeld fn (postFn fn a) else a
    exec (.busMasterEnableChange t fn ⟨on, mem⟩) s = .next (settleLedger (restartEngines (if busOff b 0 then b else { b with storeStall := false }))))
  ∧ (∀ v, exec (.msixUnmask t fn v) s = .next (sendPending fn (modFn fn (fun n => { n with msix :=
      if v < 64 then { n.msix with table := mset n.msix.table v { ((mget n.msix.table v).getD {}) with masked := false } }
      else if v = 64 then { n.msix with enable := true, fnMask := false } else if v = 65 then { n.msix with enable := true, fnMask := true }
      else { n.msix with enable := false } }) u)))
  ∧ (∀ n p, exec (.vfEnableSet t ⟨n, p⟩) s = .next (if u.vfEnable then u else { u with vfEnable := true, numVfs := min n 1023, page64 := p }))
  ∧ exec (.vfEnableClear t) s = .next { (u.fns.foldl (fun s f => if f.1 ≠ 0 ∧ f.2.present then
      modFn f.1 (fun n => { n with destroying := true }) (startReset f.1 s) else s) u) with vfEnable := false }
  ∧ (u.pwrState = 2 → exec (.flr t fn) s = .next { u with pwrState := 3, pwr := { u.pwr with flrs := u.pwr.flrs ++ [fn], wakeCause := 2 } }
    ∧ exec (.hotReset t) s = .next { u with pwrState := 3, pwr := { u.pwr with flrs := u.pwr.flrs ++ [0x10000], wakeCause := 2 } })
  ∧ (u.pwrState = 3 → exec (.flr t fn) s = .next { u with pwr := { u.pwr with flrs := u.pwr.flrs ++ [fn] } }
    ∧ exec (.hotReset t) s = .next { u with pwr := { u.pwr with flrs := u.pwr.flrs ++ [0x10000] } })
  ∧ (u.pwrState ≠ 2 → u.pwrState ≠ 3 →
    (fn ≠ 0 → fn ≠ 0x10000 → exec (.flr t fn) s = .next (if fnExists u fn = false then u else toD0 fn (if f.present = true then startReset fn u else u)))
    ∧ exec (.flr t 0) s = .next (storeRecovers (Sys2Proof.Machine.flr 0 u))
    ∧ exec (.hotReset t) s = .next (Sys2Proof.Machine.flr 0 { u with fns := mmap (fun _ f => { f with bme := false, d3hot := false, msix := {} }) u.fns }))
  ∧ (∀ v, (getFn v 0).present = true → let w := destroyVfs (toD0 0 (startReset 0 v))
    Sys2Proof.Machine.flr 0 v = { w.fns.foldl (fun s f => if f.1 = 0 then s else toD0 f.1 s) w with linkFatal := w.linkFatal && w.linkWidth = 0 })
  ∧ (∀ a, exec (.linkFatalError t a) s = .next (aerError 0 2 a { u with linkFatal := true, linkWidth := 0 }))
  ∧ (∀ off, exec (.poisonedBarWrite t fn off) s = .next (aerError fn 1 off u))
  ∧ (∀ w g, let v := { u with linkWidth := w, linkSpeed := g }
    exec (.linkTrained t w g) s = .next (if 16 ≤ w ∧ 32 ≤ g then v else recEvent 0x0203 ([byte w, byte g] ++ zeros 6) v))
  ∧ (f.resetting = false → exec (.instanceResetDone t fn) s = .next u)
  ∧ (f.resetting = true → let a := modFn fn (fun f => { resetRings (decide (fn = 0)) f with
        resetting := false, waiters := [], destroying := false, present := f.present && !f.destroying
        ready := !f.destroying && (fn ≠ 0 || decide (8 < u.startStep)) }) { u with lrings := u.lrings.filter (·.owner ≠ fn) }
    let ids := (a.jobs.filter fun j => j.2.fn = fn && j.2.ring != ownRing).map (·.1)
    let gone := modFn fn (fun f => { f with queues := [], cqs := [], past := f.pastGrants a ++ [(ids, f.g)], g := {} }) a
    exec (.instanceResetDone t fn) s = .next (f.waiters.foldl (fun s j => okJob j [] [] s) (raiseFnEvent 2 (
      if f.destroying then gone
      else if fn = 0 then indexOut 0 16 (modQ ⟨0, 0x40⟩ (fun q => q) a)
      else signal fn 0 (indexOut fn 16 (modQ ⟨fn, 0x40⟩ (fun q => { q with st := .running }) a))))))

/-- R381, R459, R467 to R470: the reset sources. PERST# low for 1 µs or more in a powered package whose PERST# is high resets it (cause 1); the release of the power-on reset of a package without power (cause 0) also seeds every die's shield generator; a Crown rail or VIO below its reset threshold resets it
(cause 2), VIO off, which also drops the latches of lining alone; a brim die's core rail below it fences that die alone and is recorded. A reset asked for by PWR_RESET begins when its time has come (cause 3), and that of an unserviced hypervisor while it runs (cause 4). In every other case only time
passes. A package reset keeps the part, OTP, the lining but its latches of class RECORD, the images, the tamper log and carry record, the event numbers and the flash events, the component banks and the power inputs; all else is as after reset. Start-up begins when PERST# is high, the package powered and no rail
low, and after any reset that finds PERST# high: the life cycle is decoded, a cut-off transition completed, in SCRAP nothing more; else the enables, the unlock and the epoch format are set, what happened is recorded, the lining log is copied and the Crown's monitors are tested. HOLD begins at the first core rail
below warning and ends with the last to recover. -/
def Obligations.ResetSourcesReset : Prop := ∀ (t : Nat) (s : State), let u := tick t s
  (∀ cause (v : State), let w := dropUpdate v
    let r := packageReset cause v
    r.part = w.part ∧ r.grade = w.grade ∧ r.rev = w.rev ∧ r.time = { now := w.time.now } ∧ r.otp = w.otp ∧ r.images = w.images
    ∧ r.lining = { w.lining with cause := cause, resets := satAdd w.lining.resets 1 0xFFFF, latches := w.lining.latches.filter fun x => 2 ≤ x.2.2 }
    ∧ r.tamper = { log := w.tamper.log, carry := w.tamper.carry } ∧ r.fw = { comps := w.fw.comps.map fun c => { c with run := none } }
    ∧ r.evFlash = w.evFlash ∧ r.evNext = w.evNext ∧ r.pwr = { off := w.pwr.off, perst := w.pwr.perst, supply := w.pwr.supply } ∧ r.lcs = decodeLcs w.otp.words
    ∧ r.dies = { dieReset with live := true } :: List.replicate (dieCount w - 1) dieReset
    ∧ r.fns = State.reset.fns ∧ r.tenants = State.reset.tenants ∧ r.jobs = [] ∧ r.fence = [] ∧ r.vault = State.reset.vault ∧ r.ledgers = [] ∧ r.draws = [] ∧ r.epc = State.reset.epc
    ∧ r.authorities = State.reset.authorities ∧ r.fnEvent = State.reset.fnEvent ∧ r.startStep = 3 ∧ r.pwrState = 0 ∧ r.hold = false ∧ r.locked = false ∧ r.quiesced = false ∧ r.pending = w.pending)
  ∧ (∀ w, exec (.perstAssert t w) s = .next (
    if 1000 ≤ w ∧ u.pwr.off = false ∧ u.pwr.perst = false then packageReset 1 { u with pwr := { u.pwr with perst := true } } else u))
  ∧ exec (.powerOn t) s = .next (if u.pwr.off = true then
      let v := packageReset 0 { u with pwr := { u.pwr with off := false, perst := true } }
      (List.range v.dies.length).foldl (fun s d => let b := freeBytes 8 s; modDie d (fun x => { x with shield := b.1 }) b.2) v
    else u)
  ∧ (∀ rail, exec (.supplyReset t rail 0) s = .next (if u.pwr.off = true ∨ 4 < rail then u else
      let v := packageReset 2 { u with pwr := { u.pwr with supply := some (rail, 0) } }
      if rail = 4 then { v with pwr := { v.pwr with off := true }, lining := { v.lining with aloneLatches := [] } } else { v with pwr := { v.pwr with rails := [(rail, 0)] } }))
  ∧ (∀ rail die, die ≠ 0 → exec (.supplyReset t rail die) s = .next (if u.pwr.off = false ∧ rail < 2 ∧ (getDie u die).live = true then
      fenceDie die 0 (recEventAt die 0 0x0A03 ([byte rail, byte die, 1] ++ zeros 5) u) else u))
  ∧ (∀ cause v, resetNow cause v = (let r := packageReset cause v
    if r.pwr.perst then r else beginStartup r))
  ∧ exec (.packageResetBegin t) s = .next (if ∃ r, u.pwr.resetAt = some r ∧ r ≤ u.time.now then resetNow 3 u else u)
  ∧ exec (.hypervisorWatchdog t) s = .next (if 6 ≤ u.startStep ∧ u.pwrState = 0 ∧ u.pwr.off = false ∧ u.lcs ≠ .scrap ∧ u.lcs ≠ .invalid then resetNow 4 u else u)
  ∧ exec (.perstRelease t) s = .next (beginStartup { u with pwr := { u.pwr with perst := false } })
  ∧ (∀ v : State, beginStartup v = (if v.startStep = 3 ∧ v.pwr.off = false ∧ v.pwr.rails = [] then
      let dies := List.range (dieCount v)
      let l := decodeLcs v.otp.words
      let w := { v with
        lcs := l, startStep := 4
        otp := if l = .ret then dies.foldl (fun o d => programOtp o (.wipeW d)) v.otp else if l = .scrap then dies.foldl (fun o d => programOtp o (.fill d)) v.otp else v.otp }
      if l = .scrap then w else
      let unlock := decide (l = .ret) && w.lining.unlockPending
      let x := copyAll (bootLining (bootRecords { w with
        life := { w.life with unlocked := unlock, enables := if l = .blank ∨ l = .test ∨ unlock = true then 15 else 0 }
        lining := if l = .ret then { w.lining with unlockPending := false } else w.lining
        ecfg := if w.otp.marker then { k := w.otp.k, origin := w.otp.origin, falling := w.otp.falling, fromOtp := true } else w.ecfg }))
      { x with tamper := { x.tamper with tests := instancesOf x none 0 0 } }
    else v))
  ∧ (∀ v : State, bootRecords v = (let a := match v.pwr.supply with
      | some (rail, die) => recEventAt die 0 0x0A03 ([byte rail, byte die, 0] ++ zeros 5) { v with pwr := { v.pwr with supply := none } }
      | none => v
    let b := recEvent 0x0A04 (byte a.lining.cause :: zeros 7) a
    if b.lining.xtalNote then recEvent 0x0A09 (zeros 8) { b with lining := { b.lining with xtalNote := false } } else b)
    ∧ bootLining v = (if v.lining.fresh then
      internalEvent 0x20 0 0 0 { v with lining := { v.lining with fresh := false }, tamper := { v.tamper with liningLost := true } } else v))
  ∧ (∀ rail die mv, let core := (rail < 2 ∧ (getDie u die).live = true) ∨ ((rail = 2 ∨ rail = 3) ∧ die = 0)
    exec (.supplyWarning t rail die mv) s = .next (if u.pwr.off = true ∨ ¬core then u
      else if u.hold then
        { u with pwr := { u.pwr with rails := if u.pwr.rails.contains (rail, die) then u.pwr.rails else u.pwr.rails ++ [(rail, die)], lowest := min u.pwr.lowest mv } }
      else urgentAll 4 1 (recEventAt die 0 0x0A01 ([byte rail, byte die] ++ zeros 6) { u with
        hold := true
        pwr := { u.pwr with rails := [(rail, die)], holdRail := rail, holdDie := die, holdAt := u.time.now, lowest := mv, holds := satAdd u.pwr.holds 1 0xFFFF } })))
  ∧ (∀ rail die, let rest := u.pwr.rails.filter (· ≠ (rail, die))
    exec (.supplyRecovery t rail die) s = .next (if u.pwr.rails.contains (rail, die) = false then u
      else if u.hold then (if rest = [] then endHold { u with pwr := { u.pwr with rails := [] } } else { u with pwr := { u.pwr with rails := rest } })
      else if u.startStep = 3 then
        (let v := { u with pwr := { u.pwr with rails := rest } }
        if v.pwr.perst then v else beginStartup v)
      else u))
  ∧ (∀ v : State, let us := (v.time.now - v.pwr.holdAt) / 1000
    endHold v = settleAll (resumeUpdate (resumeAll 45 packageInitGo (resumeAll 44 fwActivateDone (nextLife (restartEngines
      (recEventAt v.pwr.holdDie 0 0x0A02 ([byte v.pwr.holdRail, byte v.pwr.holdDie] ++ leBytes 2 v.pwr.lowest ++ leBytes 4 (min us 0xFFFFFFFF))
        (urgentAll 4 0 { v with hold := false, pwr := { v.pwr with longest := min (max v.pwr.longest us) 0xFFFF } }))))))))

/-- R48, R229, R301, R378, R404, R406, R434, R438, R462, R464, R470, R472: the start-up steps, each only in its turn. Step 5 chooses and measures the three images, loads the worlds, gate tables and regions, records gate entries that do not land, and LOCK follows LOCK_LATCH; in INVALID it waits. Step 6 takes every die into
service, fences those not trained with cause 6 and assigns the draw instances of tenant 0. Step 7 tests the brim dies' monitors. Step 8, outside HOLD, restores the image, or starts without one in BLANK and TEST, or after its loss from the carry record, commits the banks that booted, and the PF is READY with the
bows TESTING. Step 9 takes a live die's start-up tests: of the bows TESTING the lowest that passes is ACTIVE, the others STANDBY, those that fail FAILED; a failed known-answer test takes the entropy down, as all bows failing does, reported. A die whose FIFO is full instantiates, and the step ends with the last
die. A step that passes its maximum outside HOLD is recorded. RETAIN is entered, and a wake ends, once HOLD has ended: each die with entropy instantiates again, the worlds get the epoch, the wake is recorded and resets put off are applied; a failed check resets the package with cause 5. A scheduled draw
within 1 s wakes a package in RETAIN. -/
def Obligations.StartupStepsAct : Prop := ∀ (t : Nat) (s : State), let u := tick t s
  exec (.measurement t) s = .next (if u.startStep = 5 ∧ u.lcs ≠ .invalid then
      let v := bootBank 2 (bootBank 1 (bootBank 0 u))
      let w : State := { v with
        startStep := 6, vault := { v.vault with kw := if (getComp v 1).run.isSome then runDigest v 1 else [] }
        dies := v.dies.map fun (d : Die) => { d with mandrel := bootMandrel v d.mandrel } }
      let table (c : Nat) := ((runImage v c).map (Config.gateTable c)).getD []
      let x := (List.range w.dies.length).foldl (fun s d => gateEvents d 2 (table 2) (gateEvents d 1 (table 1) s)) w
      if x.lining.lockLatch then raiseFnEvent 3 { x with locked := true } else x
    else u)
  ∧ (∀ (v : State) (m : Mandrel), let w := bootMandrel v m
    w.kw = bootWorld (runImage v 1) ∧ w.sw = bootWorld (runImage v 2)
    ∧ w.gatesK = ((((runImage v 1).map (Config.gateTable 1)).getD []).map gateOf).take 64
    ∧ w.gatesS = ((((runImage v 2).map (Config.gateTable 2)).getD []).map gateOf).take 64
    ∧ w.regions = (List.range 11).map fun r => ((Config.regionTable r v.rev).map regionFrom).take 32)
  ∧ (∀ l, let v := { u with startStep := 7, dies := u.dies.map fun (d : Die) => { d with live := true, epoch := u.time.epoch } }
    exec (.bandBringup t l) s = .next (if u.startStep = 6 then assignDrbgs 0 (getTenant u 0).g.drbgs
      (((List.range v.dies.length).filter fun d => d ≠ 0 && !l.contains d).foldl (fun s d => fenceDie d 6 s) v) else u))
  ∧ exec (.brimBoot t) s = .next (if u.startStep = 7 ∧ u.pwr.booting = false then endTests { u with
      pwr := { u.pwr with booting := true }
      tamper := { u.tamper with tests := ((liveDies u).filter (· ≠ 0)).flatMap fun d => instancesOf u none 0 d } } else u)
  ∧ exec (.keystoreRestore t) s = .next (if u.startStep = 8 ∧ u.hold = false then
      let v := { u with vault := { u.vault with pr := if u.lcs = .ret then none else u.otp.w.headD none } }
      let w := if u.lcs = .blank ∨ u.lcs = .test then freshPsn v else match acceptedImage v with
        | some i => restoreImage i v
        | none => freshPsn (internalEvent 0x21 0 0 0 (restoreCarry { v with vault := { v.vault with imageFault := true } }))
      let x := commitBank 2 (commitBank 1 (commitBank 0 w))
      let y := modFn 0 (fun f => { f with ready := true }) { x with startStep := 9, vault := { x.vault with restored := true } }
      { y with dies := y.dies.map fun (d : Die) => if d.live then { d with bows := d.bows.map fun (_ : Bow) => { st := 1 } } else d }
    else u)
  ∧ (∀ v : State, freshPsn v = recEvent 0x0301 (leBytes 8 1099511627776) (extendPsn { v with psnNext := 1099511627776, psnCeil := 1099511627776 }))
  ∧ (∀ die kat l, let d := getDie u die
    let first := (List.range 4).find? fun i => l.contains i && decide ((d.bows.getD i {}).st = 1)
    let c := freeBytes 32 u
    exec (.entropyStartup t die kat l) s = .next (endEntropyStep (if d.live = true ∧ u.startStep = 9 ∧ d.bows.any (·.st = 1) = true then
      let v := modDie die (fun d => { d with
        bows := d.bows.mapIdx fun i b => if b.st ≠ 1 then b else if some i = first then { st := 3 } else if l.contains i then { st := 2 } else failBow u.time.now b
        katFail := kat.isSome, discard := 0, stage := [], carder := c.1 }) c.2
      match kat with
      | some n => signal 0 0 (recEventAt die 0 0x0502 (zeros 8) (recEventAt die 0 0x0503 (byte n :: zeros 7) v))
      | none => if first = none then signal 0 0 (recEventAt die 0 0x0502 (zeros 8) v) else v
    else u)))
  ∧ (∀ v : State, endEntropyStep v = (if v.startStep = 9 ∧ ∀ d ∈ liveDies v, (getDie v d).rngReady = true ∨ (getDie v d).katFail = true then
      { v with startStep := 10, time := { v.time with acqStart := v.time.now, acqDue := v.time.now + 10000000000 } } else v))
  ∧ (∀ die, exec (.entropyReady t die) s = .next (settleAll (
    let v := startLanes die (entropyReady die u)
    if (getDie u die).rngReady = false ∧ (getDie v die).rngReady = true ∧ u.startStep = 9 then endEntropyStep (drawDieRoot die (if die = 0 then crownEntropy v else v)) else v)))
  ∧ (∀ die (v : State), entropyReady die v = (let d := getDie v die
    if d.live = true ∧ d.rngReady = false ∧ entropyUp d = true then
      let fill := freeBytes (4096 - d.fifo.length) v
      let more := freeBytes 49152 fill.2
      modDie die (instantiateAll die (d.fifo ++ fill.1) more.1) (countOn die 0x0D 0 1059 more.2)
    else v))
  ∧ (∀ step us, exec (.startupStepOverrun t step us) s = .next (
    if 4 ≤ step ∧ step ≤ 9 ∧ step = u.startStep ∧ u.hold = false then recEvent 0x0A08 ([byte step, 0] ++ leBytes 4 us ++ zeros 2) u else u))
  ∧ (∀ ok, exec (.wakeDone t ok) s = .next (if u.pwrState = 3 ∧ u.hold = false then
      (if ok = false then resetNow 5 u else
      let up := (liveDies u).foldl (fun s d => entropyReady d s) { u with pwrState := 0 }
      let v := { up with dies := up.dies.map fun (d : Die) => if d.live then { d with epoch := up.time.epoch, passing := false } else d }
      let w := recEvent 0x0A06 ([byte u.pwr.wakeCause, 0] ++ leBytes 4 ((u.time.now - u.pwr.retainAt) / 1000000000) ++ zeros 2) (startRound v.time.epoch v)
      settleAll (u.pwr.flrs.foldl (fun s c => linkReset c s) { w with pwr := { w.pwr with flrs := [] } }))
    else u))
  ∧ exec (.retainEntry t) s = .next (if u.pwrState = 1 ∧ u.hold = false then recEvent 0x0A05 (leBytes 6 u.time.epoch ++ zeros 2)
      { u with pwrState := 2, pwr := { u.pwr with retainAt := u.time.now }, dies := u.dies.map fun d => { d.wipeDrbgs with rngReinst := false } } else u)
  ∧ exec (.retainDrawWake t) s = .next (if u.pwrState = 2 ∧ ∃ d ∈ u.draws, d.sched = true ∧ d.st ≤ 1 ∧ boundaryAt u d.target ≤ u.time.now + 1000000000 then
      { u with pwrState := 3, pwr := { u.pwr with wakeCause := 1 } } else u)

/-- R361, R373, R374, R376 to R384, R388, R389, R391, R392, R395, R464, R503: a monitor's alarm while main power is on, outside SCRAP, from an enabled instance that is not blind under its own test, is noted; from start-up step 4 on it is answered by its class and wakes a package in RETAIN, before that by the lining
alone. The response makes its log entry, erases, locks and records, in that order, as its class asks; in BLANK and TEST it only records, in SCRAP nothing runs. A code and die make one entry until their latch is cleared; LOCK latches its first cause, ends unlocks and grants and tells the dies, and during a
transition only latches; an erasure tells the dies first. The alarm's end is noted. A test's result ends the window of the instance under test: a pass is recorded, a failure is the event 0x24, and the command that asked counts it. The oldest uncopied entry is programmed, outside HOLD. A shield is reseeded from BLIND, the
Crown's with the lid mesh. Otherwise only time passes. -/
def Obligations.TamperEventsAct : Prop := ∀ (t code die inst detail : Nat) (s : State), let u := tick t s
  (let v : State := { u with tamper := { u.tamper with alarming := if u.tamper.alarming.contains (code, die) then u.tamper.alarming else u.tamper.alarming ++ [(code, die)] } }
  exec (.tamperAlarm t code die inst detail) s = .next (
    if u.pwr.off = false ∧ u.lcs ≠ .scrap ∧ inst < monitorCount u code die ∧ monitorOn u code = true ∧ blind u code die inst = false then
      (if u.startStep < 4 then aloneAlarm code detail v else wakeUp 3 (settleAll (respond code die inst detail (monitorClass u code) true v)))
    else u))
  ∧ (∀ cls logged (v : State), respond code die inst detail cls logged v = (if v.lcs = .scrap then v
    else if v.lcs = .blank ∨ v.lcs = .test then alarmRecord die inst (min cls 1) code detail v
    else
      let s1 := if logged then latchedEntry code cls die detail v else v
      let s2 := if cls = 3 then eraseResponse s1 else s1
      alarmRecord die inst cls code detail (if 2 ≤ cls then enterLock code s2 else s2)))
  ∧ (∀ cls (v : State), latchedEntry code cls die detail v = (if code = 0x25 then logEntry code cls die detail v
    else if ∃ l ∈ v.lining.latches, l.1 = code ∧ l.2.1 = die then v
    else let w := logEntry code cls die detail v
      { w with lining := { w.lining with latches := w.lining.latches ++ [(code, die, cls)] } }))
  ∧ (∀ cls (v : State), alarmRecord die inst cls code detail v = recEventAt die cls code ([byte inst, byte cls] ++ leBytes 2 detail ++ zeros 4) v)
  ∧ (∀ v : State, enterLock code v = (let w := { v with lining := { v.lining with
      lockLatch := true, lockCause := if v.lining.lockLatch = true ∨ v.locked = true then v.lining.lockCause else code } }
    raiseFnEvent 3 (endUnlocks (if v.life.trans.isSome then w else urgentAll 2 code (endGrant { w with locked := true }))))
    ∧ eraseResponse v = (let w := if v.life.trans.isSome then v else loseLk (eraseAll (urgentAll 1 0 v))
      { w with lining := { w.lining with erased := true } }))
  ∧ exec (.monitorAlarmEnd t code die) s = .next { u with tamper := { u.tamper with alarming := u.tamper.alarming.filter (· ≠ (code, die)) } }
  ∧ (let m? := (u.tamper.tests.find? fun m => sameMonitor m.code code && m.die = die).filter fun m => m.code = code && m.inst = inst
    ∀ pass, (m? = none → exec (.monitorTestResult t code die inst pass) s = .next u)
    ∧ (∀ m, m? = some m →
      let v : State := { u with tamper := { u.tamper with tests := u.tamper.tests.erase m } }
      let w := if pass = true then recEventAt die 4 0x0030 ([byte code, byte inst] ++ zeros 6) v else internalEvent 0x24 die inst inst v
      exec (.monitorTestResult t code die inst pass) s = .next (endTests (match m.job with
        | some j => modJob j (fun x => { x with tmp := x.tmp + 1, tmp2 := x.tmp2 + if pass = true then 0 else 1 }) w
        | none => w))))
  ∧ (∀ ok, (uncopied u = [] → exec (.tamperLogProgram t ok) s = .next u)
    ∧ (∀ e es, uncopied u = e :: es → exec (.tamperLogProgram t ok) s = .next (
      if ok = true ∧ u.hold = false ∧ u.pwr.off = false ∧ u.lcs ≠ .blank ∧ u.lcs ≠ .test then settleAll (unlockLogged (copyEntry e u)) else u)))
  ∧ (∀ e (v : State), copyEntry e v = (if 1024 ≤ v.tamper.log.length then
      { v with lining := { (markCopied e.num v.lining) with unlogged := satAdd v.lining.unlogged 1 0xFFFF } }
    else logLimits { v with tamper := { v.tamper with log := v.tamper.log ++ [tamperEntry v e] }, lining := markCopied e.num v.lining }))
  ∧ exec (.shieldReseed t die) s = .next (if (getDie u die).live = true ∧ internalShort u die 2 = false then
      let b := internalGen die 2 8 [] u
      let v := modDie die (fun d => { d with shield := b.1 }) b.2
      if die ≠ 0 then v else
        let m := internalGen die 2 4 [] v
        { m.2 with lining := { m.2.lining with mesh := m.1 } }
    else u)

/-- R388, R396, R397, R421, R422, R424, R427, R453, R455: on lining alone a monitor that runs there makes one entry for each code of the period, and but for VLINING's it loses LK and sets the erased note and the lock latch with its first cause; in BLANK, TEST and SCRAP nothing is kept. Losing VLINING loses the lining's contents, and its
return starts them afresh. A crystal that fails its comparison is noted once, at the lining count. The Hatter, while it runs and outside HOLD, writes the buffered records and one record for each burst; its restart drops an update, loses the MCTP and SPDM state and is recorded, and its end brings it back. A sample stores the reading
of each sensor sampled now; a limit crossed, or come back from, is recorded and sent or held as a platform event. Otherwise only time passes. -/
def Obligations.LiningAndHatterEventsAct : Prop := ∀ (t : Nat) (s : State), let u := tick t s
  (∀ code detail ticks, exec (.liningAlarm t code detail ticks) s = .next (if u.pwr.off = true ∧ u.lining.up = true then
      aloneAlarm code detail { u with lining := { u.lining with extra := u.lining.extra + ticks } } else u))
  ∧ (∀ code detail (v : State), let cls := if code = 6 then 1 else 3
    let e : LiningEntry := { num := v.lining.logNext, code := code, cls := cls + 4, stamp := none, die := 0, detail := detail, count := liningCount v }
    let runs := code = 2 ∨ code = 6 ∨ (0x0D ≤ code ∧ code ≤ 0x10 ∧ v.tamper.enable.testBit (code - 0x0D) = true)
    aloneAlarm code detail v = (if v.lining.up = true ∧ v.lcs ≠ .scrap ∧ v.lcs ≠ .blank ∧ v.lcs ≠ .test ∧ runs then
      let w := if aloneLatched v code then v else
        let p := pushLining e v
        { p with lining := if v.pwr.off then { p.lining with aloneLatches := p.lining.aloneLatches ++ [code] } else { p.lining with latches := p.lining.latches ++ [(code, 0, cls)] } }
      if code = 6 then w
      else { w with lining := { w.lining with lk := none, erased := true, lockLatch := true, lockCause := if w.lining.lockLatch then w.lining.lockCause else code } }
    else v))
  ∧ exec (.liningPowerLoss t) s = .next { u with lining := { zeroAt := u.time.now, up := false, resets := 0 } }
  ∧ exec (.liningPowerOn t) s = .next { u with lining := { zeroAt := u.time.now, resets := 0 } }
  ∧ (∀ ok, exec (.xtalCheck t ok) s = .next (if ok = false ∧ u.lining.xtalAt = none ∧ u.lining.up = true then
      { u with lining := { u.lining with xtalAt := some (liningCount u), xtalNote := true } } else u))
  ∧ exec (.eventRecordWrite t) s = .next (if u.hold = false ∧ u.hatter.up = true ∧ (u.fw.comps.headD {}).run ≠ none then
      let v := u.evBuf.foldl (fun s r => writeEvent r s) { u with evBuf := [] }
      v.evBursts.foldl (fun s b => recEventAt b.2.1 0 0x0031 (leBytes 2 b.1 ++ [byte b.2.1, 0] ++ leBytes 4 b.2.2) s) { v with evBursts := [] }
    else u)
  ∧ (∀ r (v : State), let prev := ((v.evFlash.getLast?).map (·.mac)).getD (zeros 8)
    let l := v.evFlash ++ [{ number := v.evNext, r := r, mac := evMac v prev r v.evNext }]
    writeEvent r v = { v with evFlash := if 524288 < l.length then l.drop 128 else l, evNext := (v.evNext + 1) % 4294967296 })
  ∧ (∀ exc, exec (.hatterWatchdog t exc) s = .next (if hatterRuns u = true then
      let v := dropUpdate u
      recEvent 0x0C07 (byte (bit exc 0) :: zeros 7)
        { v with hatter := { v.hatter with up := false, asmVdm := none, asmSmb := none, message := [], spdmVdm := {}, spdmSmb := {} } }
    else u))
  ∧ exec (.hatterRestartDone t) s = .next { u with hatter := { u.hatter with up := true } }
  ∧ (∀ l, exec (.sensorSample t l) s = .next (if hatterRuns u = true then (l.filter fun r => sampledNow u r.1).foldl (fun s r =>
      evalLevel r.1 2 r.2 (evalLevel r.1 1 r.2 { s with hatter := { s.hatter with readings := mset s.hatter.readings r.1 r.2 } })) u else u))
  ∧ (∀ id level x (v : State), let k := id * 2 + level
    let was := v.hatter.crossed.contains k
    let out := was = false ∧ ∃ l ∈ sensorLimits v id, l.1 = level ∧ (if l.2.1 then l.2.2 < x * 1000 else x * 1000 < l.2.2)
    let back := was = true ∧ ∀ l ∈ sensorLimits v id, l.1 = level → (if l.2.1 then x * 1000 ≤ l.2.2 - sensorBack id l.2.2 else l.2.2 + sensorBack id l.2.2 ≤ x * 1000)
    (out → let w := { v with hatter := { v.hatter with crossed := v.hatter.crossed ++ [k] } }
      evalLevel id level x v = sendEvent (platformEvent w id (sensorState v id) x) (recEvent 0x0C01 (leBytes 2 id ++ [byte level, 0] ++ int16 x ++ zeros 2) w))
    ∧ (back → let w := { v with hatter := { v.hatter with crossed := v.hatter.crossed.filter (· ≠ k) } }
      evalLevel id level x v = sendEvent (platformEvent w id (sensorState v id) x) (recEvent 0x0C01 (leBytes 2 id ++ [byte level, 1] ++ int16 x ++ zeros 2) w))
    ∧ (¬out → ¬back → evalLevel id level x v = v))

/-- R161, R217, R297, R299, R312, R351, R356, R370, R439, R445, R461, R465, R466: an image write that ends, outside HOLD and with LK, ends a transition's own, or else what waited for it, outside BLANK and TEST; the PSN reservation's likewise. A command whose write HOLD has barred for 1 s completes with FAULT_RETRY and INFO 1, its draw
dropped. A live die with nothing in hand asks for its clocks to be gated and is IDLE. An anti-imprinting pass starts, or ends with the polarity turned, and one that overran is recorded; LK is turned on lining alone. A die drops a superseded generation once no job has still to load it; a quorum session ends with its window. Outside HOLD
the OTP words of a transition, or of a slot or epoch set-up, are programmed in order; the last one ends it, and the fourth failure of one word ends it with FAULT_FATAL and INFO 2. A firmware sample enters the buffer of a die that samples so, its address only where it may be seen. A counter that saturates stays at its top. Otherwise
only time passes. -/
def Obligations.FlashOtpAndCounterEventsAct : Prop := ∀ (t die n : Nat) (s : State), let u := tick t s
  let d := getDie u die
  exec (.imageWriteDone t) s = .next (if u.hold = true ∨ u.lining.lk = none then u
    else if u.life.trans ≠ none then transitionWritten u
    else if u.lcs = .blank ∨ u.lcs = .test then u
    else settleAll (ckptDone (writeCarry (writeImage (imageWaiters u)))))
  ∧ exec (.psnReservationWritten t) s = .next (if u.hold = false ∧ u.psnWriting = true then settleAll (writeCarry (writeImage (psnWritten u))) else u)
  ∧ (∀ j, (mget u.jobs j = none → exec (.flashWaitTimeout t j) s = .next u)
    ∧ (∀ x, mget u.jobs j = some x →
      let barred := u.hold = true ∧ max x.waitT u.pwr.holdAt + 1000000000 ≤ u.time.now
      (∀ w, x.phase = .wait w → barred → w ∈ [3, 4, 20, 24, 25, 30, 42, 44, 45] → exec (.flashWaitTimeout t j) s = .next (finishJob j stRetry 1 [] [] u))
      ∧ (x.phase = .wait 14 → barred → exec (.flashWaitTimeout t j) s = .next (finishJob j stRetry 1 [] [] { u with draws := u.draws.filter fun y => some y.id ≠ x.draw.map (·.id) }))
      ∧ (¬(barred ∧ ∃ w ∈ [3, 4, 14, 20, 24, 25, 30, 42, 44, 45], x.phase = .wait w) → exec (.flashWaitTimeout t j) s = .next u)))
  ∧ exec (.dieIdleEntry t die) s = .next (if d.live = true ∧ d.idle = false ∧ u.pwr.idleUs ≠ 0 ∧ d.ringP = [] ∧ d.ringG = [] ∧ d.macQ = [] ∧ d.rq = []
      ∧ (∀ c ∈ d.cores, c.job = none) ∧ (∀ c ∈ d.lanes, c.job = none) ∧ (∀ c ∈ d.hashers, c.job = none) then
      gatingRequest die 2 true (gatingRequest die 1 true (gatingRequest die 0 true (modDie die (fun d => { d with idle := true }) u)))
    else u)
  ∧ (∀ starting overran, exec (.imprintPass t die starting overran) s = .next (if u.dies.length ≤ die ∨ u.pwr.off = true ∨ u.startStep < 4 then u else
      let v := modDie die (fun d => if starting then { d with passing := true }
        else if d.passing then { d with passing := false, inverted := !d.inverted, passes := satAdd d.passes 1 0xFFFF } else d) u
      if overran then recEventAt die 0 0x0A07 (byte die :: zeros 7) v else v))
  ∧ exec (.lkInvert t) s = .next (if u.pwr.off = true ∧ u.lining.up = true ∧ u.lining.lk ≠ none then { u with lining := { u.lining with lkInv := !u.lining.lkInv } } else u)
  ∧ exec (.generationDrop t die n) s = .next (modDie die (fun d => { d with held := d.held.filter fun h => h.1 ≠ n || notLoaded u die h.1 h.2 }) u)
  ∧ exec (.quorumWindowEnd t n) s = .next (if (u.vault.sessions.getD n {}).st ≠ 0 ∧ (u.vault.sessions.getD n {}).endAt ≤ u.time.now then closeSession n stInput 0xE0 u else u)
  ∧ (∀ ok, (u.hold = true → exec (.otpWordProgrammed t ok) s = .next u)
    ∧ (u.life.trans = none → u.life.burn = none → exec (.otpWordProgrammed t ok) s = .next u))
  ∧ (∀ tr, u.hold = false → u.life.trans = some tr →
    (∀ ok, (tr.imaged = false ∨ tr.todo = []) → exec (.otpWordProgrammed t ok) s = .next u)
    ∧ (∀ p ps, tr.imaged = true → tr.todo = p :: ps →
      (let tr1 := { tr with todo := ps, fails := 0 }
      let v := { u with otp := programOtp u.otp p, life := { u.life with trans := some tr1 } }
      exec (.otpWordProgrammed t true) s = .next (if ps = [] then transitionDone tr1 v else v))
      ∧ exec (.otpWordProgrammed t false) s = .next (if tr.fails < 3 then { u with life := { u.life with trans := some { tr with fails := tr.fails + 1 } } }
        else finishJob tr.job stFatal 2 [] [] { u with life := { u.life with trans := none, otpFault := true } })))
  ∧ (∀ b, u.hold = false → u.life.trans = none → u.life.burn = some b →
    (∀ ok, b.todo = [] → exec (.otpWordProgrammed t ok) s = .next u)
    ∧ (∀ p ps, b.todo = p :: ps →
      (let v := { u with otp := programOtp u.otp p, life := { u.life with burn := some { b with todo := ps, fails := 0 } } }
      exec (.otpWordProgrammed t true) s = .next (if ps = [] then nextLife (burnDone b.job v) else v))
      ∧ exec (.otpWordProgrammed t false) s = .next (if b.fails < 3 then { u with life := { u.life with burn := some { b with fails := b.fails + 1 } } }
        else nextLife (finishJob b.job stFatal 2 [] [] { u with life := { u.life with burn := none, otpFault := true } }))))
  ∧ (∀ w a, exec (.fwSampleTimer t die w a) s = .next (if d.live = true ∧ d.sampler.mode.testBit 1 = true ∧ w ≤ 2 then
      pushSample die 0 (sampleBytes 0 0 (1 + 2 * w) 0 0 die 0 (if w = 2 ∨ u.life.enables.testBit 2 = true then a % 4294967296 else 0) 0 u.time.epoch 0) u else u))
  ∧ exec (.counterSaturation t die n) s = .next (modDie die (fun d => { d with
      cnt := mmap (fun k c => if k = n ∧ c.ev ≠ 0 then { c with value := 0xFFFFFFFFFFFF, sat := true } else c) d.cnt }) u)

/-- R324, R326 to R328, R330, R331, R335 to R337, R340 to R344: a custodian card's exchange, event by event; an event that its step does not expect only lets time pass. A card inserted into an enabled empty port is powered by an exchange; its supply time over, the lines leave low and RESET is sent; powered off between attempts it is powered again.
While a command's answer is awaited, a response with a bad CRC7 or CRC_ERR is counted and the command, or the probe, goes out again, twice at most, and a mode check begins its next attempt; ILLEGAL or another command's answer ends the exchange with reason 6; after a probe the command goes out again; a good answer moves the exchange to its next
command, by the table of the steps. A timeout ends a data step with reason 11, a mode check's attempt, looks a COMMIT up, or probes once; a wait byte counts, the 201st as a timeout. A Reset Answer is checked in its order and chooses the mode; a response block waits for its checks; bad CRC16 is counted, a block read again once. Token 2 makes the
card busy, 5 has the block written again once. COMMIT follows busy. Outside HOLD and a restart of the Crown's key world the checks refuse with their first reason, enrol the card, or count it for its session. Removal ends an exchange with reason 10. The end of an exchange abandons a pending or challenged card, resets it, drives its lines and PWR_EN low,
records and counts it, and answers the enrolment that it served. -/
def Obligations.CardEventsAct : Prop := ∀ (t p : Nat) (s : State), let u := tick t s
  let x := getPort u p
  let step (w : CardStep) (v : State) : State := modPort p (fun y => { y with step := w }) v
  exec (.cardInsert t p) s = .next (if x.enable = true ∧ x.present = false ∧ p < u.ports.length then startExchange p (modPort p (fun y => { y with present := true }) u) else u)
  ∧ exec (.cardPowerTimer t p) s = .next (if x.step = .powering then sendCard p 0 0 .reset
      (((linePins p).drop 1).foldl (fun s n => emit (.pin n true) s) (modPort p (fun y => { y with linesLow := false }) u)) else u)
  ∧ exec (.powerRemovalBetweenAttempts t p) s = .next (if x.step = .off then powerCard p u else u)
  ∧ (∀ f, let c := cardStatus f
    let want := if x.probing = true then 2 else (stepCommand x).1
    let v := modPort p (fun y => { y with cardSt := c % 16, again := 0 }) u
    (x.awaits = false → exec (.cardResponse t p f) s = .next u)
    ∧ (x.awaits = true →
      (frameOk f = false ∨ c.testBit 9 = true → exec (.cardResponse t p f) s = .next (
        if x.step = .modeCheck then restartMode p u else
        let w := modPort p (fun y => { y with crcErrors := satAdd y.crcErrors 1 255 }) u
        if 2 ≤ x.again then endExchange p 6 w else
        let w2 := modPort p (fun y => { y with again := x.again + 1 }) w
        if x.probing = true then probe p w2 else resend p w2))
      ∧ (frameOk f = true → c.testBit 9 = false → c.testBit 10 = true ∨ field f 0 1 ≠ want → exec (.cardResponse t p f) s = .next (endExchange p 6 u))
      ∧ (frameOk f = true → c.testBit 9 = false → c.testBit 10 = false → field f 0 1 = want →
        (x.probing = true → exec (.cardResponse t p f) s = .next (resend p v))
        ∧ (x.probing = false →
          (x.step = .reset → exec (.cardResponse t p f) s = .next (sendCard p 1 0 .answer v))
          ∧ (x.step = .answer → exec (.cardResponse t p f) s = .next (step .answerData v))
          ∧ (x.step = .switch → exec (.cardResponse t p f) s = .next (sendCard p 2 0 .modeCheck (modPort p (fun y => { y with speed := (modeNow x).1, wide := (modeNow x).2 }) v)))
          ∧ (x.step = .modeCheck → exec (.cardResponse t p f) s = .next (
            if bits c 4 2 = bit (modeNow x).2 1 ∧ bits c 6 2 = (modeNow x).1 then identify p c v else restartMode p v))
          ∧ (x.step = .status → exec (.cardResponse t p f) s = .next (identify p c v))
          ∧ (x.step = .writeCmd → exec (.cardResponse t p f) s = .next (emit (.card p 0x100 0 x.block) (step .token v)))
          ∧ (x.step = .commit → exec (.cardResponse t p f) s = .next (sendCard p 16 0 .sign (modPort p (fun y => { y with phase := 3 }) v)))
          ∧ (x.step = .commitCheck → exec (.cardResponse t p f) s = .next (
            if c % 16 = 3 then sendCard p 16 0 .sign (modPort p (fun y => { y with phase := 3 }) v)
            else if c % 16 = 2 ∧ x.redo = 0 then sendCard p 10 0x10 .commit (modPort p (fun y => { y with redo := 1 }) v)
            else endExchange p 6 v))
          ∧ (x.step = .sign → exec (.cardResponse t p f) s = .next (sendCard p 8 0x11 .read (modPort p (fun y => { y with phase := 4, redo := 0 }) v)))
          ∧ (x.step = .read → exec (.cardResponse t p f) s = .next (step .readData v))))))
  ∧ (let late := if x.step = .token ∨ x.step = .busy ∨ x.step = .answerData ∨ x.step = .readData then endExchange p 11 u
      else if x.awaits = false then u
      else if x.step = .modeCheck then restartMode p u
      else if x.step = .commit then sendCard p 2 0 .commitCheck (modPort p (fun y => { y with again := 0 }) u)
      else if x.probing = true ∨ x.step = .status ∨ x.step = .commitCheck then endExchange p 11 u
      else emit (.card p 2 0 (cardCommand 2 0)) (modPort p (fun y => { y with probing := true, waits := 0 }) (modPort p (fun y => { y with again := 0 }) u))
    exec (.cardTimeout t p) s = .next late
    ∧ exec (.cardWaitByte t p) s = .next (if x.awaits = false then u else if 200 ≤ x.waits then late else modPort p (fun y => { y with waits := y.waits + 1 }) u))
  ∧ (∀ d, let v := modPort p (fun y => { y with crcErrors := satAdd y.crcErrors 1 255 }) u
    (x.step = .answerData → exec (.cardDataBlock t p d false) s = .next (endExchange p 6 v)
      ∧ exec (.cardDataBlock t p d true) s = .next (match answerReason x (fit 32 d) with
        | some r => endExchange p r (modPort p (fun y => { y with answer := if r = 2 then fit 32 d else [] }) u)
        | none => chooseMode p (modPort p (fun y => { y with answer := fit 32 d }) u)))
    ∧ (x.step = .readData → exec (.cardDataBlock t p d true) s = .next (modPort p (fun y => { y with resp := fit 512 d, step := .checking }) u)
      ∧ exec (.cardDataBlock t p d false) s = .next (if x.redo = 0 then sendCard p 8 0x11 .read (modPort p (fun y => { y with redo := 1 }) v) else endExchange p 6 v))
    ∧ (x.step ≠ .answerData → x.step ≠ .readData → ∀ ok, exec (.cardDataBlock t p d ok) s = .next u))
  ∧ (∀ k, exec (.cardCrcToken t p k) s = .next (let v := modPort p (fun y => { y with crcErrors := satAdd y.crcErrors 1 255 }) u
      if x.step ≠ .token then u
      else if k = 2 then modPort p (fun y => { y with step := .busy, cardSt := 2 }) u
      else if k = 5 then (if x.redo = 0 then sendCard p 9 0x10 .writeCmd (modPort p (fun y => { y with redo := 1, crcErrors := satAdd y.crcErrors 1 255 }) u) else endExchange p 6 v)
      else endExchange p 6 u))
  ∧ exec (.cardBusyRelease t p) s = .next (if x.step = .busy then sendCard p 10 0x10 .commit (modPort p (fun y => { y with again := 0, redo := 0 }) u) else u)
  ∧ (let go := x.step = .checking ∧ u.hold = false ∧ (getDie u 0).mandrel.kw.st ≠ 1
    let v := if (field x.block 4 1).testBit 0 = true then (crownBytes 2 104 u).2 else u
    (¬go → exec (.cardCheckDone t p) s = .next u)
    ∧ (go → (∀ r, checkReason v x = some r → exec (.cardCheckDone t p) s = .next (endExchange p r v))
      ∧ (checkReason v x = none → (∀ j, x.session = 0 → x.enrol = some j → exec (.cardCheckDone t p) s = .next (enrolCard j (endExchange p 0 v)))
        ∧ (¬(x.session = 0 ∧ x.enrol ≠ none) → exec (.cardCheckDone t p) s = .next (acceptCard p v)))))
  ∧ exec (.cardRemove t p) s = .next (if x.step ≠ .idle then endExchange p 10 u else if x.enable = true then modPort p (fun y => { y with present := false, phase := 0 }) u else u)
  ∧ (∀ reason (v : State), let y := getPort v p
    let gone := reason = 10
    let closes : Bool := y.session = 0 || gone || reason = 12
    let a := if !gone ∧ y.powered ∧ (y.cardSt = 2 ∨ y.cardSt = 3) then emit (.card p 11 0x10 (cardCommand 11 0x10)) v else v
    let b := if !gone ∧ y.powered then emit (.card p 0 0 (cardCommand 0 0)) a else a
    let c := countExchange p reason (y.session = 0 && y.enrol.isSome) (emit (.pin (pwrPin p) false) (linesOff p (recEvent 0x0801 (exchangeData p reason y) b)))
    let d := modPort p (fun z => { z with
      step := .idle, powered := false, phase := if gone then 0 else 5, present := z.present && !gone
      result := resultOf reason, reason := reason, changed := true, probing := false, waits := 0
      block := [], eph := [], resp := [], answer := [], enrol := if closes then none else z.enrol, speed := 0, wide := false }) c
    (y.step = .idle → endExchange p reason v = v)
    ∧ (y.step ≠ .idle → (y.enrol = none → endExchange p reason v = d)
      ∧ (∀ j, y.enrol = some j → endExchange p reason v = (if closes = false then startExchange p d else if y.session = 0 ∧ reason = 0 then d else finishJob j stInput 0xDD [] [] d))))

/-- R424 to R427: a packet on a binding that the Hatter serves, addressed to it, of legal size and on SMBus with a good PEC, starts a message, or continues the one under assembly where tag and sequence follow within 100 ms, and drops it otherwise; the last packet of a supported type gives the message, an assembly of 100 ms or more is dropped, and a
reset of the SMBus port drops that of SMBus. On a served binding the MCTP control commands and the PLDM base and monitoring commands are answered with the data they name, or with the completion code of what they cannot do, and only those that set an endpoint ID, a terminus ID or an event receiver, or poll an event, change anything; on any other
binding nothing is answered. -/
def Obligations.MctpAndMonitoringAnswer : Prop := ∀ (t : Nat) (b : Binding) (s : State), let u := tick t s
  let say (d : Bytes) (v : State) : Host.Outcome State Fault Refusal := .next (emit (.mgmt b d) v)
  (∀ p pec, exec (.mctpPacket t b p pec) s = .next (if serves u b = false ∨ packetOk u b p = false ∨ (b = .smbus ∧ pec = false) then u else
    let f := field p 3 1
    let tag := f % 16 + 16 * field p 2 1
    let seq := bits f 4 2
    let body : Option Bytes := if f.testBit 7 then some (p.drop 4) else match getAsm u b with
      | some a => if a.tag = tag ∧ seq = (a.seq + 1) % 4 ∧ u.time.now ≤ a.at_ + 100000000 then some (a.body ++ p.drop 4) else none
      | none => none
    match body with
    | none => putAsm b none u
    | some m => if f.testBit 6 then
          (let v := putAsm b none u
          if typeOk m then { v with hatter := { v.hatter with message := m } } else v)
        else putAsm b (some { tag := tag, seq := seq, at_ := u.time.now, body := m }) u))
  ∧ exec (.mctpAssemblyTimeout t b) s = .next (match getAsm u b with
    | some a => if a.at_ + 100000000 ≤ u.time.now then putAsm b none u else u
    | none => u)
  ∧ exec (.smbusTimeout t) s = .next (if hatterRuns u = true then { u with hatter := { u.hatter with asmSmb := none } } else u)
  ∧ (serves u b = false → ∀ m n : Nat, exec (.setEndpointId t b m n) s = .next u ∧ exec (.getEndpointId t b) s = .next u ∧ exec (.getEndpointUuid t b) s = .next u
    ∧ exec (.getMctpVersionSupport t b n) s = .next u ∧ exec (.getMessageTypeSupport t b) s = .next u ∧ exec (.getTid t b) s = .next u ∧ exec (.setTid t b n) s = .next u
    ∧ exec (.getPldmVersion t b n) s = .next u ∧ exec (.getPldmTypes t b) s = .next u ∧ exec (.getPldmCommands t b n) s = .next u ∧ exec (.getPdrRepositoryInfo t b) s = .next u
    ∧ exec (.getPdr t b n) s = .next u ∧ exec (.getSensorReading t b n) s = .next u ∧ exec (.getStateSensorReadings t b n) s = .next u ∧ exec (.setEventReceiver t b m n) s = .next u
    ∧ exec (.pollForPlatformEventMessage t b) s = .next u)
  ∧ (serves u b = true →
    (∀ op eid, exec (.setEndpointId t b op eid) s = if 1 < op ∨ eid < 8 ∨ 254 < eid then say [0, 0, 1, 2] u else say [0, 0, 1, 0, 0, byte eid, 0]
      { u with hatter := match b with
        | .smbus => { u.hatter with eidSmb := eid }
        | .vdm => { u.hatter with eidVdm := eid } })
    ∧ exec (.getEndpointId t b) s = say [0, 0, 2, 0, byte (eidOf u b), 0, 0] u
    ∧ exec (.getEndpointUuid t b) s = say ([0, 0, 3, 0] ++ beBytes 16 (Config.endpointUuid u.otp.packageId).toNat) u
    ∧ (∀ ty, exec (.getMctpVersionSupport t b ty) s = if ty = 0xFF ∨ ty = 0 then say [0, 0, 4, 0, 1, 0xF1, 0xF3, 0xFF, 0] u
      else if ty = 1 ∨ ty = 5 then say [0, 0, 4, 0, 1, 0xF1, 0xF0, 0xFF, 0] u else say [0, 0, 4, 0x80] u)
    ∧ exec (.getMessageTypeSupport t b) s = say [0, 0, 5, 0, 2, 1, 5] u
    ∧ exec (.getTid t b) s = say [1, 0, 0, 2, 0, byte u.hatter.tid] u
    ∧ (∀ n, exec (.setTid t b n) s = if n = 0 ∨ 254 < n then say [1, 0, 0, 1, 2] u else say [1, 0, 0, 1, 0] { u with hatter := { u.hatter with tid := n } })
    ∧ (∀ ty, exec (.getPldmVersion t b ty) s = match pldmVersion ty with
      | some v => say ([1, 0, 0, 3, 0] ++ (zeros 4 ++ [5] ++ v ++ leBytes 4 (crc32 v))) u
      | none => say [1, 0, 0, 3, 0x83] u)
    ∧ exec (.getPldmTypes t b) s = say ([1, 0, 0, 4, 0] ++ 0x25 :: zeros 7) u
    ∧ (∀ ty, exec (.getPldmCommands t b ty) s = match pldmCmds ty with
      | some l => say ([1, 0, 0, 5, 0] ++ leBytes 32 (l.map fun c => 2 ^ c).sum) u
      | none => say [1, 0, 0, 5, 0x83] u)
    ∧ (let l := (pdrs u).map (·.length)
      exec (.getPdrRepositoryInfo t b) s = say ([1, 0, 2, 0x50, 0] ++ ([0] ++ zeros 26 ++ leBytes 4 l.length ++ leBytes 4 l.sum ++ leBytes 4 (l.foldl max 0) ++ [0])) u)
    ∧ (∀ r, let i := if r = 0 then 0 else r - 1
      exec (.getPdr t b r) s = match (pdrs u)[i]? with
      | some p => say ([1, 0, 2, 0x51, 0] ++ (leBytes 4 (if i + 1 < (pdrs u).length then i + 2 else 0) ++ zeros 4 ++ [5] ++ leBytes 2 p.length ++ p)) u
      | none => say [1, 0, 2, 0x51, 0x82] u)
    ∧ (∀ id, let st := byte (sensorState u id)
      exec (.getSensorReading t b id) s = if (sensorIds u).contains id then say ([1, 0, 2, 0x11, 0] ++ (([3, byte (if sampledNow u id && (mget u.hatter.readings id).isSome then 0 else 2), 1, st, st, st] : Bytes)
        ++ int16 ((mget u.hatter.readings id).getD 0))) u else say [1, 0, 2, 0x11, 0x80] u)
    ∧ (∀ id, exec (.getStateSensorReadings t b id) s = match stateSensor u id with
      | some v => say [1, 0, 2, 0x21, 0, 1, 0, byte v, byte v, byte v] u
      | none => say [1, 0, 2, 0x21, 0x80] u)
    ∧ (∀ m eid, exec (.setEventReceiver t b m eid) s = if 2 < m then say [1, 0, 2, 4, 0x81] u else say [1, 0, 2, 4, 0] { u with hatter := { u.hatter with
        recvMode := m, recvVdm := b = .vdm, recvEid := eid, events := if m = 2 then u.hatter.events else [] } })
    ∧ exec (.pollForPlatformEventMessage t b) s = match u.hatter.events with
      | [] => say ([1, 0, 2, 0x0B, 0] ++ ([byte u.hatter.tid] ++ zeros 2)) u
      | e :: es => say ([1, 0, 2, 0x0B, 0] ++ ([byte u.hatter.tid] ++ leBytes 2 1 ++ zeros 4 ++ [5, 0] ++ leBytes 4 (e.length - 6) ++ e.drop 6)) { u with hatter := { u.hatter with events := es } })

/-- R428 to R431, R435, R437, R450: on a served binding the firmware update commands are answered, and move the one update, of their own binding, through its states; a command that its state does not allow gets 0x84, and 0x80 without an update. The table refuses a component that does not exist or whose SVN is below its minimum, an update its size; an activation
needs a staged Hatter or service-world bank that may run. A block of the agreed length is added, any other is asked for again; outside HOLD an update that begins erases its bank, one whose data are complete is checked and staged or refused, and an activation takes effect once LOCK has ended. The SPDM commands are answered in their order, out of it with
error 4 and to a wrong slot, range, index or algorithm with error 1; they keep the transcripts, and CHALLENGE and signed measurements are signed with the device identity key, over a nonce of the Crown's. On any other binding nothing is answered. -/
def Obligations.UpdateAndAttestationAnswer : Prop := ∀ (t : Nat) (b : Binding) (s : State), let u := tick t s
  (serves u b = false → ∀ (m n k : Nat) (d : Bytes) (g : Bool), exec (.queryDeviceIdentifiers t b) s = .next u ∧ exec (.getFirmwareParameters t b) s = .next u ∧ exec (.requestUpdate t b n) s = .next u
    ∧ exec (.passComponentTable t b m n) s = .next u ∧ exec (.updateComponent t b m n) s = .next u ∧ exec (.firmwareDataReceived t b d) s = .next u ∧ exec (.activateFirmware t b) s = .next u
    ∧ exec (.getStatus t b) s = .next u ∧ exec (.cancelUpdateComponent t b) s = .next u ∧ exec (.cancelUpdate t b) s = .next u ∧ exec (.getVersion t b) s = .next u
    ∧ exec (.getCapabilities t b d) s = .next u ∧ exec (.negotiateAlgorithms t b d) s = .next u ∧ exec (.getDigests t b) s = .next u ∧ exec (.getCertificate t b m n k) s = .next u
    ∧ exec (.challenge t b m d) s = .next u ∧ exec (.getMeasurements t b m g d) s = .next u)
  ∧ (serves u b = true →
    let say (d : Bytes) (v : State) : Host.Outcome State Fault Refusal := .next (emit (.mgmt b d) v)
    let upd (x : Option Update) (v : State) : State := { v with fw := { v.fw with upd := x } }
    let mine (l : List Nat) : Option Update := u.fw.upd.filter fun x => x.viaVdm = decide (b = .vdm) && l.contains x.st
    let cc := if u.fw.upd = none then 0x80 else 0x84
    exec (.queryDeviceIdentifiers t b) s = say ([1, 0, 5, 1, 0] ++ (leBytes 4 6 ++ [1] ++ zeros 2 ++ leBytes 2 2 ++ leBytes 2 Config.vendorId.toNat)) u
    ∧ (let entry (c : Nat) : Bytes := let x := getComp u c
        leBytes 2 0x0A ++ leBytes 2 (c + 1) ++ ([0x00] : Bytes) ++ leBytes 4 (x.bank x.active).svn ++ leBytes 4 (match x.staged with
          | some i => (x.bank i).svn
          | none => 0) ++ leBytes 2 0x20 ++ zeros 4
      exec (.getFirmwareParameters t b) s = say ([1, 0, 5, 2, 0] ++ (leBytes 4 0 ++ leBytes 2 3 ++ ([0, 1, 2].map entry).flatten)) u)
    ∧ (∀ n, exec (.requestUpdate t b n) s = if u.pwrState ≠ 0 then say [1, 0, 5, 0x10, 4] u else if u.fw.upd ≠ none then say [1, 0, 5, 0x10, 0x81] u else if n < 512 then say [1, 0, 5, 0x10, 0x83] u
      else say [1, 0, 5, 0x10, 0, 0, 0, 0] (upd (some { viaVdm := b = .vdm, block := min n 4096 }) u))
    ∧ (∀ c v, (mine [1, 2] = none → exec (.passComponentTable t b c v) s = say [1, 0, 5, 0x13, byte cc] u)
      ∧ (∀ x, mine [1, 2] = some x → exec (.passComponentTable t b c v) s = say ([1, 0, 5, 0x13, 0] ++ (if c < 1 ∨ 3 < c then [1, 6]
          else if u.lcs ≠ .blank ∧ u.lcs ≠ .test ∧ v < (getComp u (c - 1)).minSvn then [1, 2] else [0, 0])) (upd (some { x with st := 2 }) u)))
    ∧ (∀ c n, (mine [2] = none → exec (.updateComponent t b c n) s = say [1, 0, 5, 0x14, byte cc] u)
      ∧ (∀ x, mine [2] = some x → exec (.updateComponent t b c n) s = if c < 1 ∨ 3 < c then say ([1, 0, 5, 0x14, 0] ++ ([1, 6] ++ zeros 6)) u
        else if n = 0 ∨ 65536 + (if c = 3 then 2097152 else 1048576) < n then say [1, 0, 5, 0x14, 0x82] u
        else .next (resumeUpdate (emit (.mgmt b ([1, 0, 5, 0x14, 0] ++ zeros 8)) (upd (some { x with st := 4, comp := c - 1, size := n, data := [] }) u)))))
    ∧ (∀ d, (mine [3] = none → exec (.firmwareDataReceived t b d) s = .next u)
      ∧ (∀ x, mine [3] = some x → exec (.firmwareDataReceived t b d) s = .next (resumeUpdate (if d.length = min x.block (x.size - x.data.length) then upd (some { x with data := x.data ++ d }) u else u))))
    ∧ (mine [2] = none → exec (.activateFirmware t b) s = say [1, 0, 5, 0x1A, byte cc] u)
    ∧ (∀ x, mine [2] = some x → exec (.activateFirmware t b) s = if pldmMask u = 0 then say [1, 0, 5, 0x1A, 0x85] u
      else .next (resumeUpdate (emit (.mgmt b [1, 0, 5, 0x1A, 0, 0, 0]) (upd (some { x with st := 5 }) u))))
    ∧ (let st := match u.fw.upd with
        | none => 0
        | some x => if x.st = 4 then 3 else if x.st = 5 then 6 else x.st
      exec (.getStatus t b) s = say ([1, 0, 5, 0x1B, 0] ++ ([byte st, byte st, 0, 0, 0x65, 0] ++ zeros 4)) u)
    ∧ (mine [3, 4] = none → exec (.cancelUpdateComponent t b) s = say [1, 0, 5, 0x1C, byte cc] u)
    ∧ (∀ x, mine [3, 4] = some x → exec (.cancelUpdateComponent t b) s = say [1, 0, 5, 0x1C, 0] (upd (some { x with st := 2, size := 0, data := [] }) (dropUpdate u)))
    ∧ exec (.cancelUpdate t b) s = (if mine [1, 2, 3, 4, 5] = none then say [1, 0, 5, 0x1D, byte cc] u else say ([1, 0, 5, 0x1D, 0] ++ zeros 9) (dropUpdate u))
    ∧ (∀ v : State, resumeUpdate v = match v.fw.upd with
      | none => v
      | some x => let w : Binding := if x.viaVdm then .vdm else .smbus
        if v.hold = true then v
        else if x.st = 4 then (let y := { x with st := 3 }
          emit (.mgmt w ([1, 0x80, 5, 0x15] ++ leBytes 4 y.data.length ++ leBytes 4 (min y.block (y.size - y.data.length)))) (eraseBank y.comp (upd (some y) v)))
        else if x.st = 5 then (if v.locked = true then v else activateBanks (pldmMask v) (upd none v))
        else if x.st = 3 then (if x.size ≤ x.data.length then (let r := stageBank x.comp x.data (upd (some { x with st := 2, data := [] }) v)
              let z := emit (.mgmt w [1, 0x80, 5, 0x17, byte (if r.1 = 0 then 0 else 1)]) (emit (.mgmt w [1, 0x80, 5, 0x16, 0]) r.2)
              if r.1 = 0 then emit (.mgmt w [1, 0x80, 5, 0x18, 0, 0, 0]) z else z)
          else emit (.mgmt w ([1, 0x80, 5, 0x15] ++ leBytes 4 x.data.length ++ leBytes 4 (min x.block (x.size - x.data.length)))) v)
        else v)
    ∧ (let m : Bytes := [0x10, 4, 0, 0, 0, 1, 0, 0x12]
      exec (.getVersion t b) s = say (5 :: m) (setConn b { st := 1, vca := [0x10, 0x84, 0, 0] ++ m } u))
    ∧ (let c := conn u b
      let error (k : Byte) := say [5, 0x12, 0x7F, k, 0] u
      (∀ r, let m : Bytes := [0x12, 0x61, 0, 0, 0, 0x0F, 0, 0] ++ leBytes 4 0x36 ++ leBytes 4 4096 ++ leBytes 4 4096
        exec (.getCapabilities t b r) s = if c.st ≠ 1 then error 4 else say (5 :: m) (setConn b { c with st := 2, vca := c.vca ++ r ++ m } u))
      ∧ (∀ r, let m : Bytes := [0x12, 0x63, 0, 0, 36, 0, 1, 0] ++ leBytes 4 4 ++ leBytes 4 0x80 ++ leBytes 4 2 ++ zeros 16
        exec (.negotiateAlgorithms t b r) s = if c.st ≠ 2 then error 4 else if (field r 8 4).testBit 7 = true ∧ (field r 12 4).testBit 1 = true then
          say (5 :: m) (setConn b { c with st := 3, vca := c.vca ++ r ++ m } u) else error 1)
      ∧ (let m : Bytes := if chain u = [] then [0x12, 1, 0, 0] else [0x12, 1, 0, 1] ++ digest384 (chain u)
        exec (.getDigests t b) s = if c.st ≠ 3 then error 4 else say (5 :: m) (setConn b { c with auth := c.auth ++ [0x12, 0x81, 0, 0] ++ m } u))
      ∧ (∀ slot off n, let p := slice (chain u) off n
        let m := [0x12, 2, 0, 0] ++ leBytes 2 p.length ++ leBytes 2 ((chain u).length - off - p.length) ++ p
        exec (.getCertificate t b slot off n) s = if c.st ≠ 3 then error 4 else if slot ≠ 0 ∨ (chain u).length ≤ off then error 1
          else say (5 :: m) (setConn b { c with auth := c.auth ++ [0x12, 0x82, 0, 0] ++ leBytes 2 off ++ leBytes 2 n ++ m } u))
      ∧ (∀ slot nonce, let n := crownBytes 1 32 u
        let head := [0x12, 3, 0, 1] ++ digest384 (chain u) ++ n.1 ++ zeros 2
        let g := dikSign "responder-challenge_auth signing" (c.vca ++ c.auth ++ [0x12, 0x83, 0, 0] ++ fit 32 nonce ++ head) n.2
        exec (.challenge t b slot nonce) s = if c.st ≠ 3 then error 4 else if slot ≠ 0 ∨ chain u = [] then error 1 else say (5 :: (head ++ g.1)) (setConn b { c with auth := [] } g.2))
      ∧ (∀ i signed nonce, let idx : List Nat := if i = 0 then [] else if i = 0xFF then [1, 2, 3, 4, 5, 6] else [i]
        let r := idx.flatMap (measBlock u)
        let n := crownBytes 1 32 u
        let req := [0x12, 0xE0, byte (bit signed 0), byte i] ++ (if signed then fit 32 nonce ++ [0] else [])
        let head := [0x12, 0x60, byte (if i = 0 then 6 else 0), 0, byte idx.length] ++ leBytes 3 r.length ++ r ++ n.1 ++ zeros 2
        let g := dikSign "responder-measurements signing" (c.vca ++ c.meas ++ req ++ head) n.2
        exec (.getMeasurements t b i signed nonce) s = if c.st ≠ 3 then error 4 else if 6 < i ∧ i ≠ 0xFF then error 1
          else if signed then say (5 :: (head ++ g.1)) (setConn b { c with meas := [] } g.2)
          else say (5 :: head) (setConn b { c with meas := c.meas ++ req ++ head } n.2))))
end

