-- ==== Sys2Proof/Laws/Keeps.lean ====
section
/-! SUPPORT. The frame of every operation: the part, the number of dies and the queue of commands stay (rings, jobs, dies, time, link). Each lemma says it for one operation. -/

namespace Sys2Proof.Laws
open Sys2Proof Sys2Proof.Machine

theorem foldl_keep {β α : Type} (p : State → α) (f : State → β → State) (h : ∀ s x, p (f s x) = p s) (l : List β) (s : State) : p (l.foldl f s) = p s := by
  induction l generalizing s with
  | nil => rfl
  | cons a l ih => rw [List.foldl_cons, ih, h]
@[simp] theorem foldl_part {β : Type} (f : State → β → State) (h : ∀ s x, (f s x).part = s.part) (l : List β) (s : State) : (l.foldl f s).part = s.part := foldl_keep State.part f h l s
@[simp] theorem foldl_pending {β : Type} (f : State → β → State) (h : ∀ s x, (f s x).pending = s.pending) (l : List β) (s : State) : (l.foldl f s).pending = s.pending := foldl_keep State.pending f h l s
@[simp] theorem foldl_dies {β : Type} (f : State → β → State) (h : ∀ s x, (f s x).dies.length = s.dies.length) (l : List β) (s : State) : (l.foldl f s).dies.length = s.dies.length := foldl_keep (fun s => s.dies.length) f h l s
@[simp] theorem lset_len {α : Type} (l : List α) (n : Nat) (v : α) : (lset l n v).length = l.length := by
  induction l generalizing n with
  | nil => rfl
  | cons a l ih => cases n <;> simp [lset, ih]
@[simp] theorem ite_part {c : Prop} [Decidable c] (a b : State) : (if c then a else b).part = if c then a.part else b.part := apply_ite State.part c a b
@[simp] theorem ite_pending {c : Prop} [Decidable c] (a b : State) : (if c then a else b).pending = if c then a.pending else b.pending := apply_ite State.pending c a b
@[simp] theorem ite_dies {c : Prop} [Decidable c] (a b : State) : (if c then a else b).dies.length = if c then a.dies.length else b.dies.length := apply_ite (fun s => s.dies.length) c a b
/-- A state with the part, the number of dies and the waiting commands of another. -/
@[simp] abbrev Same (s t : State) : Prop := t.part = s.part ∧ t.dies.length = s.dies.length ∧ t.pending = s.pending
theorem Same.trans {a b c : State} (h : Same a b) (k : Same b c) : Same a c := ⟨k.1.trans h.1, k.2.1.trans h.2.1, k.2.2.trans h.2.2⟩
theorem same_rfl {a : State} : Same a a := ⟨rfl, rfl, rfl⟩
theorem same_foldl {β : Type} (f : State → β → State) (h : ∀ s x, Same s (f s x)) (l : List β) (s : State) : Same s (l.foldl f s) := by
  induction l generalizing s with
  | nil => exact same_rfl
  | cons a l ih => exact (h s a).trans (ih _)
theorem same_foldl2 {α β : Type} (f : α × State → β → α × State) (h : ∀ s x, Same s.2 (f s x).2) (l : List β) (s : α × State) : Same s.2 (l.foldl f s).2 := by
  induction l generalizing s with
  | nil => exact same_rfl
  | cons a l ih => exact (h s a).trans (ih _)
theorem ite_same {c : Prop} [Decidable c] {s a b : State} (ha : Same s a) (hb : Same s b) : Same s (if c then a else b) := by
  split <;> assumption
theorem same_of {s t : State} (h : t.part = s.part ∧ t.dies.length = s.dies.length ∧ t.pending = s.pending) : Same s t := h

/-! ## Ops -/

@[simp] theorem modDie_keeps (d : Nat) (f : Die → Die) (s : State) : Same s (modDie d f s) := by
  unfold modDie; simp

@[simp] theorem modFn_keeps (n : Nat) (f : FnState → FnState) (s : State) : Same s (modFn n f s) := by
  unfold modFn; simp

@[simp] theorem modQ_keeps (q : QRef) (f : Queue → Queue) (s : State) : Same s (modQ q f s) := by
  unfold modQ; simp

@[simp] theorem modCq_keeps (fn c : Nat) (f : Cq → Cq) (s : State) : Same s (modCq fn c f s) := by
  unfold modCq; simp

@[simp] theorem modTenant_keeps (t : Nat) (f : Tenant → Tenant) (s : State) : Same s (modTenant t f s) := by
  unfold modTenant; simp

@[simp] theorem modJob_keeps (j : Nat) (f : Job → Job) (s : State) : Same s (modJob j f s) := by
  unfold modJob; (repeat' split) <;> simp

@[simp] theorem emit_keeps (o : Out) (s : State) : Same s (emit o s) := by
  unfold emit; simp

@[simp] theorem freeBytes_keeps (n : Nat) (s : State) : Same s (freeBytes n s).2 := by
  unfold freeBytes; simp

@[simp] theorem pushEvent_keeps (r : EvRec) (s : State) : Same s (pushEvent r s) := by
  unfold pushEvent; simp

@[simp] theorem recEventAt_keeps (die cls code : Nat) (data : Bytes) (s : State) : Same s (recEventAt die cls code data s) := by
  unfold recEventAt; simp

@[simp] theorem recEvent_keeps (code : Nat) (data : Bytes) (s : State) : Same s (recEvent code data s) := by
  unfold recEvent; simp

@[simp] theorem countOn_keeps (die ev fn n : Nat) (s : State) : Same s (countOn die ev fn n s) := by
  unfold countOn; simp

@[simp] theorem pushSample_keeps (die fn : Nat) (b : Bytes) (s : State) : Same s (pushSample die fn b s) := by
  unfold pushSample; simp

@[simp] theorem sampleJob_keeps (die fn : Nat) (s : State) : Same s (sampleJob die fn s).2 := by
  unfold sampleJob; dsimp only; (repeat' split) <;> simp_all

@[simp] theorem signal_keeps (fn v : Nat) (s : State) : Same s (signal fn v s) := by
  unfold signal; simp

@[simp] theorem aerError_keeps (fn cls addr : Nat) (s : State) : Same s (aerError fn cls addr s) := by
  unfold aerError; simp

@[simp] theorem raiseFnEvent_keeps (i : Nat) (s : State) : Same s (raiseFnEvent i s) := by
  unfold raiseFnEvent; simp

@[simp] theorem refreshTrust_keeps (s : State) : Same s (refreshTrust s) := by
  unfold refreshTrust; simp

@[simp] theorem setNow_keeps (n : Nat) (s : State) : Same s (setNow n s) := by
  unfold setNow; simp

@[simp] theorem flushOow_keeps (s : State) : Same s (flushOow s) := by
  unfold flushOow; simp

@[simp] theorem tick_keeps (t : Nat) (s : State) : Same s (tick t s) := by
  unfold tick; simp

/-! ## Seeds -/

@[simp] theorem drbgNew_keeps (die : Nat) (seed pers : Bytes) (s : State) : Same s (drbgNew die seed pers s).2 := by
  unfold drbgNew; simp

@[simp] theorem setInt_keeps (die k : Nat) (g : Drbg) (s : State) : Same s (setInt die k g s) := by
  unfold setInt; simp

theorem takeSeed_keeps (die : Nat) (s : State) {r : Bytes × State} (h : takeSeed die s = some r) : Same s r.2 := by
  unfold takeSeed at h; split at h
  · injection h with h; subst h; exact Same.trans (countOn_keeps _ _ _ _ _) (modDie_keeps _ _ _)
  · cases h

@[simp] theorem internalGen_keeps (die k n : Nat) (addl : Bytes) (s : State) : Same s (internalGen die k n addl s).2 := by
  unfold internalGen; dsimp only
  refine Same.trans ?_ (setInt_keeps _ _ _ _)
  split
  · split
    · next h => exact Same.trans (takeSeed_keeps _ _ h) (setInt_keeps _ _ _ _)
    · exact same_rfl
  · exact same_rfl

@[simp] theorem crownBytes_keeps (k n : Nat) (s : State) : Same s (crownBytes k n s).2 := by
  unfold crownBytes; (repeat' split) <;> simp

@[simp] theorem setFnDrbg_keeps (die fn : Nat) (g : Drbg) (s : State) : Same s (setFnDrbg die fn g s) := by
  unfold setFnDrbg; simp

@[simp] theorem fnSeeded_keeps (die fn : Nat) (pr : Bool) (s : State) : ∀ v, fnSeeded die fn pr s = some v → Same s v := by
  intro v h
  unfold fnSeeded at h; split at h
  · obtain ⟨r, hr, rfl⟩ := Option.map_eq_some_iff.mp h
    exact Same.trans (takeSeed_keeps _ _ hr) (setFnDrbg_keeps _ _ _ _)
  · injection h with h; subst h; exact same_rfl

@[simp] theorem fnGen_keeps (die fn n : Nat) (addl : Bytes) (s : State) : Same s (fnGen die fn n addl s).2 := by
  unfold fnGen; simp

@[simp] theorem seedDraws_keeps (a0 a1 : Nat) (s : State) : Same s (seedDraws a0 a1 s) := by
  induction a0 generalizing s with
  | zero => exact same_rfl
  | succ n ih =>
    unfold seedDraws; split
    · exact same_rfl
    · split
      · exact same_rfl
      · split
        · exact same_rfl
        · next h => exact Same.trans (takeSeed_keeps _ _ h) (Same.trans (drbgNew_keeps _ _ _ _) (Same.trans (modDie_keeps _ _ _) (ih _)))

@[simp] theorem awaitEntropy_keeps (id : Nat) (s : State) : Same s (awaitEntropy id s) := by
  unfold awaitEntropy; simp

@[simp] theorem withInternal_keeps (k id : Nat) (f : State → State) (s : State) (hf : ∀ t, Same t (f t)) : Same s (withInternal k id f s) := by
  exact ite_same (awaitEntropy_keeps _ _) (hf _)

@[simp] theorem withRng_keeps (k : Option Nat) (id : Nat) (f : State → State) (s : State) (hf : ∀ t, Same t (f t)) : Same s (withRng k id f s) := by
  unfold withRng; split
  · exact withInternal_keeps _ _ _ _ hf
  · exact hf _

/-! ## Flits -/

@[simp] theorem modBand_keeps (die port : Nat) (f : BandPort → BandPort) (s : State) : Same s (modBand die port f s) := by
  unfold modBand; simp

@[simp] theorem transmit_keeps (die port : Nat) (f : Flit) (s : State) : Same s (transmit die port f s) := by
  unfold transmit; simp

@[simp] theorem drainPort_keeps (die port : Nat) (s : State) : Same s (drainPort die port s) := by
  unfold drainPort; simp

@[simp] theorem sendFlit_keeps (die port : Nat) (f : Flit) (s : State) : Same s (sendFlit die port f s) := by
  unfold sendFlit; simp

@[simp] theorem replay_keeps (die port : Nat) (s : State) : Same s (replay die port s) := by
  unfold replay; simp

@[simp] theorem tellDie_keeps (kind cls arg dst : Nat) (s : State) : Same s (tellDie kind cls arg dst s) := by
  unfold tellDie; simp

@[simp] theorem urgentAll_keeps (kind arg : Nat) (s : State) : Same s (urgentAll kind arg s) := by
  unfold urgentAll; simp

/-! ## Rings -/

@[simp] theorem pushReady_keeps (fn cq : Nat) (c : Completion) (s : State) : Same s (pushReady fn cq c s) := by
  unfold pushReady; simp

@[simp] theorem settleOwed_keeps (q : QRef) (s : State) : Same s (settleOwed q s) := by
  unfold settleOwed; dsimp only; (repeat' split) <;> simp_all

@[simp] theorem releaseQueue_keeps (q : QRef) (s : State) : Same s (releaseQueue q s) := by
  unfold releaseQueue
  refine Same.trans (b := (modQ q _ s)) (by simp [Same]) (Same.trans (same_foldl _ (fun s j => ?_) _ _) (settleOwed_keeps q _))
  split
  · simp [Same]
  · exact same_rfl

@[simp] theorem jobSample_keeps (fn tag op ring die status takenAt epoch job : Nat) (discarded : Bool) (s : State) : Same s (jobSample fn tag op ring die status takenAt epoch job discarded s) := by
  unfold jobSample; simp

@[simp] theorem freeInst_keeps (id : Nat) (s : State) : Same s (freeInst id s) := by
  unfold freeInst; simp

@[simp] theorem finishJob_keeps (id st info : Nat) (result out : Bytes) (s : State) : Same s (finishJob id st info result out s) := by
  unfold finishJob; (repeat' split) <;> simp

@[simp] theorem failJob_keeps (id : Nat) (f : Fail) (s : State) : Same s (failJob id f s) := by
  unfold failJob; simp

@[simp] theorem okJob_keeps (id : Nat) (result out : Bytes) (s : State) : Same s (okJob id result out s) := by
  unfold okJob; simp

@[simp] theorem replaceResult_keeps (id st : Nat) (s : State) : Same s (replaceResult id st s) := by
  unfold replaceResult; (repeat' split) <;> simp

@[simp] theorem dropJob_keeps (id : Nat) (s : State) : Same s (dropJob id s) := by
  unfold dropJob; (repeat' split) <;> simp

@[simp] theorem postOne_keeps (fn cq : Nat) (c : Completion) (s : State) : Same s (postOne fn cq c s) := by
  unfold postOne; (repeat' split) <;> simp

@[simp] theorem writeIndex_keeps (fn cq epoch : Nat) (s : State) : Same s (writeIndex fn cq epoch s) := by
  unfold writeIndex; simp

@[simp] theorem indexOut_keeps (fn cq : Nat) (s : State) : Same s (indexOut fn cq s) := by
  unfold indexOut; simp

@[simp] theorem heldIndex_keeps (fn cq : Nat) (s : State) : Same s (heldIndex fn cq s) := by
  unfold heldIndex; (repeat' split) <;> simp

@[simp] theorem sendCq_keeps (fn cq : Nat) (s : State) : Same s (sendCq fn cq s) := by
  unfold sendCq; simp

@[simp] theorem postCq_keeps (fn cq : Nat) (s : State) : Same s (postCq fn cq s) := by
  unfold postCq; dsimp only; (repeat' split) <;> simp_all

@[simp] theorem postFn_keeps (fn : Nat) (s : State) : Same s (postFn fn s) := by
  unfold postFn; simp

@[simp] theorem ringStop_keeps (q : QRef) (cause : Nat) (owed : OwedStop) (tail : List Byte) (s : State) : Same s (ringStop q cause owed tail s) := by
  unfold ringStop; simp

@[simp] theorem doorbell_keeps (q : QRef) (t : Nat) (s : State) : Same s (doorbell q t s) := by
  unfold doorbell; simp

@[simp] theorem invalidate_keeps (q : QRef) (a1 : Nat) (s : State) : Same s (invalidate q a1 s) := by
  unfold invalidate; simp

@[simp] theorem holdTimeout_keeps (q : QRef) (s : State) : Same s (holdTimeout q s) := by
  unfold holdTimeout; simp

@[simp] theorem enableRing_keeps (q : QRef) (s : State) : Same s (enableRing q s) := by
  unfold enableRing; simp

@[simp] theorem squash_keeps (j : Nat) (s : State) : Same s (squash j s) := by
  unfold squash; simp

@[simp] theorem disableRing_keeps (q : QRef) (s : State) : Same s (disableRing q s) := by
  unfold disableRing; dsimp only; (repeat' split) <;> simp_all

@[simp] theorem cqHead_keeps (fn cq h : Nat) (s : State) : Same s (cqHead fn cq h s) := by
  unfold cqHead; simp

@[simp] theorem cqMod_keeps (fn cq v : Nat) (s : State) : Same s (cqMod fn cq v s) := by
  unfold cqMod; simp

@[simp] theorem cqTimer_keeps (fn cq : Nat) (s : State) : Same s (cqTimer fn cq s) := by
  unfold cqTimer; (repeat' split) <;> simp

@[simp] theorem pollWrite_keeps (die v : Nat) (s : State) : Same s (pollWrite die v s) := by
  unfold pollWrite; simp

@[simp] theorem pfAdminWord_keeps (off v : Nat) (s : State) : Same s (pfAdminWord off v s) := by
  unfold pfAdminWord; simp

@[simp] theorem arrive_keeps (q : QRef) (first : Nat) (ds : List Desc) (s : State) : Same s (arrive q first ds s) := by
  unfold arrive; simp

@[simp] theorem fetchStop_keeps (q : QRef) (s : State) : Same s (fetchStop q s) := by
  unfold fetchStop; simp

@[simp] theorem fetchFail_keeps (q : QRef) (idx : Nat) (s : State) : Same s (fetchFail q idx s) := by
  unfold fetchFail; simp

/-! ## Jobs -/

abbrev SemKeeps (sem : OpSem) : Prop := (∀ id s, Same s (sem.go id s)) ∧ (∀ id s, Same s (sem.fin id s))
@[simp] theorem startSource_keeps (sem : OpSem) (id : Nat) (s : State) (hs : SemKeeps sem) : Same s (startSource sem id s) := by
  unfold startSource
  refine ite_same (hs.1 id s) (ite_same (finishJob_keeps _ _ _ _ _ _) (ite_same ?_ (ite_same (modJob_keeps _ _ _) (modJob_keeps _ _ _))))
  exact Same.trans (Same.trans (modJob_keeps _ _ _) (countOn_keeps _ _ _ _ _)) (hs.1 id _)

@[simp] theorem wakeDie_keeps (die : Nat) (s : State) : Same s (wakeDie die s) := by
  unfold wakeDie; simp

@[simp] theorem admitState_keeps (id : Nat) (s : State) : Same s (admitState id s) := by
  unfold admitState; (repeat' split) <;> simp

@[simp] theorem refuseJob_keeps (id : Nat) (f : Fail) (s : State) : Same s (refuseJob id f s) := by
  unfold refuseJob; simp

@[simp] theorem admitJob_keeps (sem : OpSem) (id : Nat) (s : State) (hs : SemKeeps sem) : Same s (admitJob sem id s) := by
  unfold admitJob; split
  · exact same_rfl
  · split
    · exact Same.trans (admitState_keeps id s) (refuseJob_keeps _ _ _)
    · exact Same.trans (admitState_keeps id s) (startSource_keeps _ _ _ hs)

@[simp] theorem fragArrive_keeps (sem : OpSem) (id : Nat) (t : Bytes) (s : State) : Same s (fragArrive sem id t s) := by
  unfold fragArrive; (repeat' split) <;> simp

@[simp] theorem sourceArrive_keeps (sem : OpSem) (id : Nat) (src : Bytes) (s : State) (hs : SemKeeps sem) : Same s (sourceArrive sem id src s) := by
  unfold sourceArrive; split
  · simp
  · split
    · exact Same.trans (b := countOn _ _ _ _ _) (by simp [Same]) (hs.1 id _)
    · simp

@[simp] theorem sourceFail_keeps (sem : OpSem) (id addr : Nat) (s : State) : Same s (sourceFail sem id addr s) := by
  unfold sourceFail; (repeat' split) <;> simp

@[simp] theorem engineEnd_keeps (sem : OpSem) (id : Nat) (s : State) (hs : SemKeeps sem) : Same s (engineEnd sem id s) := by
  unfold engineEnd; split
  · simp
  · split
    · exact hs.2 id s
    · simp

@[simp] theorem takeEntry_keeps (q : QRef) (d : Desc) (s : State) : Same s (takeEntry q d s).2 := by
  unfold takeEntry; simp

/-! ## Fence -/

@[simp] theorem applyPkg_keeps (s : State) (a1 : Change) : Same s (applyPkg s a1) := by
  unfold applyPkg; (repeat' split) <;> simp

@[simp] theorem stagingStart_keeps (s : State) : Same s (stagingStart s) := by
  unfold stagingStart; (repeat' split) <;> simp

@[simp] theorem acceptFenced_keeps (id tgt : Nat) (cs : List Change) (s : State) : Same s (acceptFenced id tgt cs s) := by
  unfold acceptFenced; simp

@[simp] theorem putSession_keeps (role : Nat) (q : Session) (s : State) : Same s (putSession role q s) := by
  unfold putSession; simp

@[simp] theorem consume_keeps (roles : List Nat) (s : State) : Same s (consume roles s) := by
  unfold consume; simp

@[simp] theorem reserve_keeps (c : Change) (s : State) : Same s (reserve c s) := by
  unfold reserve; (repeat' split) <;> simp

@[simp] theorem unreserve_keeps (c : Change) (s : State) : Same s (unreserve c s) := by
  unfold unreserve; (repeat' split) <;> simp

@[simp] theorem fenceDone_keeps (id : Nat) (s : State) : Same s (fenceDone id s) := by
  unfold fenceDone; simp

@[simp] theorem unapplied_keeps (c : Nat × Change) (s : State) : Same s (unapplied c s) := by
  unfold unapplied; simp

@[simp] theorem settleStaging_keeps (s : State) : Same s (settleStaging s) := by
  unfold settleStaging; (repeat' split) <;> simp

@[simp] theorem stagingAck_keeps (die tgt : Nat) (s : State) : Same s (stagingAck die tgt s) := by
  unfold stagingAck; (repeat' split) <;> simp

@[simp] theorem confirmFlit_keeps (die tgt : Nat) (s : State) : Same s (confirmFlit die tgt s) := by
  unfold confirmFlit; (repeat' split) <;> simp

@[simp] theorem retryFenced_keeps (inImage : Bool) (id : Nat) (s : State) : Same s (retryFenced inImage id s) := by
  unfold retryFenced; simp

@[simp] theorem retryAll_keeps (ids : List Nat) (s0 s : State) : Same s (retryAll ids s0 s) := by
  unfold retryAll; simp

@[simp] theorem bankSwap_keeps (b : Nat) (s : State) : Same s (bankSwap b s) := by
  unfold bankSwap; simp

@[simp] theorem dropChanges_keeps (hit : FenceTarget → Nat × Change → Bool) (s : State) : Same s (dropChanges hit s) := by
  unfold dropChanges; simp

@[simp] theorem withdrawTarget_keeps (tgt : Nat) (s : State) : Same s (withdrawTarget tgt s) := by
  unfold withdrawTarget; simp

@[simp] theorem withdrawJobs_keeps (ids : List Nat) (s : State) : Same s (withdrawJobs ids s) := by
  unfold withdrawJobs; simp

@[simp] theorem withdrawUnstaged_keeps (s : State) : Same s (withdrawUnstaged s) := by
  unfold withdrawUnstaged; simp

/-! ## Time -/

@[simp] theorem modTime_keeps (f : TimeState → TimeState) (s : State) : Same s (modTime f s) := by
  unfold modTime; simp

@[simp] theorem acceptEdge_keeps (t : Nat) (s : State) : Same s (acceptEdge t s) := by
  unfold acceptEdge; simp

@[simp] theorem missEdge_keeps (t : Nat) (s : State) : Same s (missEdge t s) := by
  unfold missEdge; simp

@[simp] theorem holdoverMiss_keeps (t : Nat) (s : State) : Same s (holdoverMiss t s) := by
  unfold holdoverMiss; simp

@[simp] theorem activeEdge_keeps (t : Nat) (s : State) : Same s (activeEdge t s) := by
  unfold activeEdge; (repeat' split) <;> simp

@[simp] theorem ppsEdge_keeps (width : Nat) (rising : Bool) (s : State) : Same s (ppsEdge width rising s) := by
  unfold ppsEdge; simp

@[simp] theorem ppsTimeout_keeps (s : State) : Same s (ppsTimeout s) := by
  unfold ppsTimeout; simp

@[simp] theorem tclkFault_keeps (s : State) : Same s (tclkFault s) := by
  unfold tclkFault; simp

@[simp] theorem tclkRecover_keeps (s : State) : Same s (tclkRecover s) := by
  unfold tclkRecover; simp

@[simp] theorem pllLock_keeps (s : State) : Same s (pllLock s) := by
  unfold pllLock; simp

@[simp] theorem beaconGrace_keeps (s : State) : Same s (beaconGrace s) := by
  unfold beaconGrace; simp

@[simp] theorem acqOverdue_keeps (s : State) : Same s (acqOverdue s) := by
  unfold acqOverdue; simp

@[simp] theorem timingWord_keeps (die epoch : Nat) (s : State) : Same s (timingWord die epoch s) := by
  unfold timingWord; simp

@[simp] theorem applyBeacon_keeps (b : Bytes) (t : Nat) (s : State) : Same s (applyBeacon b t s) := by
  unfold applyBeacon; simp

/-! ## Functions -/

@[simp] theorem assignDrbgs_keeps (t a1 : Nat) (s : State) : Same s (assignDrbgs t a1 s) := by
  induction a1 generalizing s with
  | zero => simp [assignDrbgs]
  | succ n ih => unfold assignDrbgs; (repeat' split) <;> simp [ih]

@[simp] theorem releaseDrbgs_keeps (t a1 : Nat) (s : State) : Same s (releaseDrbgs t a1 s) := by
  induction a1 generalizing s with
  | zero => simp [releaseDrbgs]
  | succ n ih => unfold releaseDrbgs; (repeat' split) <;> simp [ih]

@[simp] theorem freshIndex_keeps (fn : Nat) (s : State) : Same s (freshIndex fn s) := by
  unfold freshIndex; simp

@[simp] theorem createInstance_keeps (fn tenant : Nat) (b : Bytes) (s : State) : Same s (createInstance fn tenant b s) := by
  unfold createInstance; simp

@[simp] theorem createGo_keeps (id : Nat) (s : State) : Same s (createGo id s) := by
  unfold createGo; dsimp only; split
  · exact failJob_keeps _ _ _
  · exact withRng_keeps _ _ _ _ (fun t => Same.trans (createInstance_keeps _ _ _ _) (okJob_keeps _ _ _ _))

@[simp] theorem withdrawFn_keeps (fn : Nat) (s : State) : Same s (withdrawFn fn s) := by
  unfold withdrawFn; simp

@[simp] theorem startReset_keeps (fn : Nat) (s : State) : Same s (startReset fn s) := by
  unfold startReset; simp

@[simp] theorem finishReset_keeps (fn : Nat) (s : State) : Same s (finishReset fn s) := by
  unfold finishReset; simp

@[simp] theorem resetGo_keeps (destroy : Bool) (id : Nat) (s : State) : Same s (resetGo destroy id s) := by
  unfold resetGo; simp

@[simp] theorem shareGo_keeps (id : Nat) (s : State) : Same s (shareGo id s) := by
  unfold shareGo; simp

@[simp] theorem splitGo_keeps (id : Nat) (s : State) : Same s (splitGo id s) := by
  unfold splitGo; simp

@[simp] theorem tenantGo_keeps (id : Nat) (s : State) : Same s (tenantGo id s) := by
  unfold tenantGo; simp

@[simp] theorem queueOk_keeps (id : Nat) (s : State) : Same s (queueOk id s) := by
  unfold queueOk; simp

@[simp] theorem ringCreateGo_keeps (id : Nat) (s : State) : Same s (ringCreateGo id s) := by
  unfold ringCreateGo; simp

@[simp] theorem ringDestroyGo_keeps (id : Nat) (s : State) : Same s (ringDestroyGo id s) := by
  unfold ringDestroyGo; simp

@[simp] theorem cqCreateGo_keeps (id : Nat) (s : State) : Same s (cqCreateGo id s) := by
  unfold cqCreateGo; simp

@[simp] theorem cqDestroyGo_keeps (id : Nat) (s : State) : Same s (cqDestroyGo id s) := by
  unfold cqDestroyGo; simp

/-! ## Link -/

@[simp] theorem toD0_keeps (fn : Nat) (s : State) : Same s (toD0 fn s) := by
  unfold toD0; simp

@[simp] theorem destroyVfs_keeps (s : State) : Same s (destroyVfs s) := by
  unfold destroyVfs; simp

@[simp] theorem flr_keeps (fn : Nat) (s : State) : Same s (flr fn s) := by
  unfold flr; simp

@[simp] theorem vfEnableSet_keeps (n : Nat) (page64 : Bool) (s : State) : Same s (vfEnableSet n page64 s) := by
  unfold vfEnableSet; simp

@[simp] theorem sendHeld_keeps (fn : Nat) (s : State) : Same s (sendHeld fn s) := by
  unfold sendHeld; simp

@[simp] theorem busMaster_keeps (fn : Nat) (on mem : Bool) (s : State) : Same s (busMaster fn on mem s) := by
  unfold busMaster; simp

@[simp] theorem d3Entry_keeps (fn : Nat) (s : State) : Same s (d3Entry fn s) := by
  unfold d3Entry; simp

@[simp] theorem d0Return_keeps (fn : Nat) (s : State) : Same s (d0Return fn s) := by
  unfold d0Return; simp

@[simp] theorem sendPending_keeps (fn : Nat) (s : State) : Same s (sendPending fn s) := by
  unfold sendPending; simp

@[simp] theorem unmask_keeps (fn v : Nat) (s : State) : Same s (unmask fn v s) := by
  unfold unmask; simp

@[simp] theorem linkFatalErr_keeps (addr : Nat) (s : State) : Same s (linkFatalErr addr s) := by
  unfold linkFatalErr; simp

@[simp] theorem linkTrain_keeps (w sp : Nat) (s : State) : Same s (linkTrain w sp s) := by
  unfold linkTrain; simp

end Sys2Proof.Laws
end

