-- ==== Sys2Proof/Laws/KeepsLedger.lean ====
section
/-! SUPPORT. The same frame for sealing, the ledger, the lanes, entropy and draws. Each lemma says it for one operation. -/

namespace Sys2Proof.Laws
open Sys2Proof Sys2Proof.Machine

/-! ## Keys -/

/-! ## Sealing -/

@[simp] theorem extendPsn_keeps (s : State) : Same s (extendPsn s) := by
  unfold extendPsn; simp

@[simp] theorem takePsn_keeps (s : State) : Same s (takePsn s).2 := by
  unfold takePsn; (repeat' split) <;> simp

@[simp] theorem psnWritten_keeps (s : State) : Same s (psnWritten s) := by
  unfold psnWritten; simp

@[simp] theorem collect_keeps (id st info : Nat) (result out : Bytes) (leaf : Option Leaf) (s : State) : Same s (collect id st info result out leaf s) := by
  unfold collect; simp

@[simp] theorem startMac_keeps (die : Nat) (s : State) : Same s (startMac die s) := by
  unfold startMac; split
  · exact same_rfl
  · refine same_foldl _ (fun s j => ?_) _ _
    dsimp only; split
    · exact same_rfl
    · split <;> simp [Same]

@[simp] theorem queueMac_keeps (id : Nat) (s : State) : Same s (queueMac id s) := by
  unfold queueMac; simp

@[simp] theorem freeMac_keeps (id : Nat) (s : State) : Same s (freeMac id s) := by
  unfold freeMac; simp

@[simp] theorem sealGo_keeps (id : Nat) (s : State) : Same s (sealGo id s) := by
  unfold sealGo; simp

@[simp] theorem sealFin_keeps (id : Nat) (s : State) : Same s (sealFin id s) := by
  unfold sealFin; (repeat' split) <;> simp

@[simp] theorem verifySealGo_keeps (id : Nat) (s : State) : Same s (verifySealGo id s) := by
  unfold verifySealGo; (repeat' split) <;> simp

@[simp] theorem verifySealFin_keeps (id : Nat) (s : State) : Same s (verifySealFin id s) := by
  unfold verifySealFin; (repeat' split) <;> simp

@[simp] theorem macGo_keeps (id : Nat) (s : State) : Same s (macGo id s) := by
  unfold macGo; simp

@[simp] theorem macFin_keeps (id : Nat) (s : State) : Same s (macFin id s) := by
  unfold macFin; (repeat' split) <;> simp

/-! ## Ledger -/

@[simp] theorem modLedger_keeps (t : Nat) (f : Ledger → Ledger) (s : State) : Same s (modLedger t f s) := by
  unfold modLedger; simp

@[simp] theorem modLedgerBy_keeps (t : Nat) (f : Ledger → Ledger) (s : State) : Same s (modLedgerBy t f s) := by
  unfold modLedgerBy; simp

@[simp] theorem closePage_keeps (s : State) : Same s (closePage s) := by
  unfold closePage; (repeat' split) <;> simp

@[simp] theorem openPage_keeps (s : State) : Same s (openPage s) := by
  unfold openPage; dsimp only; (repeat' split) <;> simp_all

@[simp] theorem writeEntry_keeps (e : JEntry) (s : State) : Same s (writeEntry e s) := by
  unfold writeEntry; dsimp only; (repeat' split) <;> simp_all

@[simp] theorem writeRec_keeps (x : Record) (r : LRing) (s : State) : Same s (writeRec x r s).2 := by
  unfold writeRec; simp

@[simp] theorem deliverOne_keeps (x : Record) (r : LRing) (s : State) : Same s (deliverOne x r s).2 := by
  unfold deliverOne; (repeat' split) <;> simp

@[simp] theorem flushRing_keeps (r : LRing) (s : State) : Same s (flushRing r s).2 := by
  unfold flushRing; split
  · exact same_rfl
  · exact same_foldl2 (fun (a : LRing × State) x => writeRec x a.1 a.2) (fun s x => writeRec_keeps _ _ _) _ (_, s)

@[simp] theorem overRings_keeps (f : LRing → State → LRing × State) (s : State) (hf : ∀ r t, Same t (f r t).2) : Same s (overRings f s) := by
  exact same_foldl2 (fun (acc : List LRing × State) r => let y := f r acc.2; (acc.1 ++ [y.1], y.2)) (fun s r => hf r s.2) s.lrings ([], s)

@[simp] theorem deliver_keeps (x : Record) (s : State) : Same s (deliver x s) := by
  exact overRings_keeps _ _ (fun r t => deliverOne_keeps _ _ _)

@[simp] theorem flushRings_keeps (s : State) : Same s (flushRings s) := by
  unfold flushRings
  exact ite_same same_rfl (overRings_keeps _ _ (fun r t => flushRing_keeps r t))

theorem publish_aux (n : Nat) (x : Record) (s : State) : Same s (deliver x { (s.rootStore.take n).foldl (fun s r => modLedgerBy r.tenant (fun l => { l with evicted := max l.evicted (r.epoch + 1) }) s) s with rootStore := (s.rootStore ++ [x]).drop n }) :=
  Same.trans (same_foldl _ (fun s r => modLedgerBy_keeps r.tenant _ s) (List.take n s.rootStore) s) (deliver_keeps x _)
theorem publish_eq (x : Record) (s : State) : publish x s = deliver x { (s.rootStore.take (s.rootStore.length - 4095)).foldl (fun s r => modLedgerBy r.tenant (fun l => { l with evicted := max l.evicted (r.epoch + 1) }) s) s with rootStore := (s.rootStore ++ [x]).drop (s.rootStore.length - 4095) } := rfl
@[simp] theorem publish_keeps (x : Record) (s : State) : Same s (publish x s) := by
  rw [publish_eq]; exact publish_aux _ x s

@[simp] theorem ackLeaf_keeps (e : JEntry) (s : State) : Same s (ackLeaf e s) := by
  unfold ackLeaf; simp

@[simp] theorem appendLeaf_keeps (tenant die : Nat) (leaf : Leaf) (s : State) : Same s (appendLeaf tenant die leaf s).2 := by
  unfold appendLeaf; simp

@[simp] theorem modDraw_keeps (d : Nat) (f : Draw → Draw) (s : State) : Same s (modDraw d f s) := by
  unfold modDraw; simp

@[simp] theorem appendDraw_keeps (id seq : Nat) (head : Bytes) (x : Job) (d : Draw) (s : State) : Same s (appendDraw id seq head x d s) := by
  unfold appendDraw; simp

@[simp] theorem appendJob_keeps (id : Nat) (s : State) : Same s (appendJob id s) := by
  unfold appendJob; (repeat' split) <;> simp

@[simp] theorem appendDrawLeaf_keeps (id : Nat) (s : State) : Same s (appendDrawLeaf id s) := by
  unfold appendDrawLeaf; (repeat' split) <;> simp

@[simp] theorem appendRestate_keeps (id : Nat) (s : State) : Same s (appendRestate id s) := by
  unfold appendRestate; (repeat' split) <;> simp

@[simp] theorem appendElig_keeps (e : Elig) (s : State) : Same s (appendElig e s) := by
  unfold appendElig; (repeat' split) <;> simp

@[simp] theorem noteElig_keeps (s : State) : Same s (noteElig s) := by
  unfold noteElig; simp

theorem same_elig {s t : State} (m : List Elig) (h : Same s t) : Same s { t with elig := m } := h
theorem same_ingress {s t : State} (m : List (List Nat)) (h : Same s t) : Same s { t with ingress := m } := h
@[simp] theorem drain_keeps (a0 : Nat) (s : State) : Same s (drain a0 s) := by
  induction a0 generalizing s with
  | zero => exact same_rfl
  | succ n ih => unfold drain; dsimp only; (repeat' split) <;> simp [ih]

@[simp] theorem releaseLeafless_keeps (s : State) : Same s (releaseLeafless s) := by
  unfold releaseLeafless; simp

@[simp] theorem settle_keeps (s : State) : Same s (settle s) := by
  unfold settle; simp

@[simp] theorem leafArrival_keeps (s : State) : Same s (leafArrival s) := by
  unfold leafArrival; (repeat' split) <;> simp

@[simp] theorem collectorSend_keeps (die : Nat) (s : State) : Same s (collectorSend die s) := by
  unfold collectorSend; dsimp only
  refine ite_same same_rfl ?_
  have h := same_foldl2 (fun (acc : List Nat × State) j =>
      if acc.1.length < 32 && collectorReady acc.2 die j then
        (acc.1 ++ [j], modJob j (fun x => { x with phase := .ingress }) acc.2) else acc)
      (fun s j => by split; exact modJob_keeps _ _ _; exact same_rfl) (byAdmission s (getDie s die).collector) ([], s)
  refine ite_same same_rfl (h.trans (Same.trans ?_ (same_foldl _ (fun s j => ite_same (countOn_keeps _ _ _ _ _) same_rfl) _ _)))
  exact same_ingress _ (modDie_keeps _ _ _)

@[simp] theorem chainRecord_keeps (r : Record) (s : State) : Same s (chainRecord r s) := by
  unfold chainRecord
  exact Same.trans (modLedgerBy_keeps r.tenant _ s) (same_of (publish_keeps r _))

@[simp] theorem writeUnsigned_keeps (b : Batch) (reason : Nat) (s : State) : Same s (writeUnsigned b reason s) := by
  exact publish_keeps _ _

@[simp] theorem queueBatch_keeps (b : Batch) (s : State) : Same s (queueBatch b s) := by
  unfold queueBatch; simp

@[simp] theorem releaseBatch_keeps (t : Nat) (s : State) : Same s (releaseBatch t s) := by
  unfold releaseBatch; dsimp only; (repeat' split) <;> simp_all

@[simp] theorem closeBatch_keeps (force : Bool) (t b : Nat) (s : State) : Same s (closeBatch force t b s) := by
  unfold closeBatch; dsimp only; (repeat' split) <;> simp_all

theorem same_time {s t : State} (m : TimeState) (h : Same s t) : Same s { t with time := m } := h
@[simp] theorem writeSigned_keeps (b : Batch) (alg : Nat) (sig : Bytes) (s : State) : Same s (writeSigned b alg sig s) := by
  unfold writeSigned
  exact Same.trans (same_time _ (publish_keeps _ _)) (modLedgerBy_keeps _ _ _)

theorem same_signQ {s t : State} (m : List Batch) (h : Same s t) : Same s { t with signQ := m } := h
@[simp] theorem releaseSigned_keeps (a0 : Nat) (s : State) : Same s (releaseSigned a0 s) := by
  induction a0 generalizing s with
  | zero => exact same_rfl
  | succ n ih => unfold releaseSigned; (repeat' split) <;> simp [ih]

@[simp] theorem flushUnsigned_keeps (reason : Nat) (s : State) : Same s (flushUnsigned reason s) := by
  unfold flushUnsigned; simp

@[simp] theorem closeTenant_keeps (e t : Nat) (host : Bool) (s : State) : Same s (closeTenant e t host s) := by
  unfold closeTenant; dsimp only; (repeat' split) <;> simp_all

@[simp] theorem sendClose_keeps (e : Nat) (s : State) : Same s (sendClose e s) := by
  unfold sendClose; simp

@[simp] theorem closeEpoch_keeps (e : Nat) (hostOf : Nat → Bool) (s : State) : Same s (closeEpoch e hostOf s) := by
  unfold closeEpoch; simp

@[simp] theorem finalise_keeps (a0 a1 : Nat) (s : State) : Same s (finalise a0 a1 s) := by
  induction a0 generalizing s with
  | zero => simp [finalise]
  | succ n ih => unfold finalise; (repeat' split) <;> simp_all

@[simp] theorem setRoot_keeps (t e d : Nat) (f : PendRoot → PendRoot) (s : State) : Same s (setRoot t e d f s) := by
  unfold setRoot; simp

@[simp] theorem takeRoot_keeps (die t : Nat) (x : Subtree) (p : PendRoot) (s : State) : Same s (takeRoot die t x p s) := by
  unfold takeRoot; simp

@[simp] theorem dieRoot_keeps (die t e : Nat) (s : State) : Same s (dieRoot die t e s) := by
  unfold dieRoot; (repeat' split) <;> simp

@[simp] theorem dieRootRebuild_keeps (die t e : Nat) (ok : Bool) (s : State) : Same s (dieRootRebuild die t e ok s) := by
  unfold dieRootRebuild; (repeat' split) <;> simp

@[simp] theorem hostDeadline_keeps (t : Nat) (ok : Bool) (s : State) : Same s (hostDeadline t ok s) := by
  unfold hostDeadline; dsimp only; (repeat' split) <;> simp_all

@[simp] theorem journalPageWrite_keeps (ok : Bool) (s : State) : Same s (journalPageWrite ok s) := by
  unfold journalPageWrite; (repeat' split) <;> simp

@[simp] theorem storeRecovers_keeps (s : State) : Same s (storeRecovers s) := by
  unfold storeRecovers; simp

@[simp] theorem jsConfig_keeps (v : Nat) (s : State) : Same s (jsConfig v s) := by
  unfold jsConfig; simp

@[simp] theorem requestCkpt_keeps (clean : Bool) (s : State) : Same s (requestCkpt clean s) := by
  unfold requestCkpt; simp

@[simp] theorem ckptOver_keeps (s : State) : Same s (ckptOver s) := by
  unfold ckptOver; simp

@[simp] theorem writeDiscs_keeps (s : State) : Same s (writeDiscs s) := by
  unfold writeDiscs
  refine same_foldl _ (fun s l => ?_) s.ledgers s
  split
  · exact Same.trans (modLedger_keeps _ _ _) (chainRecord_keeps _ _)
  · exact same_rfl

@[simp] theorem leafMessage_keeps (i : Nat) (s : State) : Same s (leafMessage i s) := by
  unfold leafMessage; (repeat' split) <;> simp

/-! ## LedgerCmds -/

@[simp] theorem readBack_keeps (id : Nat) (epochs : List Nat) (s : State) : ∀ v, readBack id epochs s = some v → Same s v := by
  unfold readBack; simp

@[simp] theorem failStore_keeps (id e : Nat) (s : State) : Same s (failStore id e s) := by
  unfold failStore; simp

@[simp] theorem lringGo_keeps (id : Nat) (s : State) : Same s (lringGo id s) := by
  unfold lringGo; dsimp only; split
  · exact Same.trans (same_foldl2 _ (fun a rec => deliverOne_keeps rec a.1 a.2) _ (_, s)) (okJob_keeps _ _ _ _)
  · exact okJob_keeps _ _ _ _

@[simp] theorem lringDestroyGo_keeps (id : Nat) (s : State) : Same s (lringDestroyGo id s) := by
  unfold lringDestroyGo; (repeat' split) <;> simp

@[simp] theorem ldgConfigGo_keeps (id : Nat) (s : State) : Same s (ldgConfigGo id s) := by
  unfold ldgConfigGo; simp

@[simp] theorem ldgReadGo_keeps (id : Nat) (s : State) : Same s (ldgReadGo id s) := by
  unfold ldgReadGo; dsimp only; split
  · exact readBack_keeps _ _ _ _ (by assumption)
  · split <;> simp

@[simp] theorem proofGo_keeps (id : Nat) (s : State) : Same s (proofGo id s) := by
  unfold proofGo; dsimp only
  (repeat' split) <;> first
    | exact readBack_keeps _ _ _ _ (by assumption)
    | simp

@[simp] theorem settleProofs_keeps (s : State) : Same s (settleProofs s) := by
  unfold settleProofs; simp

@[simp] theorem pickSome_keeps (fn a1 : Nat) (a2 : List Nat) (s : State) : Same s (pickSome fn a1 a2 s).2 := by
  induction a1 generalizing a2 s with
  | zero => exact same_rfl
  | succ n ih => unfold pickSome; dsimp only; split <;> simp [ih]

@[simp] theorem rootSubmitGo_keeps (id : Nat) (s : State) : Same s (rootSubmitGo id s) := by
  unfold rootSubmitGo; dsimp only; split
  · exact failJob_keeps _ _ _
  · exact same_rfl
  · split
    · exact finishJob_keeps _ _ _ _ _ _
    · split
      · exact awaitEntropy_keeps _ _
      · next h => simp [fnSeeded_keeps _ _ _ _ _ h]

@[simp] theorem rootProveGo_keeps (id : Nat) (s : State) : Same s (rootProveGo id s) := by
  unfold rootProveGo; dsimp only; (repeat' split) <;> simp_all

@[simp] theorem quiescePoll_keeps (s : State) : Same s (quiescePoll s) := by
  unfold quiescePoll; simp

@[simp] theorem quiesceGo_keeps (id : Nat) (s : State) : Same s (quiesceGo id s) := by
  unfold quiesceGo; simp

/-! ## Curves -/

/-! ## Reckoner -/

@[simp] theorem modLane_keeps (die lane : Nat) (f : Machine.Unit → Machine.Unit) (s : State) : Same s (modLane die lane f s) := by
  unfold modLane; simp

@[simp] theorem enterLane_keeps (die lane id : Nat) (f : Machine.Unit → Machine.Unit) (s : State) : Same s (enterLane die lane id f s) := by
  unfold enterLane; dsimp only; (repeat' split) <;> simp_all

@[simp] theorem runOn_keeps (die lane id : Nat) (s : State) : Same s (runOn die lane id s) := by
  unfold runOn; simp

@[simp] theorem noteShort_keeps (die : Nat) (s : State) : Same s (noteShort die s) := by
  unfold noteShort; simp

@[simp] theorem startLanes_keeps (die : Nat) (s : State) : Same s (startLanes die s) := by
  unfold startLanes; split
  · exact same_rfl
  · refine Same.trans (noteShort_keeps _ _) (same_foldl _ (fun s l => ?_) _ _)
    (repeat' split) <;> simp [Same]

@[simp] theorem queueLane_keeps (id : Nat) (s : State) : Same s (queueLane id s) := by
  unfold queueLane; simp

@[simp] theorem curveFetched_keeps (die tenant table : Nat) (s : State) : Same s (curveFetched die tenant table s) := by
  unfold curveFetched; simp

@[simp] theorem freeLane_keeps (id : Nat) (s : State) : Same s (freeLane id s) := by
  unfold freeLane; simp

@[simp] theorem laneYield_keeps (die lane : Nat) (remaining : List Nat) (need : Nat) (s : State) : Same s (laneYield die lane remaining need s) := by
  unfold laneYield; dsimp only; (repeat' split) <;> simp_all

@[simp] theorem validationFail_keeps (id info : Nat) (s : State) : Same s (validationFail id info s) := by
  unfold validationFail; simp

@[simp] theorem signGo_keeps (id : Nat) (s : State) : Same s (signGo id s) := by
  unfold signGo; simp

@[simp] theorem signNonce_keeps (die : Nat) (k : KeySlot) (handle scheme : Nat) (curve rep : Bytes) (s : State) : Same s (signNonce die k handle scheme curve rep s).2 := by
  unfold signNonce; (repeat' split) <;> simp

@[simp] theorem slotSign_keeps (die : Nat) (k : KeySlot) (handle scheme : Nat) (ph : Bool) (curve rep : Bytes) (s : State) : Same s (slotSign die k handle scheme ph curve rep s).2 := by
  unfold slotSign; simp

@[simp] theorem deviceSign_keeps (die : Nat) (k : KeySlot) (handle : Nat) (m : Bytes) (s : State) : Same s (deviceSign die k handle m s).2 := by
  unfold deviceSign; simp

@[simp] theorem signFin_keeps (id : Nat) (s : State) : Same s (signFin id s) := by
  unfold signFin; dsimp only; (repeat' split) <;> simp_all

@[simp] theorem laneGo_keeps (id : Nat) (s : State) : Same s (laneGo id s) := by
  unfold laneGo; simp

@[simp] theorem verifyFin_keeps (id : Nat) (s : State) : Same s (verifyFin id s) := by
  unfold verifyFin; dsimp only; (repeat' split) <;> simp_all

@[simp] theorem ecdhFin_keeps (id : Nat) (s : State) : Same s (ecdhFin id s) := by
  unfold ecdhFin; dsimp only; (repeat' split) <;> simp_all

@[simp] theorem curveLoadGo_keeps (id : Nat) (s : State) : Same s (curveLoadGo id s) := by
  unfold curveLoadGo; split
  · exact finishJob_keeps _ _ _ _ _ _
  · exact withInternal_keeps _ _ _ _ (fun t => laneGo_keeps _ _)

@[simp] theorem blindBases_keeps (a0 : Nat) (s : State) : Same s (blindBases a0 s).2 := by
  induction a0 generalizing s with
  | zero => exact same_rfl
  | succ n ih => exact Same.trans (internalGen_keeps _ _ _ _ _) (ih _)

@[simp] theorem curveLoadFin_keeps (id : Nat) (s : State) : Same s (curveLoadFin id s) := by
  unfold curveLoadFin; dsimp only; (repeat' split) <;> simp_all

@[simp] theorem curveUnloadGo_keeps (id : Nat) (s : State) : Same s (curveUnloadGo id s) := by
  unfold curveUnloadGo; simp

@[simp] theorem curveReadGo_keeps (id : Nat) (s : State) : Same s (curveReadGo id s) := by
  unfold curveReadGo; simp

@[simp] theorem moveJob_keeps (id kind core : Nat) (s : State) : Same s (moveJob id kind core s) := by
  unfold moveJob; (repeat' split) <;> simp

@[simp] theorem dropUnfit_keeps (die kind : Nat) (s : State) : Same s (dropUnfit die kind s) := by
  unfold dropUnfit; simp

@[simp] theorem engineFault_keeps (die kind core : Nat) (s : State) : Same s (engineFault die kind core s) := by
  unfold engineFault
  refine ite_same same_rfl (Same.trans ?_ (ite_same (startLanes_keeps _ _) (startMac_keeps _ _)))
  refine Same.trans ?_ (dropUnfit_keeps _ _ _)
  refine Same.trans ?_ (same_foldl _ (fun s j => moveJob_keeps _ _ _ _) _ _)
  exact Same.trans (modDie_keeps _ _ _) (ite_same (recEventAt_keeps _ _ _ _ _) same_rfl)

@[simp] theorem coreFault_keeps (die kind core : Nat) (s : State) : Same s (coreFault die kind core s) := by
  unfold coreFault; simp

@[simp] theorem verifyBeforeFails_keeps (die lane : Nat) (s : State) : Same s (verifyBeforeFails die lane s) := by
  unfold verifyBeforeFails; simp

@[simp] theorem restartEngines_keeps (s : State) : Same s (restartEngines s) := by
  unfold restartEngines; simp

/-! ## Entropy -/

@[simp] theorem reportDown_keeps (die : Nat) (s : State) : Same s (reportDown die s) := by
  unfold reportDown; simp

@[simp] theorem reloadCarder_keeps (die : Nat) (s : State) : Same s (reloadCarder die s) := by
  unfold reloadCarder; simp

@[simp] theorem dropBow_keeps (die bow : Nat) (test : BowTest) (s : State) : Same s (dropBow die bow test s) := by
  unfold dropBow; dsimp only; (repeat' split) <;> simp_all

@[simp] theorem bowFail_keeps (die bow : Nat) (test : BowTest) (s : State) : Same s (bowFail die bow test s) := by
  unfold bowFail; simp

@[simp] theorem bowRetest_keeps (die bow : Nat) (pass : Bool) (s : State) : Same s (bowRetest die bow pass s) := by
  unfold bowRetest; simp

@[simp] theorem roundSeeds_keeps (a0 a1 : Nat) (s : State) : Same s (roundSeeds a0 a1 s) := by
  induction a0 generalizing s with
  | zero => exact same_rfl
  | succ n ih =>
    unfold roundSeeds; dsimp only; split
    · exact same_rfl
    · split
      · exact same_rfl
      · next h => exact Same.trans (takeSeed_keeps _ _ h) (Same.trans (modDie_keeps _ _ _) (ih _))

@[simp] theorem releaseBlock_keeps (die : Nat) (s : State) : Same s (releaseBlock die s) := by
  unfold releaseBlock; simp

@[simp] theorem startRound_keeps (b : Nat) (s : State) : Same s (startRound b s) := by
  unfold startRound; simp

@[simp] theorem roundAt_keeps (b : Nat) (s : State) : Same s (roundAt b s) := by
  unfold roundAt; simp

@[simp] theorem endEntropyStep_keeps (s : State) : Same s (endEntropyStep s) := by
  unfold endEntropyStep; simp

@[simp] theorem powerBows_keeps (s : State) : Same s (powerBows s) := by
  unfold powerBows; simp

@[simp] theorem entropyStartup_keeps (die : Nat) (kat : Option Nat) (passing : List Nat) (s : State) : Same s (entropyStartup die kat passing s) := by
  unfold entropyStartup; (repeat' split) <;> simp

@[simp] theorem entropyReady_keeps (die : Nat) (s : State) : Same s (entropyReady die s) := by
  unfold entropyReady; simp

@[simp] theorem eraseEntropy_keeps (s : State) : Same s (eraseEntropy s) := by
  unfold eraseEntropy; simp

@[simp] theorem randomGo_keeps (id : Nat) (s : State) : Same s (randomGo id s) := by
  unfold randomGo; dsimp only; split
  · next h => exact Same.trans (fnSeeded_keeps _ _ _ _ _ h) (modJob_keeps _ _ _)
  · exact awaitEntropy_keeps _ _

@[simp] theorem randomFin_keeps (id : Nat) (s : State) : Same s (randomFin id s) := by
  unfold randomFin; simp

@[simp] theorem reseedGo_keeps (id : Nat) (s : State) : Same s (reseedGo id s) := by
  unfold reseedGo; simp

/-! ## Draws -/

@[simp] theorem placeDraw_keeps (id die : Nat) (s : State) : Same s (placeDraw id die s) := by
  unfold placeDraw; simp

@[simp] theorem makeRecord_keeps (die : Nat) (d : Draw) (s : State) : Same s (makeRecord die d s).2 := by
  unfold makeRecord; dsimp only; (repeat' split) <;> simp_all

@[simp] theorem unplace_keeps (id : Nat) (s : State) : Same s (unplace id s) := by
  unfold unplace; simp

@[simp] theorem startOwn_keeps (j : Job) (k : KeySlot) (s : State) : Same s (startOwn j k s) := by
  unfold startOwn; simp

@[simp] theorem startSign_keeps (d : Draw) (hostJob : Nat) (s : State) : Same s (startSign d hostJob s) := by
  unfold startSign; simp

@[simp] theorem startBatchSigns_keeps (s : State) : Same s (startBatchSigns s) := by
  unfold startBatchSigns
  refine same_foldl _ (fun s b => ?_) _ _
  (repeat' split) <;> simp [Same]

@[simp] theorem dropBatchSigns_keeps (s : State) : Same s (dropBatchSigns s) := by
  unfold dropBatchSigns; simp

@[simp] theorem batchEnd_keeps (id : Nat) (s : State) : Same s (batchEnd id s) := by
  unfold batchEnd; dsimp only; (repeat' split) <;> simp_all

@[simp] theorem signBatch_keeps (s : State) : Same s (signBatch s) := by
  unfold signBatch; (repeat' split) <;> simp

@[simp] theorem endDrawJob_keeps (id : Nat) (d : Draw) (record : Bytes) (s : State) : Same s (endDrawJob id d record s) := by
  unfold endDrawJob; simp

@[simp] theorem recordEnd_keeps (die hostJob : Nat) (d : Draw) (s : State) : Same s (recordEnd die hostJob d s) := by
  unfold recordEnd; simp

@[simp] theorem signEnd_keeps (id : Nat) (s : State) : Same s (signEnd id s) := by
  unfold signEnd; dsimp only; (repeat' split) <;> simp_all

@[simp] theorem commitReady_keeps (id : Nat) (s : State) : Same s (commitReady id s) := by
  unfold commitReady; (repeat' split) <;> simp

@[simp] theorem acceptDraw_keeps (id : Nat) (s : State) : Same s (acceptDraw id s) := by
  unfold acceptDraw; simp

@[simp] theorem setInst_keeps (die index : Nat) (f : Drbg → Drbg) (s : State) : Same s (setInst die index f s) := by
  unfold setInst; simp

@[simp] theorem drawBytes_keeps (die index n : Nat) (s : State) : Same s (drawBytes die index n s).2 := by
  unfold drawBytes; simp

@[simp] theorem drawSeed_keeps (id : Nat) (s : State) : Same s (drawSeed id s) := by
  unfold drawSeed; dsimp only; split
  · exact awaitEntropy_keeps _ _
  · next h => exact Same.trans (takeSeed_keeps _ _ h) (Same.trans (modJob_keeps _ _ _) (setInst_keeps _ _ _ _))

@[simp] theorem drawGo_keeps (id : Nat) (s : State) : Same s (drawGo id s) := by
  unfold drawGo; simp

@[simp] theorem mapOn_keeps (die index : Nat) (d : Draw) (s : State) : Same s (mapOn die index d s).2 := by
  unfold mapOn; simp

@[simp] theorem drawFin_keeps (id : Nat) (s : State) : Same s (drawFin id s) := by
  unfold drawFin; dsimp only; (repeat' split) <;> simp_all

@[simp] theorem leafOut_keeps (d : Draw) (leaf : Leaf) (s : State) : Same s (leafOut d leaf s) := by
  unfold leafOut; simp

@[simp] theorem voidDraw_keeps (d : Draw) (reason : Nat) (s : State) : Same s (voidDraw d reason s) := by
  unfold voidDraw; simp

@[simp] theorem drawAt_keeps (b : Nat) (d : Draw) (s : State) : Same s (drawAt b d s) := by
  unfold drawAt; simp

@[simp] theorem restateDraws_keeps (s : State) : Same s (restateDraws s) := by
  unfold restateDraws; simp

@[simp] theorem drawsAt_keeps (b : Nat) (s : State) : Same s (drawsAt b s) := by
  unfold drawsAt; simp

@[simp] theorem waitDraw_keeps (id : Nat) (s : State) : Same s (waitDraw id s) := by
  unfold waitDraw; simp

@[simp] theorem runDraw_keeps (d : Draw) (b die : Nat) (seed : Bytes) (s : State) : Same s (runDraw d b die seed s) := by
  unfold runDraw; dsimp only; (repeat' split) <;> simp_all

@[simp] theorem executeDraw_keeps (id : Nat) (s : State) : Same s (executeDraw id s) := by
  unfold executeDraw; (repeat' split) <;> first
  | exact same_rfl
  | exact waitDraw_keeps _ _
  | (next h => exact Same.trans (takeSeed_keeps _ _ h) (runDraw_keeps _ _ _ _ _))

@[simp] theorem drawMapGo_keeps (id : Nat) (s : State) : Same s (drawMapGo id s) := by
  unfold drawMapGo; dsimp only; (repeat' split) <;> simp_all

@[simp] theorem drawQueryGo_keeps (id : Nat) (s : State) : Same s (drawQueryGo id s) := by
  unfold drawQueryGo; dsimp only; (repeat' split) <;> simp_all

@[simp] theorem startSigns_keeps (s : State) : Same s (startSigns s) := by
  unfold startSigns
  refine Same.trans (same_foldl _ (fun s j => ?_) _ _) (same_foldl _ (fun s d => ?_) _ _)
  · (repeat' split) <;> simp [Same]
  · (repeat' split) <;> simp [Same]

@[simp] theorem settleQueries_keeps (s : State) : Same s (settleQueries s) := by
  unfold settleQueries; simp

@[simp] theorem replaceSigns_keeps (s : State) : Same s (replaceSigns s) := by
  unfold replaceSigns; simp

@[simp] theorem settleBatches_keeps (s : State) : Same s (settleBatches s) := by
  unfold settleBatches; simp

@[simp] theorem settleAll_keeps (s : State) : Same s (settleAll s) := by
  unfold settleAll; simp

@[simp] theorem entropyTimeout_keeps (id : Nat) (s : State) : Same s (entropyTimeout id s) := by
  unfold entropyTimeout; (repeat' split) <;> simp

@[simp] theorem drawPlacement_keeps (job : Nat) (s : State) : Same s (drawPlacement job s) := by
  unfold drawPlacement; (repeat' split) <;> simp

end Sys2Proof.Laws
end

