-- ==== Sys2Proof/Laws/KeepsKeys.lean ====
section
/-! SUPPORT. The same frame for keys, cards, time commands, die registers and the band. Each lemma says it for one operation. -/

namespace Sys2Proof.Laws
open Sys2Proof Sys2Proof.Machine

/-! ## KeyTree -/

@[simp] theorem stopJob_keeps (id st info : Nat) (s : State) : Same s (stopJob id st info s) := by
  unfold stopJob; simp

@[simp] theorem abortUsers_keeps (slots : List Nat) (except : Nat) (s : State) : Same s (abortUsers slots except s) := by
  unfold abortUsers; simp

@[simp] theorem dropKeyChanges_keeps (slots : List Nat) (s : State) : Same s (dropKeyChanges slots s) := by
  unfold dropKeyChanges; simp

@[simp] theorem clearSlots_keeps (slots : List Nat) (except : Nat) (s : State) : Same s (clearSlots slots except s) := by
  unfold clearSlots; simp

@[simp] theorem holdOld_keeps (old : KMap KeySlot) (s : State) : Same s (holdOld old s) := by
  unfold holdOld; simp

@[simp] theorem dropOld_keeps (die slot : Nat) (s : State) : Same s (dropOld die slot s) := by
  unfold dropOld; simp

@[simp] theorem endSessions_keeps (s : State) : Same s (endSessions s) := by
  unfold endSessions
  refine same_foldl _ (fun s r => ?_) _ _
  dsimp only; split
  · exact Same.trans (putSession_keeps _ _ _) (finishJob_keeps _ _ _ _ _ _)
  · exact putSession_keeps _ _ _

@[simp] theorem eraseReplicas_keeps (s : State) : Same s (eraseReplicas s) := by
  unfold eraseReplicas; simp

@[simp] theorem eraseDraws_keeps (s : State) : Same s (eraseDraws s) := by
  unfold eraseDraws; simp

@[simp] theorem eraseRandom_keeps (s : State) : Same s (eraseRandom s) := by
  unfold eraseRandom; simp

@[simp] theorem eraseKeys_keeps (s : State) : Same s (eraseKeys s) := by
  unfold eraseKeys; simp

@[simp] theorem loseLk_keeps (s : State) : Same s (loseLk s) := by
  unfold loseLk; simp

@[simp] theorem putImage_keeps (i : Image) (s : State) : Same s (putImage i s) := by
  unfold putImage; simp

@[simp] theorem writeImage_keeps (s : State) : Same s (writeImage s) := by
  unfold writeImage; (repeat' split) <;> simp

@[simp] theorem awaitImage_keeps (why id : Nat) (s : State) : Same s (awaitImage why id s) := by
  unfold awaitImage; simp

/-! ## Cards -/

@[simp] theorem modPort_keeps (p : Nat) (f : Port → Port) (s : State) : Same s (modPort p f s) := by
  unfold modPort; simp

@[simp] theorem linesOff_keeps (p : Nat) (s : State) : Same s (linesOff p s) := by
  unfold linesOff; simp

@[simp] theorem linesOn_keeps (p : Nat) (s : State) : Same s (linesOn p s) := by
  unfold linesOn; simp

@[simp] theorem sendCard_keeps (p idx arg : Nat) (step : CardStep) (s : State) : Same s (sendCard p idx arg step s) := by
  unfold sendCard; simp

@[simp] theorem powerCard_keeps (p : Nat) (s : State) : Same s (powerCard p s) := by
  unfold powerCard; simp

@[simp] theorem startExchange_keeps (p : Nat) (s : State) : Same s (startExchange p s) := by
  unfold startExchange; simp

@[simp] theorem countExchange_keeps (p reason : Nat) (enrolled : Bool) (s : State) : Same s (countExchange p reason enrolled s) := by
  unfold countExchange; simp

@[simp] theorem endExchange_keeps (p reason : Nat) (s : State) : Same s (endExchange p reason s) := by
  unfold endExchange; dsimp only; (repeat' split) <;> simp_all

@[simp] theorem endRole_keeps (role reason : Nat) (except : Option Nat) (s : State) : Same s (endRole role reason except s) := by
  unfold endRole; simp

@[simp] theorem eraseCards_keeps (s : State) : Same s (eraseCards s) := by
  unfold eraseCards; simp

@[simp] theorem eraseAll_keeps (s : State) : Same s (eraseAll s) := by
  unfold eraseAll; simp

@[simp] theorem chooseMode_keeps (p : Nat) (s : State) : Same s (chooseMode p s) := by
  unfold chooseMode; simp

@[simp] theorem restartMode_keeps (p : Nat) (s : State) : Same s (restartMode p s) := by
  unfold restartMode; simp

@[simp] theorem challenge_keeps (p session role : Nat) (collect enrol : Bool) (intent : Bytes) (s : State) : Same s (challenge p session role collect enrol intent s) := by
  unfold challenge; (repeat' split) <;> simp

@[simp] theorem identify_keeps (p st : Nat) (s : State) : Same s (identify p st s) := by
  unfold identify; dsimp only; (repeat' split) <;> simp_all

@[simp] theorem resend_keeps (p : Nat) (s : State) : Same s (resend p s) := by
  unfold resend; simp

@[simp] theorem goodResponse_keeps (p st : Nat) (s : State) : Same s (goodResponse p st s) := by
  unfold goodResponse; dsimp only; (repeat' split) <;> simp_all

@[simp] theorem probe_keeps (p : Nat) (s : State) : Same s (probe p s) := by
  unfold probe; simp

@[simp] theorem badResponse_keeps (p : Nat) (s : State) : Same s (badResponse p s) := by
  unfold badResponse; simp

@[simp] theorem cardResponse_keeps (p : Nat) (f : Bytes) (s : State) : Same s (cardResponse p f s) := by
  unfold cardResponse; simp

@[simp] theorem cardTimeout_keeps (p : Nat) (s : State) : Same s (cardTimeout p s) := by
  unfold cardTimeout; simp

@[simp] theorem waitByte_keeps (p : Nat) (s : State) : Same s (waitByte p s) := by
  unfold waitByte; simp

@[simp] theorem cardData_keeps (p : Nat) (data : Bytes) (ok : Bool) (s : State) : Same s (cardData p data ok s) := by
  unfold cardData; dsimp only; (repeat' split) <;> simp_all

@[simp] theorem crcToken_keeps (p token : Nat) (s : State) : Same s (crcToken p token s) := by
  unfold crcToken; simp

@[simp] theorem busyRelease_keeps (p : Nat) (s : State) : Same s (busyRelease p s) := by
  unfold busyRelease; simp

@[simp] theorem enrolCard_keeps (j : Nat) (s : State) : Same s (enrolCard j s) := by
  unfold enrolCard; simp

@[simp] theorem acceptCard_keeps (p : Nat) (s : State) : Same s (acceptCard p s) := by
  unfold acceptCard; dsimp only; (repeat' split) <;> simp_all

@[simp] theorem blindCheck_keeps (x : Port) (s : State) : Same s (blindCheck x s) := by
  unfold blindCheck; simp

@[simp] theorem checkDone_keeps (p : Nat) (s : State) : Same s (checkDone p s) := by
  unfold checkDone; dsimp only; (repeat' split) <;> simp_all

@[simp] theorem cardRemove_keeps (p : Nat) (s : State) : Same s (cardRemove p s) := by
  unfold cardRemove; simp

@[simp] theorem cardInsert_keeps (p : Nat) (s : State) : Same s (cardInsert p s) := by
  unfold cardInsert; simp

@[simp] theorem cardPower_keeps (p : Nat) (s : State) : Same s (cardPower p s) := by
  unfold cardPower; simp

@[simp] theorem cardRepower_keeps (p : Nat) (s : State) : Same s (cardRepower p s) := by
  unfold cardRepower; simp

@[simp] theorem quorumOpenGo_keeps (id : Nat) (s : State) : Same s (quorumOpenGo id s) := by
  unfold quorumOpenGo; simp

@[simp] theorem closeSession_keeps (role st info : Nat) (s : State) : Same s (closeSession role st info s) := by
  unfold closeSession; dsimp only; (repeat' split) <;> simp_all

@[simp] theorem windowEnd_keeps (role : Nat) (s : State) : Same s (windowEnd role s) := by
  unfold windowEnd; simp

@[simp] theorem roleSetGo_keeps (id : Nat) (s : State) : Same s (roleSetGo id s) := by
  unfold roleSetGo; dsimp only; (repeat' split) <;> simp_all

/-! ## KeyCmds -/

@[simp] theorem keyAccept_keeps (id : Nat) (s : State) : Same s (keyAccept id s) := by
  unfold keyAccept; dsimp only; (repeat' split) <;> simp_all

@[simp] theorem keyCommit_keeps (id : Nat) (s : State) : Same s (keyCommit id s) := by
  unfold keyCommit; simp

@[simp] theorem importMat_keeps (s : State) (k : KeySlot) (wrapHandle : Nat) (src : Bytes) : Same s (importMat s k wrapHandle src).2 := by
  unfold importMat; dsimp only; (repeat' split) <;> simp_all

@[simp] theorem generateMat_keeps (s : State) (k : KeySlot) : Same s (generateMat s k).2 := by
  unfold generateMat; (repeat' split) <;> simp

@[simp] theorem createdKey_keeps (s : State) (x : Job) : Same s (createdKey s x).2 := by
  unfold createdKey; dsimp only; (repeat' split) <;> simp_all

@[simp] theorem createKeyNow_keeps (id : Nat) (s : State) : Same s (createKeyNow id s) := by
  unfold createKeyNow; dsimp only; (repeat' split) <;> simp_all

@[simp] theorem createKeyGo_keeps (id : Nat) (s : State) : Same s (createKeyGo id s) := by
  unfold createKeyGo; dsimp only; split
  · exact failJob_keeps _ _ _
  · exact withRng_keeps _ _ _ _ (fun t => by split; exact laneGo_keeps _ _; exact createKeyNow_keeps _ _)

@[simp] theorem createKeyFin_keeps (id : Nat) (s : State) : Same s (createKeyFin id s) := by
  unfold createKeyFin; split
  · exact same_rfl
  · exact Same.trans (freeLane_keeps _ _) (withInternal_keeps _ _ _ _ (fun t => createKeyNow_keeps _ _))

@[simp] theorem rotatedKey_keeps (s : State) (x : Job) : Same s (rotatedKey s x).2 := by
  unfold rotatedKey; dsimp only; (repeat' split) <;> simp_all

@[simp] theorem rotateNow_keeps (id : Nat) (s : State) : Same s (rotateNow id s) := by
  unfold rotateNow; dsimp only; (repeat' split) <;> simp_all

@[simp] theorem rotateGo_keeps (id : Nat) (s : State) : Same s (rotateGo id s) := by
  unfold rotateGo
  refine ite_same (finishJob_keeps _ _ _ _ _ _) (withRng_keeps _ _ _ _ (fun t => ?_))
  split
  · exact laneGo_keeps _ _
  · exact rotateNow_keeps _ _

@[simp] theorem rotateFin_keeps (id : Nat) (s : State) : Same s (rotateFin id s) := by
  unfold rotateFin; split
  · exact same_rfl
  · exact Same.trans (freeLane_keeps _ _) (withInternal_keeps _ _ _ _ (fun t => rotateNow_keeps _ _))

@[simp] theorem destroyKeyGo_keeps (id : Nat) (s : State) : Same s (destroyKeyGo id s) := by
  unfold destroyKeyGo; simp

@[simp] theorem exportGo_keeps (id : Nat) (s : State) : Same s (exportGo id s) := by
  unfold exportGo; simp

@[simp] theorem publicGo_keeps (id : Nat) (s : State) : Same s (publicGo id s) := by
  unfold publicGo; simp

@[simp] theorem infoGo_keeps (id : Nat) (s : State) : Same s (infoGo id s) := by
  unfold infoGo; simp

@[simp] theorem finishRetire_keeps (t : Nat) (s : State) : Same s (finishRetire t s) := by
  unfold finishRetire; simp

@[simp] theorem finishRetires_keeps (s : State) : Same s (finishRetires s) := by
  unfold finishRetires; simp

@[simp] theorem packageInitNow_keeps (id : Nat) (s : State) : Same s (packageInitNow id s) := by
  unfold packageInitNow; simp

@[simp] theorem packageInitGo_keeps (id : Nat) (s : State) : Same s (packageInitGo id s) := by
  exact withInternal_keeps _ _ _ _ (fun t => packageInitNow_keeps _ _)

@[simp] theorem packageInitStart_keeps (id : Nat) (s : State) : Same s (packageInitStart id s) := by
  unfold packageInitStart; simp

@[simp] theorem authorityGo_keeps (id : Nat) (s : State) : Same s (authorityGo id s) := by
  unfold authorityGo; (repeat' split) <;> simp

@[simp] theorem migrateGo_keeps (id : Nat) (s : State) : Same s (migrateGo id s) := by
  unfold migrateGo; simp

/-! ## TimeCmds -/

@[simp] theorem acquire_keeps (s : State) : Same s (acquire s) := by
  unfold acquire; simp

@[simp] theorem beaconFin_keeps (id : Nat) (s : State) : Same s (beaconFin id s) := by
  unfold beaconFin; dsimp only; (repeat' split) <;> simp_all

@[simp] theorem closeSetGo_keeps (id : Nat) (s : State) : Same s (closeSetGo id s) := by
  unfold closeSetGo; simp

@[simp] theorem closeReadGo_keeps (id : Nat) (s : State) : Same s (closeReadGo id s) := by
  unfold closeReadGo; simp

@[simp] theorem epcConfigureGo_keeps (id : Nat) (s : State) : Same s (epcConfigureGo id s) := by
  unfold epcConfigureGo; simp

@[simp] theorem startBurn_keeps (id : Nat) (todo : List OtpStep) (s : State) : Same s (startBurn id todo s) := by
  unfold startBurn; simp

@[simp] theorem epochSetupGo_keeps (id : Nat) (s : State) : Same s (epochSetupGo id s) := by
  unfold epochSetupGo; simp

@[simp] theorem stampEnd_keeps (id : Nat) (out : Bytes) (s : State) : Same s (stampEnd id out s) := by
  unfold stampEnd; simp

@[simp] theorem stampGo_keeps (id : Nat) (s : State) : Same s (stampGo id s) := by
  unfold stampGo; simp

@[simp] theorem stampFin_keeps (id : Nat) (s : State) : Same s (stampFin id s) := by
  unfold stampFin; (repeat' split) <;> simp

/-! ## DieRegs -/

@[simp] theorem freezeDie_keeps (die : Nat) (s : State) : Same s (freezeDie die s) := by
  unfold freezeDie; simp

/-! ## Band -/

@[simp] theorem moveInstances_keeps (die : Nat) (s : State) : Same s (moveInstances die s) := by
  unfold moveInstances; simp

@[simp] theorem rerunDraws_keeps (die : Nat) (s : State) : Same s (rerunDraws die s) := by
  unfold rerunDraws; simp

@[simp] theorem moveSigns_keeps (die : Nat) (s : State) : Same s (moveSigns die s) := by
  unfold moveSigns; simp

@[simp] theorem endTests_keeps (s : State) : Same s (endTests s) := by
  unfold endTests; simp

@[simp] theorem dropTests_keeps (die : Nat) (s : State) : Same s (dropTests die s) := by
  unfold dropTests; simp

@[simp] theorem fenceOne_keeps (die cause : Nat) (s : State) : Same s (fenceOne die cause s) := by
  unfold fenceOne; simp

@[simp] theorem fenceDie_keeps (die cause : Nat) (s : State) : Same s (fenceDie die cause s) := by
  unfold fenceDie; simp

@[simp] theorem portDown_keeps (die port : Nat) (s : State) : Same s (portDown die port s) := by
  unfold portDown; (repeat' split) <;> simp

@[simp] theorem startRetrain_keeps (die port : Nat) (s : State) : Same s (startRetrain die port s) := by
  unfold startRetrain; simp

@[simp] theorem ackFlit_keeps (die port : Nat) (f : Bytes) (s : State) : Same s (ackFlit die port f s) := by
  unfold ackFlit; simp

@[simp] theorem forwardFlit_keeps (die : Nat) (f : Flit) (s : State) : Same s (forwardFlit die f s) := by
  unfold forwardFlit; simp

@[simp] theorem flitReceive_keeps (die port : Nat) (f : Bytes) (worst : Nat) (s : State) : Same s (flitReceive die port f worst s) := by
  unfold flitReceive; simp

@[simp] theorem keepalive_keeps (die port : Nat) (s : State) : Same s (keepalive die port s) := by
  unfold keepalive; simp

@[simp] theorem silence_keeps (die port : Nat) (s : State) : Same s (silence die port s) := by
  unfold silence; simp

@[simp] theorem retrainDone_keeps (die port width : Nat) (s : State) : Same s (retrainDone die port width s) := by
  unfold retrainDone; simp

@[simp] theorem upstreamTimeout_keeps (die : Nat) (s : State) : Same s (upstreamTimeout die s) := by
  unfold upstreamTimeout; simp

@[simp] theorem offsetCheck_keeps (die : Nat) (offset : Int) (s : State) : Same s (offsetCheck die offset s) := by
  unfold offsetCheck; simp

@[simp] theorem fenceConfirm_keeps (tgt : Nat) (s : State) : Same s (fenceConfirm tgt s) := by
  unfold fenceConfirm; (repeat' split) <;> simp

@[simp] theorem stopQueues_keeps (fn : Nat) (s : State) : Same s (stopQueues fn s) := by
  unfold stopQueues; simp

@[simp] theorem crownFail_keeps (addr : Nat) (s : State) : Same s (crownFail addr s) := by
  unfold crownFail; simp

@[simp] theorem slotLost_keeps (slot : Nat) (s : State) : Same s (slotLost slot s) := by
  unfold slotLost; simp

@[simp] theorem memoryError_keeps (die errors stored code unit addr : Nat) (s : State) : Same s (memoryError die errors stored code unit addr s) := by
  unfold memoryError; simp

@[simp] theorem refetchDone_keeps (die slot : Nat) (s : State) : Same s (refetchDone die slot s) := by
  unfold refetchDone; simp

end Sys2Proof.Laws
end

