-- ==== Sys2Proof/Laws/KeepsPackage.lean ====
section
/-! SUPPORT. The same frame for life cycle, tamper, worlds, firmware, counters, management, power and start-up. Each lemma says it for one operation. -/

namespace Sys2Proof.Laws
open Sys2Proof Sys2Proof.Machine

/-! ## Lifecycle -/

@[simp] theorem endGrant_keeps (s : State) : Same s (endGrant s) := by
  unfold endGrant; simp

@[simp] theorem sweepJobs_keeps (id : Nat) (s : State) : Same s (sweepJobs id s) := by
  unfold sweepJobs; simp

@[simp] theorem beginTransition_keeps (id : Nat) (s : State) : Same s (beginTransition id s) := by
  unfold beginTransition; dsimp only; (repeat' split) <;> simp_all

@[simp] theorem transitionGo_keeps (id : Nat) (s : State) : Same s (transitionGo id s) := by
  unfold transitionGo; (repeat' split) <;> simp

@[simp] theorem transitionWritten_keeps (s : State) : Same s (transitionWritten s) := by
  unfold transitionWritten; (repeat' split) <;> simp

@[simp] theorem transitionDone_keeps (tr : Trans) (s : State) : Same s (transitionDone tr s) := by
  unfold transitionDone; simp

@[simp] theorem tokenSetGo_keeps (id : Nat) (s : State) : Same s (tokenSetGo id s) := by
  unfold tokenSetGo; simp

@[simp] theorem burnDone_keeps (id : Nat) (s : State) : Same s (burnDone id s) := by
  unfold burnDone; simp

@[simp] theorem nextLife_keeps (s : State) : Same s (nextLife s) := by
  unfold nextLife; (repeat' split) <;> simp

@[simp] theorem burnWord_keeps (ok : Bool) (b : Burn) (s : State) : Same s (burnWord ok b s) := by
  unfold burnWord; (repeat' split) <;> simp

@[simp] theorem otpWord_keeps (ok : Bool) (s : State) : Same s (otpWord ok s) := by
  unfold otpWord; (repeat' split) <;> simp

@[simp] theorem returnUnlockGo_keeps (id : Nat) (s : State) : Same s (returnUnlockGo id s) := by
  unfold returnUnlockGo; simp

@[simp] theorem dbgChallengeNow_keeps (id : Nat) (s : State) : Same s (dbgChallengeNow id s) := by
  unfold dbgChallengeNow; simp

@[simp] theorem dbgChallengeGo_keeps (id : Nat) (s : State) : Same s (dbgChallengeGo id s) := by
  exact withInternal_keeps _ _ _ _ (fun t => dbgChallengeNow_keeps _ _)

@[simp] theorem openGrant_keeps (id g : Nat) (s : State) : Same s (openGrant id g s) := by
  unfold openGrant; simp

@[simp] theorem dbgGrantGo_keeps (id : Nat) (s : State) : Same s (dbgGrantGo id s) := by
  unfold dbgGrantGo; dsimp only; (repeat' split) <;> simp_all

/-! ## Tamper -/

@[simp] theorem pushLining_keeps (e : LiningEntry) (s : State) : Same s (pushLining e s) := by
  unfold pushLining; simp

@[simp] theorem logEntry_keeps (code cls die detail : Nat) (s : State) : Same s (logEntry code cls die detail s) := by
  unfold logEntry; simp

@[simp] theorem wakeUp_keeps (cause : Nat) (s : State) : Same s (wakeUp cause s) := by
  unfold wakeUp; simp

@[simp] theorem alarmRecord_keeps (die inst cls code detail : Nat) (s : State) : Same s (alarmRecord die inst cls code detail s) := by
  unfold alarmRecord; simp

@[simp] theorem latchedEntry_keeps (code cls die detail : Nat) (s : State) : Same s (latchedEntry code cls die detail s) := by
  unfold latchedEntry; simp

@[simp] theorem endUnlocks_keeps (s : State) : Same s (endUnlocks s) := by
  unfold endUnlocks; simp

@[simp] theorem enterLock_keeps (code : Nat) (s : State) : Same s (enterLock code s) := by
  unfold enterLock; simp

@[simp] theorem eraseResponse_keeps (s : State) : Same s (eraseResponse s) := by
  unfold eraseResponse; simp

@[simp] theorem respond_keeps (code die inst detail cls : Nat) (logged : Bool) (s : State) : Same s (respond code die inst detail cls logged s) := by
  unfold respond; simp

@[simp] theorem internalEvent_keeps (code die inst detail : Nat) (s : State) : Same s (internalEvent code die inst detail s) := by
  unfold internalEvent; simp

@[simp] theorem aloneAlarm_keeps (code detail : Nat) (s : State) : Same s (aloneAlarm code detail s) := by
  unfold aloneAlarm; simp

@[simp] theorem liningAlarm_keeps (code detail ticks : Nat) (s : State) : Same s (liningAlarm code detail ticks s) := by
  unfold liningAlarm; simp

@[simp] theorem tamperAlarm_keeps (code die inst detail : Nat) (s : State) : Same s (tamperAlarm code die inst detail s) := by
  unfold tamperAlarm; simp

@[simp] theorem alarmEnd_keeps (code die : Nat) (s : State) : Same s (alarmEnd code die s) := by
  unfold alarmEnd; simp

@[simp] theorem logLimits_keeps (s : State) : Same s (logLimits s) := by
  unfold logLimits; simp

@[simp] theorem copyEntry_keeps (e : LiningEntry) (s : State) : Same s (copyEntry e s) := by
  unfold copyEntry; simp

@[simp] theorem copyAll_keeps (s : State) : Same s (copyAll s) := by
  unfold copyAll; simp

@[simp] theorem writeCarry_keeps (s : State) : Same s (writeCarry s) := by
  unfold writeCarry; (repeat' split) <;> simp

@[simp] theorem modComp_keeps (c : Nat) (f : FwComp → FwComp) (s : State) : Same s (modComp c f s) := by
  unfold modComp; simp

@[simp] theorem activateBanks_keeps (mask : Nat) (s : State) : Same s (activateBanks mask s) := by
  unfold activateBanks; simp

@[simp] theorem activateWaiting_keeps (s : State) : Same s (activateWaiting s) := by
  unfold activateWaiting; (repeat' split) <;> simp

@[simp] theorem repairStore_keeps (s : State) : Same s (repairStore s) := by
  unfold repairStore; simp

@[simp] theorem unlockEnd_keeps (id : Nat) (ran : Bool) (s : State) : Same s (unlockEnd id ran s) := by
  unfold unlockEnd; simp

@[simp] theorem unlockRepair_keeps (id : Nat) (s : State) : Same s (unlockRepair id s) := by
  unfold unlockRepair; simp

@[simp] theorem unlockWritten_keeps (id : Nat) (s : State) : Same s (unlockWritten id s) := by
  unfold unlockWritten; simp

@[simp] theorem unlockLogged_keeps (s : State) : Same s (unlockLogged s) := by
  unfold unlockLogged; simp

@[simp] theorem unlockGo_keeps (id : Nat) (s : State) : Same s (unlockGo id s) := by
  unfold unlockGo; simp

@[simp] theorem tmpConfigGo_keeps (id : Nat) (s : State) : Same s (tmpConfigGo id s) := by
  unfold tmpConfigGo; simp

@[simp] theorem monitorTestGo_keeps (id : Nat) (s : State) : Same s (monitorTestGo id s) := by
  unfold monitorTestGo; simp

@[simp] theorem countTestResult_keeps (j : Nat) (pass : Bool) (s : State) : Same s (countTestResult j pass s) := by
  unfold countTestResult; simp

@[simp] theorem monitorTestResult_keeps (code die inst : Nat) (pass : Bool) (s : State) : Same s (monitorTestResult code die inst pass s) := by
  unfold monitorTestResult; (repeat' split) <;> simp

@[simp] theorem writeEvent_keeps (r : EvRec) (s : State) : Same s (writeEvent r s) := by
  unfold writeEvent; simp

@[simp] theorem writeEvents_keeps (s : State) : Same s (writeEvents s) := by
  unfold writeEvents; simp

@[simp] theorem eventReadGo_keeps (id : Nat) (s : State) : Same s (eventReadGo id s) := by
  unfold eventReadGo; simp

@[simp] theorem logReadGo_keeps (id : Nat) (s : State) : Same s (logReadGo id s) := by
  unfold logReadGo; simp

@[simp] theorem keyDestroyNow_keeps (id : Nat) (s : State) : Same s (keyDestroyNow id s) := by
  unfold keyDestroyNow; simp

@[simp] theorem shieldReseed_keeps (die : Nat) (s : State) : Same s (shieldReseed die s) := by
  unfold shieldReseed; simp

@[simp] theorem xtalCheck_keeps (ok : Bool) (s : State) : Same s (xtalCheck ok s) := by
  unfold xtalCheck; simp

@[simp] theorem liningLoss_keeps (s : State) : Same s (liningLoss s) := by
  unfold liningLoss; simp

@[simp] theorem liningOn_keeps (s : State) : Same s (liningOn s) := by
  unfold liningOn; simp

@[simp] theorem logProgram_keeps (ok : Bool) (s : State) : Same s (logProgram ok s) := by
  unfold logProgram; (repeat' split) <;> simp

/-! ## Worlds -/

@[simp] theorem modMandrel_keeps (die : Nat) (f : Mandrel → Mandrel) (s : State) : Same s (modMandrel die f s) := by
  unfold modMandrel; simp

@[simp] theorem modWorld_keeps (die w : Nat) (f : World → World) (s : State) : Same s (modWorld die w f s) := by
  unfold modWorld; simp

@[simp] theorem gatingRequest_keeps (die block : Nat) (want : Bool) (s : State) : Same s (gatingRequest die block want s) := by
  unfold gatingRequest; simp

@[simp] theorem claimRelease_keeps (die block : Nat) (s : State) : Same s (claimRelease die block s) := by
  unfold claimRelease; simp

@[simp] theorem gatingOverdue_keeps (die block : Nat) (s : State) : Same s (gatingOverdue die block s) := by
  unfold gatingOverdue; dsimp only; (repeat' split) <;> simp_all

@[simp] theorem restartWorld_keeps (die w trigger : Nat) (s : State) : Same s (restartWorld die w trigger s) := by
  unfold restartWorld; simp

@[simp] theorem restartDone_keeps (die w : Nat) (ok : Bool) (s : State) : Same s (restartDone die w ok s) := by
  unfold restartDone; simp

@[simp] theorem heartbeatMiss_keeps (die w : Nat) (s : State) : Same s (heartbeatMiss die w s) := by
  unfold heartbeatMiss; simp

@[simp] theorem gateCall_keeps (die index : Nat) (regs : List Nat) (mbox : Option (Nat × Nat)) (s : State) : Same s (gateCall die index regs mbox s) := by
  unfold gateCall; dsimp only; (repeat' split) <;> simp_all

@[simp] theorem gateReturn_keeps (die a0 a1 : Nat) (s : State) : Same s (gateReturn die a0 a1 s) := by
  unfold gateReturn; (repeat' split) <;> simp

@[simp] theorem worldInterrupt_keeps (die w : Nat) (s : State) : Same s (worldInterrupt die w s) := by
  unfold worldInterrupt; simp

@[simp] theorem reportAccess_keeps (die : Nat) (a : Access) (s : State) : ∀ v, reportAccess die a s = some v → Same s v := by
  unfold reportAccess; dsimp only; (repeat' split) <;> simp_all

@[simp] theorem dmaFault_keeps (id : Nat) (s : State) : Same s (dmaFault id s) := by
  unfold dmaFault; (repeat' split) <;> simp

@[simp] theorem accessRefused_keeps (die : Nat) (a : Access) (s : State) : Same s (accessRefused die a s) := by
  unfold accessRefused; split
  · exact same_rfl
  · split
    · exact same_rfl
    · next h =>
      refine Same.trans (reportAccess_keeps _ _ _ _ h) ?_
      (repeat' split) <;> simp [Same]

@[simp] theorem debugAccess_keeps (die : Nat) (a : Access) (halt : Bool) (s : State) : Same s (debugAccess die a halt s) := by
  unfold debugAccess; split
  · exact same_rfl
  · split
    · split <;> simp
    · split
      · exact same_rfl
      · next h => exact reportAccess_keeps _ _ _ _ h

@[simp] theorem worldMemory_keeps (unit : Nat) (s : State) : Same s (worldMemory unit s) := by
  unfold worldMemory; simp

/-! ## Firmware -/

@[simp] theorem eraseBank_keeps (c : Nat) (s : State) : Same s (eraseBank c s) := by
  unfold eraseBank; simp

@[simp] theorem stageBank_keeps (c : Nat) (data : Bytes) (s : State) : Same s (stageBank c data s).2 := by
  unfold stageBank; simp

@[simp] theorem dropUpdate_keeps (s : State) : Same s (dropUpdate s) := by
  unfold dropUpdate; (repeat' split) <;> simp

@[simp] theorem fwActivateDone_keeps (id : Nat) (s : State) : Same s (fwActivateDone id s) := by
  unfold fwActivateDone; simp

@[simp] theorem fwActivateGo_keeps (id : Nat) (s : State) : Same s (fwActivateGo id s) := by
  unfold fwActivateGo; dsimp only; (repeat' split) <;> simp_all

@[simp] theorem hatterRestart_keeps (exc : Bool) (s : State) : Same s (hatterRestart exc s) := by
  unfold hatterRestart; simp

@[simp] theorem hatterBack_keeps (s : State) : Same s (hatterBack s) := by
  unfold hatterBack; simp

/-! ## Counting -/

@[simp] theorem cntConfigureGo_keeps (id : Nat) (s : State) : Same s (cntConfigureGo id s) := by
  unfold cntConfigureGo; simp

@[simp] theorem snapAt_keeps (b : Nat) (s : State) : Same s (snapAt b s) := by
  unfold snapAt; simp

@[simp] theorem cntSampleReadGo_keeps (id : Nat) (s : State) : Same s (cntSampleReadGo id s) := by
  unfold cntSampleReadGo; simp

@[simp] theorem fwSample_keeps (die world addr : Nat) (s : State) : Same s (fwSample die world addr s) := by
  unfold fwSample; simp

@[simp] theorem counterSaturates_keeps (die n : Nat) (s : State) : Same s (counterSaturates die n s) := by
  unfold counterSaturates; simp

/-! ## Mgmt -/

@[simp] theorem sendEvent_keeps (b : Bytes) (s : State) : Same s (sendEvent b s) := by
  unfold sendEvent; simp

@[simp] theorem evalLevel_keeps (id level : Nat) (v : Int) (s : State) : Same s (evalLevel id level v s) := by
  unfold evalLevel; simp

@[simp] theorem sensorSample_keeps (l : List (Nat × Int)) (s : State) : Same s (sensorSample l s) := by
  unfold sensorSample; simp

@[simp] theorem putAsm_keeps (b : Binding) (a : Option Assembly) (s : State) : Same s (putAsm b a s) := by
  unfold putAsm; simp

@[simp] theorem mctpPacket_keeps (b : Binding) (p : Bytes) (pecOk : Bool) (s : State) : Same s (mctpPacket b p pecOk s) := by
  unfold mctpPacket; dsimp only; (repeat' split) <;> simp_all

@[simp] theorem assemblyTimeout_keeps (b : Binding) (s : State) : Same s (assemblyTimeout b s) := by
  unfold assemblyTimeout; (repeat' split) <;> simp

@[simp] theorem smbusReset_keeps (s : State) : Same s (smbusReset s) := by
  unfold smbusReset; simp

@[simp] theorem reply_keeps (b : Binding) (data : Bytes) (s : State) : Same s (reply b data s) := by
  unfold reply; simp

@[simp] theorem ctrl_keeps (b : Binding) (cmd cc : Nat) (data : Bytes) (s : State) : Same s (ctrl b cmd cc data s) := by
  unfold ctrl; simp

@[simp] theorem setEid_keeps (b : Binding) (op eid : Nat) (s : State) : Same s (setEid b op eid s) := by
  unfold setEid; simp

@[simp] theorem mctpVersion_keeps (b : Binding) (ty : Nat) (s : State) : Same s (mctpVersion b ty s) := by
  unfold mctpVersion; simp

@[simp] theorem pldm_keeps (b : Binding) (ty cmd cc : Nat) (data : Bytes) (s : State) : Same s (pldm b ty cmd cc data s) := by
  unfold pldm; simp

@[simp] theorem getPldmVersionR_keeps (b : Binding) (ty : Nat) (s : State) : Same s (getPldmVersionR b ty s) := by
  unfold getPldmVersionR; (repeat' split) <;> simp

@[simp] theorem getPldmCommandsR_keeps (b : Binding) (ty : Nat) (s : State) : Same s (getPldmCommandsR b ty s) := by
  unfold getPldmCommandsR; (repeat' split) <;> simp

@[simp] theorem pdrInfo_keeps (b : Binding) (s : State) : Same s (pdrInfo b s) := by
  unfold pdrInfo; simp

@[simp] theorem getPdrR_keeps (b : Binding) (record : Nat) (s : State) : Same s (getPdrR b record s) := by
  unfold getPdrR; dsimp only; (repeat' split) <;> simp_all

@[simp] theorem sensorReading_keeps (b : Binding) (id : Nat) (s : State) : Same s (sensorReading b id s) := by
  unfold sensorReading; simp

@[simp] theorem stateReading_keeps (b : Binding) (id : Nat) (s : State) : Same s (stateReading b id s) := by
  unfold stateReading; (repeat' split) <;> simp

@[simp] theorem setReceiver_keeps (b : Binding) (enable eid : Nat) (s : State) : Same s (setReceiver b enable eid s) := by
  unfold setReceiver; simp

@[simp] theorem pollEvent_keeps (b : Binding) (s : State) : Same s (pollEvent b s) := by
  unfold pollEvent; (repeat' split) <;> simp

@[simp] theorem deviceIds_keeps (b : Binding) (s : State) : Same s (deviceIds b s) := by
  unfold deviceIds; simp

@[simp] theorem fwParams_keeps (b : Binding) (s : State) : Same s (fwParams b s) := by
  unfold fwParams; simp

@[simp] theorem requestUpdateR_keeps (b : Binding) (size : Nat) (s : State) : Same s (requestUpdateR b size s) := by
  unfold requestUpdateR; simp

@[simp] theorem passTable_keeps (b : Binding) (c svn : Nat) (s : State) : Same s (passTable b c svn s) := by
  unfold passTable; (repeat' split) <;> simp

@[simp] theorem requestData_keeps (b : Binding) (u : Update) (s : State) : Same s (requestData b u s) := by
  unfold requestData; simp

@[simp] theorem finishTransfer_keeps (u : Update) (s : State) : Same s (finishTransfer u s) := by
  unfold finishTransfer; simp

@[simp] theorem resumeUpdate_keeps (s : State) : Same s (resumeUpdate s) := by
  unfold resumeUpdate; (repeat' split) <;> simp

@[simp] theorem updateComp_keeps (b : Binding) (c size : Nat) (s : State) : Same s (updateComp b c size s) := by
  unfold updateComp; (repeat' split) <;> simp

@[simp] theorem fwData_keeps (b : Binding) (data : Bytes) (s : State) : Same s (fwData b data s) := by
  unfold fwData; (repeat' split) <;> simp

@[simp] theorem activateFw_keeps (b : Binding) (s : State) : Same s (activateFw b s) := by
  unfold activateFw; (repeat' split) <;> simp

@[simp] theorem fwStatus_keeps (b : Binding) (s : State) : Same s (fwStatus b s) := by
  unfold fwStatus; simp

@[simp] theorem cancelComp_keeps (b : Binding) (s : State) : Same s (cancelComp b s) := by
  unfold cancelComp; (repeat' split) <;> simp

@[simp] theorem cancelUpd_keeps (b : Binding) (s : State) : Same s (cancelUpd b s) := by
  unfold cancelUpd; (repeat' split) <;> simp

@[simp] theorem setConn_keeps (b : Binding) (c : SpdmConn) (s : State) : Same s (setConn b c s) := by
  unfold setConn; simp

@[simp] theorem spdm_keeps (b : Binding) (m : Bytes) (s : State) : Same s (spdm b m s) := by
  unfold spdm; simp

@[simp] theorem spdmError_keeps (b : Binding) (code : Nat) (s : State) : Same s (spdmError b code s) := by
  unfold spdmError; simp

@[simp] theorem dikSign_keeps (context : String) (m : Bytes) (s : State) : Same s (dikSign context m s).2 := by
  unfold dikSign; simp

@[simp] theorem spdmVersion_keeps (b : Binding) (s : State) : Same s (spdmVersion b s) := by
  unfold spdmVersion; simp

@[simp] theorem spdmCaps_keeps (b : Binding) (req : Bytes) (s : State) : Same s (spdmCaps b req s) := by
  unfold spdmCaps; simp

@[simp] theorem spdmAlgs_keeps (b : Binding) (req : Bytes) (s : State) : Same s (spdmAlgs b req s) := by
  unfold spdmAlgs; simp

@[simp] theorem spdmDigests_keeps (b : Binding) (s : State) : Same s (spdmDigests b s) := by
  unfold spdmDigests; simp

@[simp] theorem spdmCert_keeps (b : Binding) (slot off len : Nat) (s : State) : Same s (spdmCert b slot off len s) := by
  unfold spdmCert; simp

@[simp] theorem spdmChallenge_keeps (b : Binding) (slot : Nat) (nonce : Bytes) (s : State) : Same s (spdmChallenge b slot nonce s) := by
  unfold spdmChallenge; simp

@[simp] theorem spdmMeas_keeps (b : Binding) (i : Nat) (signed : Bool) (nonce : Bytes) (s : State) : Same s (spdmMeas b i signed nonce s) := by
  unfold spdmMeas; simp

/-! ## Power -/

@[simp] theorem resumeAll_keeps (why : Nat) (f : Nat → State → State) (s : State) (hf : ∀ j s, Same s (f j s)) : Same s (resumeAll why f s) := by
  exact same_foldl _ (fun s j => by split; exact hf j s; exact same_rfl) _ _

@[simp] theorem imageWaiters_keeps (s : State) : Same s (imageWaiters s) := by
  unfold imageWaiters
  refine Same.trans ?_ (resumeAll_keeps _ _ _ (fun j s => finishJob_keeps _ _ _ _ _ _))
  refine Same.trans ?_ (resumeAll_keeps _ _ _ (fun j s => unlockWritten_keeps _ _))
  refine Same.trans ?_ (resumeAll_keeps _ _ _ (fun j s => by simp [Same]))
  refine Same.trans ?_ (resumeAll_keeps _ _ _ (fun j s => by simp [Same]))
  refine Same.trans ?_ (resumeAll_keeps _ _ _ (fun j s => okJob_keeps _ _ _ _))
  refine Same.trans ?_ (resumeAll_keeps _ _ _ (fun j s => keyAccept_keeps _ _))
  exact ite_same same_rfl (resumeAll_keeps _ _ _ (fun j s => commitReady_keeps _ _))

theorem same_ckpt {s : State} (a : Option Ckpt) (b : Nat) (c d : Bool) : Same s { s with ckptReq := a, ckptAt := b, ckptOverdue := c, ckptDirty := d } := same_rfl
@[simp] theorem ckptDone_keeps (s : State) : Same s (ckptDone s) := by
  unfold ckptDone; split
  · exact same_rfl
  · exact Same.trans (Same.trans (same_ckpt _ _ _ _) (ite_same (resumeAll_keeps _ _ _ (fun j s => okJob_keeps _ _ _ _)) same_rfl)) (resumeAll_keeps _ _ _ (fun j s => okJob_keeps _ _ _ _))

@[simp] theorem imageDone_keeps (s : State) : Same s (imageDone s) := by
  unfold imageDone; simp

@[simp] theorem psnImage_keeps (s : State) : Same s (psnImage s) := by
  unfold psnImage; simp

@[simp] theorem flashTimeout_keeps (job : Nat) (s : State) : Same s (flashTimeout job s) := by
  unfold flashTimeout; split
  · exact same_rfl
  · refine ite_same ?_ same_rfl
    refine Same.trans ?_ (finishJob_keeps _ _ _ _ _ _)
    refine ite_same ?_ same_rfl
    exact ⟨rfl, rfl, rfl⟩

@[simp] theorem supplyWarning_keeps (rail die mv : Nat) (s : State) : Same s (supplyWarning rail die mv s) := by
  unfold supplyWarning; simp

theorem same_hold {s : State} (h : Bool) (p : Power) : Same s { s with hold := h, pwr := p } := same_rfl
@[simp] theorem endHold_keeps (s : State) : Same s (endHold s) := by
  unfold endHold
  refine Same.trans ?_ (settleAll_keeps _)
  refine Same.trans ?_ (resumeUpdate_keeps _)
  refine Same.trans ?_ (resumeAll_keeps _ _ _ (fun j s => packageInitGo_keeps _ _))
  refine Same.trans ?_ (resumeAll_keeps _ _ _ (fun j s => fwActivateDone_keeps _ _))
  refine Same.trans ?_ (nextLife_keeps _)
  refine Same.trans ?_ (restartEngines_keeps _)
  refine Same.trans ?_ (recEventAt_keeps _ _ _ _ _)
  exact Same.trans (same_hold _ _) (urgentAll_keeps _ _ _)

@[simp] theorem supplyRecovery_keeps (rail die : Nat) (s : State) : Same s (supplyRecovery rail die s) := by
  unfold supplyRecovery; simp

@[simp] theorem packageReset_keeps (cause : Nat) (s : State) (hd : s.dies.length = dieCount s) : Same s (packageReset cause s) := by
  unfold packageReset
  refine ⟨(dropUpdate_keeps s).1, ?_, (dropUpdate_keeps s).2.2⟩
  rw [hd]
  cases h : s.part <;> simp [h, dieCount, diesReset]

@[simp] theorem retainGo_keeps (id : Nat) (s : State) : Same s (retainGo id s) := by
  unfold retainGo; simp

@[simp] theorem retainEntry_keeps (s : State) : Same s (retainEntry s) := by
  unfold retainEntry; simp

@[simp] theorem drawWake_keeps (s : State) : Same s (drawWake s) := by
  unfold drawWake; simp

@[simp] theorem hotReset_keeps (s : State) : Same s (hotReset s) := by
  unfold hotReset; simp

@[simp] theorem linkReset_keeps (code : Nat) (s : State) : Same s (linkReset code s) := by
  unfold linkReset; simp

@[simp] theorem dieIdle_keeps (die : Nat) (s : State) : Same s (dieIdle die s) := by
  unfold dieIdle; simp

@[simp] theorem imprintPass_keeps (die : Nat) (starting overran : Bool) (s : State) : Same s (imprintPass die starting overran s) := by
  unfold imprintPass; simp

@[simp] theorem lkInvert_keeps (s : State) : Same s (lkInvert s) := by
  unfold lkInvert; simp

/-! ## Startup -/

@[simp] theorem bootLife_keeps (s : State) : Same s (bootLife s) := by
  unfold bootLife; simp

@[simp] theorem bootRecords_keeps (s : State) : Same s (bootRecords s) := by
  unfold bootRecords; (repeat' split) <;> simp

@[simp] theorem bootLining_keeps (s : State) : Same s (bootLining s) := by
  unfold bootLining; simp

@[simp] theorem bootOtp_keeps (s : State) : Same s (bootOtp s) := by
  unfold bootOtp; simp

@[simp] theorem beginStartup_keeps (s : State) : Same s (beginStartup s) := by
  unfold beginStartup; simp

@[simp] theorem resetNow_keeps (cause : Nat) (s : State) (hd : s.dies.length = dieCount s) : Same s (resetNow cause s) := by
  unfold resetNow
  exact Same.trans (packageReset_keeps _ _ hd) (ite_same same_rfl (beginStartup_keeps _))

@[simp] theorem seedShields_keeps (s : State) : Same s (seedShields s) := by
  unfold seedShields; simp

@[simp] theorem powerOn_keeps (s : State) (hd : s.dies.length = dieCount s) : Same s (powerOn s) := by
  unfold powerOn
  refine ite_same (Same.trans ?_ (seedShields_keeps _)) same_rfl
  exact packageReset_keeps _ _ hd

@[simp] theorem perstAssert_keeps (width : Nat) (s : State) (hd : s.dies.length = dieCount s) : Same s (perstAssert width s) := by
  unfold perstAssert
  refine ite_same same_rfl ?_
  exact packageReset_keeps _ _ hd

@[simp] theorem perstRelease_keeps (s : State) : Same s (perstRelease s) := by
  unfold perstRelease; simp

@[simp] theorem supplyReset_keeps (rail die : Nat) (s : State) (hd : s.dies.length = dieCount s) : Same s (supplyReset rail die s) := by
  unfold supplyReset
  refine ite_same same_rfl (ite_same (ite_same (Same.trans (recEventAt_keeps _ _ _ _ _) (fenceDie_keeps _ _ _)) same_rfl) ?_)
  dsimp only
  split
  · exact packageReset_keeps 2 _ hd
  · exact packageReset_keeps 2 _ hd

@[simp] theorem supplyBack_keeps (rail die : Nat) (s : State) : Same s (supplyBack rail die s) := by
  unfold supplyBack; simp

@[simp] theorem resetDue_keeps (s : State) (hd : s.dies.length = dieCount s) : Same s (resetDue s) := by
  unfold resetDue; split
  · exact ite_same (resetNow_keeps _ _ hd) same_rfl
  · exact same_rfl

@[simp] theorem hypervisorDead_keeps (s : State) (hd : s.dies.length = dieCount s) : Same s (hypervisorDead s) := by
  exact ite_same (resetNow_keeps _ _ hd) same_rfl

@[simp] theorem bootBank_keeps (c : Nat) (s : State) : Same s (bootBank c s) := by
  unfold bootBank; simp

@[simp] theorem gateEvents_keeps (die w : Nat) (table : List (List Nat)) (s : State) : Same s (gateEvents die w table s) := by
  unfold gateEvents; simp

@[simp] theorem measurement_keeps (s : State) : Same s (measurement s) := by
  unfold measurement; simp

@[simp] theorem bandBringup_keeps (trained : List Nat) (s : State) : Same s (bandBringup trained s) := by
  unfold bandBringup; simp

@[simp] theorem brimBoot_keeps (s : State) : Same s (brimBoot s) := by
  unfold brimBoot; simp

@[simp] theorem restoreImage_keeps (i : Image) (s : State) : Same s (restoreImage i s) := by
  unfold restoreImage; simp

@[simp] theorem freshPsn_keeps (s : State) : Same s (freshPsn s) := by
  unfold freshPsn; simp

@[simp] theorem restoreCarry_keeps (s : State) : Same s (restoreCarry s) := by
  unfold restoreCarry; (repeat' split) <;> simp

@[simp] theorem imageLost_keeps (s : State) : Same s (imageLost s) := by
  unfold imageLost; simp

@[simp] theorem commitBank_keeps (c : Nat) (s : State) : Same s (commitBank c s) := by
  unfold commitBank; simp

@[simp] theorem keystoreRestore_keeps (s : State) : Same s (keystoreRestore s) := by
  unfold keystoreRestore; dsimp only; (repeat' split) <;> simp_all

@[simp] theorem drawPr_keeps (s : State) : Same s (drawPr s) := by
  unfold drawPr; simp

@[simp] theorem drawDieRoot_keeps (die : Nat) (s : State) : Same s (drawDieRoot die s) := by
  unfold drawDieRoot; simp

@[simp] theorem drawSalt_keeps (t : Nat) (s : State) : Same s (drawSalt t s) := by
  unfold drawSalt; simp

@[simp] theorem drawSalts_keeps (s : State) : Same s (drawSalts s) := by
  unfold drawSalts; simp

@[simp] theorem deriveSlots_keeps (s : State) : Same s (deriveSlots s) := by
  unfold deriveSlots; simp

@[simp] theorem crownEntropy_keeps (s : State) : Same s (crownEntropy s) := by
  unfold crownEntropy; simp

@[simp] theorem dieReady_keeps (die : Nat) (s : State) : Same s (dieReady die s) := by
  unfold dieReady; simp

@[simp] theorem stepOverrun_keeps (step us : Nat) (s : State) : Same s (stepOverrun step us s) := by
  unfold stepOverrun; simp

@[simp] theorem applyResets_keeps (l : List Nat) (s : State) : Same s (applyResets l s) := by
  unfold applyResets; simp

@[simp] theorem wakeEnd_keeps (s : State) : Same s (wakeEnd s) := by
  unfold wakeEnd; simp

@[simp] theorem wakeDone_keeps (ok : Bool) (s : State) (hd : s.dies.length = dieCount s) : Same s (wakeDone ok s) := by
  exact ite_same same_rfl (ite_same (wakeEnd_keeps _) (resetNow_keeps _ _ hd))

end Sys2Proof.Laws
end

