-- ==== Sys2Proof/Laws/KeepsCommands.lean ====
section
/-! SUPPORT. The same frame for the epoch boundary, register accesses and the meanings of the descriptors. Each lemma says it for one operation. -/

namespace Sys2Proof.Laws
open Sys2Proof Sys2Proof.Machine

/-! ## Boundary -/

@[simp] theorem syncPair_keeps (b : Nat) (s : State) : Same s (syncPair b s) := by
  unfold syncPair; simp

@[simp] theorem swapAt_keeps (b : Nat) (s : State) : Same s (swapAt b s) := by
  unfold swapAt; simp

@[simp] theorem packageAt_keeps (b : Nat) (s : State) : Same s (packageAt b s) := by
  unfold packageAt; simp

@[simp] theorem batchesAt_keeps (b : Nat) (s : State) : Same s (batchesAt b s) := by
  unfold batchesAt; simp

@[simp] theorem ckptAtBoundary_keeps (s : State) : Same s (ckptAtBoundary s) := by
  unfold ckptAtBoundary; simp

@[simp] theorem boundaryWork_keeps (b : Nat) (hostOf : Nat → Bool) (s : State) : Same s (boundaryWork b hostOf s) := by
  unfold boundaryWork; simp

@[simp] theorem epochBoundary_keeps (t : Nat) (s : State) : Same s (epochBoundary t s) := by
  unfold epochBoundary; simp

/-! ## Registers -/

@[simp] theorem latchPairs_keeps (off len : Nat) (s : State) : Same s (latchPairs off len s) := by
  unfold latchPairs; simp

@[simp] theorem barRead_keeps (fn off len : Nat) (s : State) : Same s (barRead fn off len s) := by
  unfold barRead; simp

@[simp] theorem badWrite_keeps (off : Nat) (s : State) : Same s (badWrite off s) := by
  unfold badWrite; simp

@[simp] theorem setupWord_keeps (off v : Nat) (s : State) : Same s (setupWord off v s) := by
  unfold setupWord; simp

@[simp] theorem setupWrite_keeps (off len v : Nat) (s : State) : Same s (setupWrite off len v s) := by
  unfold setupWrite; simp

@[simp] theorem setupAccess_keeps (off len v : Nat) (s : State) : Same s (setupAccess off len v s) := by
  unfold setupAccess; simp

@[simp] theorem slotWord_keeps (q : QRef) (off v : Nat) (s : State) : Same s (slotWord q off v s) := by
  unfold slotWord; simp

@[simp] theorem slotWrite_keeps (q : QRef) (off len v : Nat) (s : State) : Same s (slotWrite q off len v s) := by
  unfold slotWrite; simp

@[simp] theorem cqWrite_keeps (fn c off v : Nat) (s : State) : Same s (cqWrite fn c off v s) := by
  unfold cqWrite; simp

@[simp] theorem msixWrite_keeps (fn off v : Nat) (s : State) : Same s (msixWrite fn off v s) := by
  unfold msixWrite; simp

@[simp] theorem fnWrite_keeps (fn off len v : Nat) (s : State) : Same s (fnWrite fn off len v s) := by
  unfold fnWrite; (repeat' split) <;> simp

@[simp] theorem barWrite_keeps (fn off len v : Nat) (s : State) : Same s (barWrite fn off len v s) := by
  unfold barWrite; simp

/-! ## Commands -/

theorem workSem_keeps (op : Nat) : SemKeeps (workSem op) := by
  unfold workSem
  split <;> refine ⟨fun id s => ?_, fun id s => ?_⟩ <;> simp [Same, createKeySem, queueSem, keyDestroySem, sealSem, sealDigestSem, verifySealSem, macSem, drawSem, randomSem, signSem, verifySem, ecdhSem, proofSem, stampSem, nopSem, keyDeriveSem, keyGenerateSem, keyImportSem, keyExportSem, keyRotateSem, keyDestroyFull, keyInfoSem, keyPublicSem, keyAgreeSem, keyComponentSem, tenantRetireSem, keyPackageInitSem, quorumOpenSem, quorumStatusSem, quorumCancelSem, roleSetSem, beaconSem, epcQuerySem, closeSetSem, closeReadSem, epcConfigureSem, epochSetupSem, authoritySem, keyMigrateSem, drawQuerySem, drawMapSem, reseedSem, fwQuerySem, fwActivateSem, cntConfigureSem, cntSnapshotSem, cntReadSem, lringCreateSem, lringDestroySem, ldgConfigSem, ldgReadSem, rootSubmitSem, rootProveSem, quiesceSem, tmpConfigSem, monitorTestSem, tmpLogReadSem, tmpEventReadSem, tmpUnlockSem, cntSampleConfigSem, cntSampleReadSem, curveLoadSem, curveUnloadSem, curveReadSem, pwrRetainSem, pwrResetSem, lcsTransitionSem, lcsTokenSetSem, lcsReturnUnlockSem, dbgChallengeSem, dbgGrantSem, dbgRevokeSem, createSem, destroySem, resetSem, shareSem, splitSem, querySem, tenantSem, ringCreateSem, ringDestroySem, cqCreateSem, cqDestroySem, sqCreateSem, sqDestroySem]
theorem serviceSem_keeps (op : Nat) : SemKeeps (serviceSem op) := by
  unfold serviceSem
  split <;> refine ⟨fun id s => ?_, fun id s => ?_⟩ <;> simp [Same, createKeySem, queueSem, keyDestroySem, sealSem, sealDigestSem, verifySealSem, macSem, drawSem, randomSem, signSem, verifySem, ecdhSem, proofSem, stampSem, nopSem, keyDeriveSem, keyGenerateSem, keyImportSem, keyExportSem, keyRotateSem, keyDestroyFull, keyInfoSem, keyPublicSem, keyAgreeSem, keyComponentSem, tenantRetireSem, keyPackageInitSem, quorumOpenSem, quorumStatusSem, quorumCancelSem, roleSetSem, beaconSem, epcQuerySem, closeSetSem, closeReadSem, epcConfigureSem, epochSetupSem, authoritySem, keyMigrateSem, drawQuerySem, drawMapSem, reseedSem, fwQuerySem, fwActivateSem, cntConfigureSem, cntSnapshotSem, cntReadSem, lringCreateSem, lringDestroySem, ldgConfigSem, ldgReadSem, rootSubmitSem, rootProveSem, quiesceSem, tmpConfigSem, monitorTestSem, tmpLogReadSem, tmpEventReadSem, tmpUnlockSem, cntSampleConfigSem, cntSampleReadSem, curveLoadSem, curveUnloadSem, curveReadSem, pwrRetainSem, pwrResetSem, lcsTransitionSem, lcsTokenSetSem, lcsReturnUnlockSem, dbgChallengeSem, dbgGrantSem, dbgRevokeSem, createSem, destroySem, resetSem, shareSem, splitSem, querySem, tenantSem, ringCreateSem, ringDestroySem, cqCreateSem, cqDestroySem, sqCreateSem, sqDestroySem]
theorem service2Sem_keeps (op : Nat) : SemKeeps (service2Sem op) := by
  unfold service2Sem
  split <;> refine ⟨fun id s => ?_, fun id s => ?_⟩ <;> simp [Same, createKeySem, queueSem, keyDestroySem, sealSem, sealDigestSem, verifySealSem, macSem, drawSem, randomSem, signSem, verifySem, ecdhSem, proofSem, stampSem, nopSem, keyDeriveSem, keyGenerateSem, keyImportSem, keyExportSem, keyRotateSem, keyDestroyFull, keyInfoSem, keyPublicSem, keyAgreeSem, keyComponentSem, tenantRetireSem, keyPackageInitSem, quorumOpenSem, quorumStatusSem, quorumCancelSem, roleSetSem, beaconSem, epcQuerySem, closeSetSem, closeReadSem, epcConfigureSem, epochSetupSem, authoritySem, keyMigrateSem, drawQuerySem, drawMapSem, reseedSem, fwQuerySem, fwActivateSem, cntConfigureSem, cntSnapshotSem, cntReadSem, lringCreateSem, lringDestroySem, ldgConfigSem, ldgReadSem, rootSubmitSem, rootProveSem, quiesceSem, tmpConfigSem, monitorTestSem, tmpLogReadSem, tmpEventReadSem, tmpUnlockSem, cntSampleConfigSem, cntSampleReadSem, curveLoadSem, curveUnloadSem, curveReadSem, pwrRetainSem, pwrResetSem, lcsTransitionSem, lcsTokenSetSem, lcsReturnUnlockSem, dbgChallengeSem, dbgGrantSem, dbgRevokeSem, createSem, destroySem, resetSem, shareSem, splitSem, querySem, tenantSem, ringCreateSem, ringDestroySem, cqCreateSem, cqDestroySem, sqCreateSem, sqDestroySem]
theorem adminSem_keeps (op : Nat) : SemKeeps (adminSem op) := by
  unfold adminSem
  split <;> refine ⟨fun id s => ?_, fun id s => ?_⟩ <;> simp [Same, createKeySem, queueSem, keyDestroySem, sealSem, sealDigestSem, verifySealSem, macSem, drawSem, randomSem, signSem, verifySem, ecdhSem, proofSem, stampSem, nopSem, keyDeriveSem, keyGenerateSem, keyImportSem, keyExportSem, keyRotateSem, keyDestroyFull, keyInfoSem, keyPublicSem, keyAgreeSem, keyComponentSem, tenantRetireSem, keyPackageInitSem, quorumOpenSem, quorumStatusSem, quorumCancelSem, roleSetSem, beaconSem, epcQuerySem, closeSetSem, closeReadSem, epcConfigureSem, epochSetupSem, authoritySem, keyMigrateSem, drawQuerySem, drawMapSem, reseedSem, fwQuerySem, fwActivateSem, cntConfigureSem, cntSnapshotSem, cntReadSem, lringCreateSem, lringDestroySem, ldgConfigSem, ldgReadSem, rootSubmitSem, rootProveSem, quiesceSem, tmpConfigSem, monitorTestSem, tmpLogReadSem, tmpEventReadSem, tmpUnlockSem, cntSampleConfigSem, cntSampleReadSem, curveLoadSem, curveUnloadSem, curveReadSem, pwrRetainSem, pwrResetSem, lcsTransitionSem, lcsTokenSetSem, lcsReturnUnlockSem, dbgChallengeSem, dbgGrantSem, dbgRevokeSem, createSem, destroySem, resetSem, shareSem, splitSem, querySem, tenantSem, ringCreateSem, ringDestroySem, cqCreateSem, cqDestroySem, sqCreateSem, sqDestroySem]
theorem semOf_keeps (op : Nat) : SemKeeps (semOf op) := by
  unfold semOf
  split
  · exact workSem_keeps op
  · split
    · exact serviceSem_keeps op
    · split
      · exact service2Sem_keeps op
      · exact adminSem_keeps op
theorem fullSem_keeps (op : Nat) : SemKeeps (fullSem op) := semOf_keeps op
@[simp] theorem admitOwn_keeps (id : Nat) (s : State) : Same s (admitOwn id s) := by
  exact admitJob_keeps _ _ _ (fullSem_keeps _)

@[simp] theorem enterRing_keeps (id die : Nat) (s : State) : Same s (enterRing id die s) := by
  unfold enterRing; simp

@[simp] theorem toWorld_keeps (id : Nat) (s : State) : Same s (toWorld id s) := by
  unfold toWorld; simp

@[simp] theorem placeWork_keeps (id : Nat) (s : State) : Same s (placeWork id s) := by
  unfold placeWork; dsimp only; (repeat' split) <;> simp_all

@[simp] theorem numberJob_keeps (id : Nat) (s : State) : Same s (numberJob id s) := by
  unfold numberJob; simp

@[simp] theorem takeJob_keeps (q : QRef) (d : Desc) (s : State) : Same s (takeJob q d s).2 := by
  unfold takeJob; simp

@[simp] theorem newRound_keeps (s : State) : Same s (newRound s) := by
  unfold newRound; simp

@[simp] theorem takeWindow_keeps (s : State) : Same s (takeWindow s) := by
  unfold takeWindow; simp

@[simp] theorem endRound_keeps (s : State) : Same s (endRound s) := by
  unfold endRound; simp

theorem nextWork_keeps (l : List (Nat × QRef × Desc)) (s : State) {r : QRef × Desc × State} (h : nextWork l s = some r) : Same s r.2.2 := by
  unfold nextWork at h; dsimp only at h; split at h
  · injection h with h; subst h; exact modQ_keeps _ _ _
  · obtain ⟨x, -, rfl⟩ := Option.map_eq_some_iff.mp h
    exact Same.trans (newRound_keeps s) (modQ_keeps _ _ _)
theorem turn_keeps (s : State) {r : QRef × Desc × State} (h : turn s = some r) : Same s r.2.2 := by
  unfold turn at h; dsimp only at h; split at h
  · cases h
  · refine Same.trans (Same.trans (takeWindow_keeps s) (endRound_keeps _)) ?_
    split at h
    · injection h with h; subst h; exact same_rfl
    · split at h
      · injection h with h; subst h; exact same_rfl
      · have k := nextWork_keeps _ _ h
        exact k
@[simp] theorem takeOne_keeps (s : State) : Same s (takeOne s) := by
  unfold takeOne; split
  · next h => exact Same.trans (turn_keeps _ h) (takeJob_keeps _ _ _)
  · exact Same.trans (takeWindow_keeps s) (endRound_keeps _)

@[simp] theorem offer_keeps (q : QRef) (d : Desc) (s : State) : Same s (offer q d s) := by
  unfold offer; simp

@[simp] theorem taking_keeps (q : QRef) (d : Desc) (s : State) : ∀ v, taking q d s = some v → Same s v := by
  intro v h
  unfold taking at h; split at h
  · next r hr =>
    split at h
    · injection h with h; subst h; exact Same.trans (offer_keeps q d s) (turn_keeps _ hr)
    · cases h
  · cases h

@[simp] theorem pollEntry_keeps (id : Nat) (s : State) : Same s (pollEntry id s) := by
  unfold pollEntry; simp

@[simp] theorem pollRing_keeps (die : Nat) (p : Bool) (s : State) : Same s (pollRing die p s) := by
  unfold pollRing; simp

@[simp] theorem diePoll_keeps (die : Nat) (s : State) : Same s (diePoll die s) := by
  unfold diePoll; simp

@[simp] theorem engineDone_keeps (id : Nat) (s : State) : Same s (engineDone id s) := by
  unfold engineDone
  exact ite_same same_rfl (engineEnd_keeps _ _ _ (semOf_keeps _))

@[simp] theorem laneDone_keeps (die lane : Nat) (verified : Bool) (s : State) : Same s (laneDone die lane verified s) := by
  unfold laneDone; split
  · exact same_rfl
  · exact ite_same (verifyBeforeFails_keeps _ _ _) (ite_same (signEnd_keeps _ _) ((semOf_keeps _).2 _ _))

@[simp] theorem settleLedger_keeps (s : State) : Same s (settleLedger s) := by
  unfold settleLedger; simp

@[simp] theorem pollTo_keeps (id a1 : Nat) (s : State) : Same s (pollTo id a1 s) := by
  induction a1 generalizing s with
  | zero => exact same_rfl
  | succ n ih => exact ite_same (Same.trans (diePoll_keeps _ _) (ih _)) same_rfl

@[simp] theorem feed_keeps (id : Nat) (x : Sub) (s : State) : Same s (feed id x s) := by
  unfold feed
  refine Same.trans ?_ (ite_same (Same.trans (tick_keeps _ _) (ite_same (sourceFail_keeps _ _ _ _) (sourceArrive_keeps _ _ _ _ (semOf_keeps _)))) same_rfl)
  exact ite_same (ite_same (sourceFail_keeps _ _ _ _) (fragArrive_keeps _ _ _ _)) same_rfl

@[simp] theorem endWork_keeps (id : Nat) (s : State) : Same s (endWork id s) := by
  unfold endWork; (repeat' split) <;> simp

@[simp] theorem sendResults_keeps (die : Nat) (s : State) : Same s (sendResults die s) := by
  unfold sendResults; simp

@[simp] theorem travel_keeps (id a1 : Nat) (s : State) : Same s (travel id a1 s) := by
  induction a1 generalizing s with
  | zero => exact same_rfl
  | succ n ih => unfold travel; dsimp only; (repeat' split) <;> simp [ih]

@[simp] theorem endSigns_keeps (id : Nat) (s : State) : Same s (endSigns id s) := by
  unfold endSigns; simp

@[simp] theorem workJob_keeps (id : Nat) (x : Sub) (s : State) : Same s (workJob id x s) := by
  unfold workJob; simp

@[simp] theorem afterWork_keeps (id : Nat) (s : State) : Same s (afterWork id s) := by
  unfold afterWork; simp

@[simp] theorem rowEnd_keeps (q : QRef) (cq id : Nat) (s : State) : Same s (rowEnd q cq id s) := by
  unfold rowEnd; simp

@[simp] theorem runDesc_keeps (d : Desc) (x : Sub) (s : State) : Same s (runDesc d x s) := by
  unfold runDesc; split
  · next h => exact Same.trans (taking_keeps _ _ _ _ h) (Same.trans (takeJob_keeps _ _ _) (Same.trans (workJob_keeps _ _ _) (rowEnd_keeps _ _ _ _)))
  · exact same_rfl

@[simp] theorem runOp_keeps (op : Nat) (x : Sub) (s : State) : Same s (runOp op x s) := by
  unfold runOp; simp

@[simp] theorem resumeWorld_keeps (w : Nat) (s : State) : Same s (resumeWorld w s) := by
  unfold resumeWorld; simp

@[simp] theorem serveOne_keeps (s : State) (x : Nat × Elig) : Same s (serveOne s x) := by
  unfold serveOne; split
  · exact ite_same ((semOf_keeps _).1 _ _) same_rfl
  · exact executeDraw_keeps _ _
  · exact same_rfl

@[simp] theorem serveEntropy_keeps (die : Nat) (s : State) : Same s (serveEntropy die s) := by
  unfold serveEntropy; simp

end Sys2Proof.Laws
end

