-- ==== Sys2Proof/Laws/State.lean ====
section
/-! SUPPORT. Small lemmas of the state's updates: what each named update leaves as it was, one lemma for each field, and what a sparse map, a die,
a function, a queue, a completion ring, a tenant or a job reads after it was changed. -/

namespace Sys2Proof.Machine

variable (s : State)

/-! ## Sparse maps -/

/-- A map reads at a key what was set there. -/
@[simp] theorem mget_mset_same {α : Type} (m : KMap α) (k : Nat) (v : α) : mget (mset m k v) k = some v := by
  induction m with
  | nil => simp [mset, mget]
  | cons p m ih =>
    obtain ⟨a, w⟩ := p
    simp only [mset]
    split
    · simp [mget]
    · split
      · simp [mget]
      · rename_i h1 h2
        simp [mget, Ne.symm h2, ih]

/-- Setting a key leaves every other key as it was. -/
theorem mget_mset_ne {α : Type} (m : KMap α) (k j : Nat) (v : α) (h : j ≠ k) : mget (mset m k v) j = mget m j := by
  induction m with
  | nil => simp [mset, mget, Ne.symm h]
  | cons p m ih =>
    obtain ⟨a, w⟩ := p
    simp only [mset]
    split
    · simp [mget, Ne.symm h]
    · split
      · rename_i h1 h2
        subst h2
        simp [mget, Ne.symm h]
      · simp only [mget, ih]

/-- Mapping the values maps what a key reads. -/
@[simp] theorem mget_mmap {α : Type} (f : Nat → α → α) (m : KMap α) (k : Nat) : mget (mmap f m) k = (mget m k).map (f k) := by
  induction m with
  | nil => simp [mmap, mget]
  | cons p m ih =>
    obtain ⟨a, w⟩ := p
    simp only [mmap, mget]
    split
    · rename_i h; subst h; simp
    · exact ih

/-- A removed key reads nothing. -/
@[simp] theorem mget_mdel_same {α : Type} (m : KMap α) (k : Nat) : mget (mdel m k) k = none := by
  induction m with
  | nil => simp [mdel, mget]
  | cons p m ih =>
    obtain ⟨a, w⟩ := p
    simp only [mdel]
    split
    · exact ih
    · rename_i h; simp [mget, h, ih]

/-- Removing a key leaves every other key as it was. -/
theorem mget_mdel_ne {α : Type} (m : KMap α) (k j : Nat) (h : j ≠ k) : mget (mdel m k) j = mget m j := by
  induction m with
  | nil => simp [mdel, mget]
  | cons p m ih =>
    obtain ⟨a, w⟩ := p
    simp only [mdel]
    split
    · rename_i h1; subst h1; simp [mget, Ne.symm h, ih]
    · simp only [mget, ih]

/-- Replacing an element keeps the length. -/
@[simp] theorem lset_length {α : Type} (l : List α) (n : Nat) (v : α) : (lset l n v).length = l.length := by
  induction l generalizing n with
  | nil => rfl
  | cons x l ih => cases n <;> simp [lset, ih]

/-- A replaced element is read back. -/
theorem lset_getD_same {α : Type} (l : List α) (n : Nat) (v d : α) (h : n < l.length) : (lset l n v).getD n d = v := by
  induction l generalizing n with
  | nil => simp at h
  | cons x l ih =>
    cases n with
    | zero => simp [lset]
    | succ n => simp only [lset, List.getD_cons_succ]; exact ih n (by simpa using h)

/-- Replacing an element leaves the others as they were. -/
theorem lset_getD_ne {α : Type} (l : List α) (n m : Nat) (v d : α) (h : m ≠ n) : (lset l n v).getD m d = l.getD m d := by
  induction l generalizing n m with
  | nil => simp [lset]
  | cons x l ih =>
    cases n with
    | zero => cases m with
      | zero => exact absurd rfl h
      | succ m => simp [lset]
    | succ n => cases m with
      | zero => simp [lset]
      | succ m => simp only [lset, List.getD_cons_succ]; exact ih n m (by omega)

/-! ## What an update leaves as it was -/

@[simp] theorem modFn_part (n : Nat) (f : FnState → FnState) : (modFn n f s).part = s.part := rfl
@[simp] theorem modFn_grade (n : Nat) (f : FnState → FnState) : (modFn n f s).grade = s.grade := rfl
@[simp] theorem modFn_rev (n : Nat) (f : FnState → FnState) : (modFn n f s).rev = s.rev := rfl
@[simp] theorem modFn_time (n : Nat) (f : FnState → FnState) : (modFn n f s).time = s.time := rfl
@[simp] theorem modFn_ecfg (n : Nat) (f : FnState → FnState) : (modFn n f s).ecfg = s.ecfg := rfl
@[simp] theorem modFn_epc (n : Nat) (f : FnState → FnState) : (modFn n f s).epc = s.epc := rfl
@[simp] theorem modFn_authorities (n : Nat) (f : FnState → FnState) : (modFn n f s).authorities = s.authorities := rfl
@[simp] theorem modFn_vfEnable (n : Nat) (f : FnState → FnState) : (modFn n f s).vfEnable = s.vfEnable := rfl
@[simp] theorem modFn_numVfs (n : Nat) (f : FnState → FnState) : (modFn n f s).numVfs = s.numVfs := rfl
@[simp] theorem modFn_page64 (n : Nat) (f : FnState → FnState) : (modFn n f s).page64 = s.page64 := rfl
@[simp] theorem modFn_tenants (n : Nat) (f : FnState → FnState) : (modFn n f s).tenants = s.tenants := rfl
@[simp] theorem modFn_jobs (n : Nat) (f : FnState → FnState) : (modFn n f s).jobs = s.jobs := rfl
@[simp] theorem modFn_nextJob (n : Nat) (f : FnState → FnState) : (modFn n f s).nextJob = s.nextJob := rfl
@[simp] theorem modFn_nextCreation (n : Nat) (f : FnState → FnState) : (modFn n f s).nextCreation = s.nextCreation := rfl
@[simp] theorem modFn_rrAdmin (n : Nat) (f : FnState → FnState) : (modFn n f s).rrAdmin = s.rrAdmin := rfl
@[simp] theorem modFn_rrService (n : Nat) (f : FnState → FnState) : (modFn n f s).rrService = s.rrService := rfl
@[simp] theorem modFn_rrWork (n : Nat) (f : FnState → FnState) : (modFn n f s).rrWork = s.rrWork := rfl
@[simp] theorem modFn_visit (n : Nat) (f : FnState → FnState) : (modFn n f s).visit = s.visit := rfl
@[simp] theorem modFn_takeUs (n : Nat) (f : FnState → FnState) : (modFn n f s).takeUs = s.takeUs := rfl
@[simp] theorem modFn_takeCount (n : Nat) (f : FnState → FnState) : (modFn n f s).takeCount = s.takeCount := rfl
@[simp] theorem modFn_takeSvc (n : Nat) (f : FnState → FnState) : (modFn n f s).takeSvc = s.takeSvc := rfl
@[simp] theorem modFn_dies (n : Nat) (f : FnState → FnState) : (modFn n f s).dies = s.dies := rfl
@[simp] theorem modFn_dieChanged (n : Nat) (f : FnState → FnState) : (modFn n f s).dieChanged = s.dieChanged := rfl
@[simp] theorem modFn_crownFault (n : Nat) (f : FnState → FnState) : (modFn n f s).crownFault = s.crownFault := rfl
@[simp] theorem modFn_fence (n : Nat) (f : FnState → FnState) : (modFn n f s).fence = s.fence := rfl
@[simp] theorem modFn_fnEvent (n : Nat) (f : FnState → FnState) : (modFn n f s).fnEvent = s.fnEvent := rfl
@[simp] theorem modFn_badOffset (n : Nat) (f : FnState → FnState) : (modFn n f s).badOffset = s.badOffset := rfl
@[simp] theorem modFn_badCount (n : Nat) (f : FnState → FnState) : (modFn n f s).badCount = s.badCount := rfl
@[simp] theorem modFn_latches (n : Nat) (f : FnState → FnState) : (modFn n f s).latches = s.latches := rfl
@[simp] theorem modFn_linkWidth (n : Nat) (f : FnState → FnState) : (modFn n f s).linkWidth = s.linkWidth := rfl
@[simp] theorem modFn_linkSpeed (n : Nat) (f : FnState → FnState) : (modFn n f s).linkSpeed = s.linkSpeed := rfl
@[simp] theorem modFn_linkFatal (n : Nat) (f : FnState → FnState) : (modFn n f s).linkFatal = s.linkFatal := rfl
@[simp] theorem modFn_evBuf (n : Nat) (f : FnState → FnState) : (modFn n f s).evBuf = s.evBuf := rfl
@[simp] theorem modFn_evFlash (n : Nat) (f : FnState → FnState) : (modFn n f s).evFlash = s.evFlash := rfl
@[simp] theorem modFn_evNext (n : Nat) (f : FnState → FnState) : (modFn n f s).evNext = s.evNext := rfl
@[simp] theorem modFn_evSuppressed (n : Nat) (f : FnState → FnState) : (modFn n f s).evSuppressed = s.evSuppressed := rfl
@[simp] theorem modFn_evBursts (n : Nat) (f : FnState → FnState) : (modFn n f s).evBursts = s.evBursts := rfl
@[simp] theorem modFn_pfFresh (n : Nat) (f : FnState → FnState) : (modFn n f s).pfFresh = s.pfFresh := rfl
@[simp] theorem modFn_psnNext (n : Nat) (f : FnState → FnState) : (modFn n f s).psnNext = s.psnNext := rfl
@[simp] theorem modFn_psnCeil (n : Nat) (f : FnState → FnState) : (modFn n f s).psnCeil = s.psnCeil := rfl
@[simp] theorem modFn_psnWriting (n : Nat) (f : FnState → FnState) : (modFn n f s).psnWriting = s.psnWriting := rfl
@[simp] theorem modFn_ledgers (n : Nat) (f : FnState → FnState) : (modFn n f s).ledgers = s.ledgers := rfl
@[simp] theorem modFn_pkg (n : Nat) (f : FnState → FnState) : (modFn n f s).pkg = s.pkg := rfl
@[simp] theorem modFn_pkgFinal (n : Nat) (f : FnState → FnState) : (modFn n f s).pkgFinal = s.pkgFinal := rfl
@[simp] theorem modFn_pages (n : Nat) (f : FnState → FnState) : (modFn n f s).pages = s.pages := rfl
@[simp] theorem modFn_pageNo (n : Nat) (f : FnState → FnState) : (modFn n f s).pageNo = s.pageNo := rfl
@[simp] theorem modFn_pd (n : Nat) (f : FnState → FnState) : (modFn n f s).pd = s.pd := rfl
@[simp] theorem modFn_epochIdx (n : Nat) (f : FnState → FnState) : (modFn n f s).epochIdx = s.epochIdx := rfl
@[simp] theorem modFn_rootStore (n : Nat) (f : FnState → FnState) : (modFn n f s).rootStore = s.rootStore := rfl
@[simp] theorem modFn_lrings (n : Nat) (f : FnState → FnState) : (modFn n f s).lrings = s.lrings := rfl
@[simp] theorem modFn_signQ (n : Nat) (f : FnState → FnState) : (modFn n f s).signQ = s.signQ := rfl
@[simp] theorem modFn_batchNo (n : Nat) (f : FnState → FnState) : (modFn n f s).batchNo = s.batchNo := rfl
@[simp] theorem modFn_elig (n : Nat) (f : FnState → FnState) : (modFn n f s).elig = s.elig := rfl
@[simp] theorem modFn_ingress (n : Nat) (f : FnState → FnState) : (modFn n f s).ingress = s.ingress := rfl
@[simp] theorem modFn_appended (n : Nat) (f : FnState → FnState) : (modFn n f s).appended = s.appended := rfl
@[simp] theorem modFn_jsBase (n : Nat) (f : FnState → FnState) : (modFn n f s).jsBase = s.jsBase := rfl
@[simp] theorem modFn_jsLog2 (n : Nat) (f : FnState → FnState) : (modFn n f s).jsLog2 = s.jsLog2 := rfl
@[simp] theorem modFn_jsActive (n : Nat) (f : FnState → FnState) : (modFn n f s).jsActive = s.jsActive := rfl
@[simp] theorem modFn_jsBad (n : Nat) (f : FnState → FnState) : (modFn n f s).jsBad = s.jsBad := rfl
@[simp] theorem modFn_storeFault (n : Nat) (f : FnState → FnState) : (modFn n f s).storeFault = s.storeFault := rfl
@[simp] theorem modFn_storeStall (n : Nat) (f : FnState → FnState) : (modFn n f s).storeStall = s.storeStall := rfl
@[simp] theorem modFn_quiesced (n : Nat) (f : FnState → FnState) : (modFn n f s).quiesced = s.quiesced := rfl
@[simp] theorem modFn_ckptOverdue (n : Nat) (f : FnState → FnState) : (modFn n f s).ckptOverdue = s.ckptOverdue := rfl
@[simp] theorem modFn_ckptAt (n : Nat) (f : FnState → FnState) : (modFn n f s).ckptAt = s.ckptAt := rfl
@[simp] theorem modFn_ckptReq (n : Nat) (f : FnState → FnState) : (modFn n f s).ckptReq = s.ckptReq := rfl
@[simp] theorem modFn_ckptDirty (n : Nat) (f : FnState → FnState) : (modFn n f s).ckptDirty = s.ckptDirty := rfl
@[simp] theorem modFn_lastCkptSec (n : Nat) (f : FnState → FnState) : (modFn n f s).lastCkptSec = s.lastCkptSec := rfl
@[simp] theorem modFn_draws (n : Nat) (f : FnState → FnState) : (modFn n f s).draws = s.draws := rfl
@[simp] theorem modFn_rngPeriod (n : Nat) (f : FnState → FnState) : (modFn n f s).rngPeriod = s.rngPeriod := rfl
@[simp] theorem modFn_rngT0 (n : Nat) (f : FnState → FnState) : (modFn n f s).rngT0 = s.rngT0 := rfl
@[simp] theorem modFn_vault (n : Nat) (f : FnState → FnState) : (modFn n f s).vault = s.vault := rfl
@[simp] theorem modFn_images (n : Nat) (f : FnState → FnState) : (modFn n f s).images = s.images := rfl
@[simp] theorem modFn_ports (n : Nat) (f : FnState → FnState) : (modFn n f s).ports = s.ports := rfl
@[simp] theorem modFn_lcs (n : Nat) (f : FnState → FnState) : (modFn n f s).lcs = s.lcs := rfl
@[simp] theorem modFn_otp (n : Nat) (f : FnState → FnState) : (modFn n f s).otp = s.otp := rfl
@[simp] theorem modFn_life (n : Nat) (f : FnState → FnState) : (modFn n f s).life = s.life := rfl
@[simp] theorem modFn_lining (n : Nat) (f : FnState → FnState) : (modFn n f s).lining = s.lining := rfl
@[simp] theorem modFn_locked (n : Nat) (f : FnState → FnState) : (modFn n f s).locked = s.locked := rfl
@[simp] theorem modFn_tamper (n : Nat) (f : FnState → FnState) : (modFn n f s).tamper = s.tamper := rfl
@[simp] theorem modFn_fw (n : Nat) (f : FnState → FnState) : (modFn n f s).fw = s.fw := rfl
@[simp] theorem modFn_hatter (n : Nat) (f : FnState → FnState) : (modFn n f s).hatter = s.hatter := rfl
@[simp] theorem modFn_snap (n : Nat) (f : FnState → FnState) : (modFn n f s).snap = s.snap := rfl
@[simp] theorem modFn_pwr (n : Nat) (f : FnState → FnState) : (modFn n f s).pwr = s.pwr := rfl
@[simp] theorem modFn_startStep (n : Nat) (f : FnState → FnState) : (modFn n f s).startStep = s.startStep := rfl
@[simp] theorem modFn_pwrState (n : Nat) (f : FnState → FnState) : (modFn n f s).pwrState = s.pwrState := rfl
@[simp] theorem modFn_hold (n : Nat) (f : FnState → FnState) : (modFn n f s).hold = s.hold := rfl
@[simp] theorem modFn_free (n : Nat) (f : FnState → FnState) : (modFn n f s).free = s.free := rfl
@[simp] theorem modFn_out (n : Nat) (f : FnState → FnState) : (modFn n f s).out = s.out := rfl
@[simp] theorem modFn_pending (n : Nat) (f : FnState → FnState) : (modFn n f s).pending = s.pending := rfl

@[simp] theorem modQ_part (q : QRef) (f : Queue → Queue) : (modQ q f s).part = s.part := rfl
@[simp] theorem modQ_grade (q : QRef) (f : Queue → Queue) : (modQ q f s).grade = s.grade := rfl
@[simp] theorem modQ_rev (q : QRef) (f : Queue → Queue) : (modQ q f s).rev = s.rev := rfl
@[simp] theorem modQ_time (q : QRef) (f : Queue → Queue) : (modQ q f s).time = s.time := rfl
@[simp] theorem modQ_ecfg (q : QRef) (f : Queue → Queue) : (modQ q f s).ecfg = s.ecfg := rfl
@[simp] theorem modQ_epc (q : QRef) (f : Queue → Queue) : (modQ q f s).epc = s.epc := rfl
@[simp] theorem modQ_authorities (q : QRef) (f : Queue → Queue) : (modQ q f s).authorities = s.authorities := rfl
@[simp] theorem modQ_vfEnable (q : QRef) (f : Queue → Queue) : (modQ q f s).vfEnable = s.vfEnable := rfl
@[simp] theorem modQ_numVfs (q : QRef) (f : Queue → Queue) : (modQ q f s).numVfs = s.numVfs := rfl
@[simp] theorem modQ_page64 (q : QRef) (f : Queue → Queue) : (modQ q f s).page64 = s.page64 := rfl
@[simp] theorem modQ_tenants (q : QRef) (f : Queue → Queue) : (modQ q f s).tenants = s.tenants := rfl
@[simp] theorem modQ_jobs (q : QRef) (f : Queue → Queue) : (modQ q f s).jobs = s.jobs := rfl
@[simp] theorem modQ_nextJob (q : QRef) (f : Queue → Queue) : (modQ q f s).nextJob = s.nextJob := rfl
@[simp] theorem modQ_nextCreation (q : QRef) (f : Queue → Queue) : (modQ q f s).nextCreation = s.nextCreation := rfl
@[simp] theorem modQ_rrAdmin (q : QRef) (f : Queue → Queue) : (modQ q f s).rrAdmin = s.rrAdmin := rfl
@[simp] theorem modQ_rrService (q : QRef) (f : Queue → Queue) : (modQ q f s).rrService = s.rrService := rfl
@[simp] theorem modQ_rrWork (q : QRef) (f : Queue → Queue) : (modQ q f s).rrWork = s.rrWork := rfl
@[simp] theorem modQ_visit (q : QRef) (f : Queue → Queue) : (modQ q f s).visit = s.visit := rfl
@[simp] theorem modQ_takeUs (q : QRef) (f : Queue → Queue) : (modQ q f s).takeUs = s.takeUs := rfl
@[simp] theorem modQ_takeCount (q : QRef) (f : Queue → Queue) : (modQ q f s).takeCount = s.takeCount := rfl
@[simp] theorem modQ_takeSvc (q : QRef) (f : Queue → Queue) : (modQ q f s).takeSvc = s.takeSvc := rfl
@[simp] theorem modQ_dies (q : QRef) (f : Queue → Queue) : (modQ q f s).dies = s.dies := rfl
@[simp] theorem modQ_dieChanged (q : QRef) (f : Queue → Queue) : (modQ q f s).dieChanged = s.dieChanged := rfl
@[simp] theorem modQ_crownFault (q : QRef) (f : Queue → Queue) : (modQ q f s).crownFault = s.crownFault := rfl
@[simp] theorem modQ_fence (q : QRef) (f : Queue → Queue) : (modQ q f s).fence = s.fence := rfl
@[simp] theorem modQ_fnEvent (q : QRef) (f : Queue → Queue) : (modQ q f s).fnEvent = s.fnEvent := rfl
@[simp] theorem modQ_badOffset (q : QRef) (f : Queue → Queue) : (modQ q f s).badOffset = s.badOffset := rfl
@[simp] theorem modQ_badCount (q : QRef) (f : Queue → Queue) : (modQ q f s).badCount = s.badCount := rfl
@[simp] theorem modQ_latches (q : QRef) (f : Queue → Queue) : (modQ q f s).latches = s.latches := rfl
@[simp] theorem modQ_linkWidth (q : QRef) (f : Queue → Queue) : (modQ q f s).linkWidth = s.linkWidth := rfl
@[simp] theorem modQ_linkSpeed (q : QRef) (f : Queue → Queue) : (modQ q f s).linkSpeed = s.linkSpeed := rfl
@[simp] theorem modQ_linkFatal (q : QRef) (f : Queue → Queue) : (modQ q f s).linkFatal = s.linkFatal := rfl
@[simp] theorem modQ_evBuf (q : QRef) (f : Queue → Queue) : (modQ q f s).evBuf = s.evBuf := rfl
@[simp] theorem modQ_evFlash (q : QRef) (f : Queue → Queue) : (modQ q f s).evFlash = s.evFlash := rfl
@[simp] theorem modQ_evNext (q : QRef) (f : Queue → Queue) : (modQ q f s).evNext = s.evNext := rfl
@[simp] theorem modQ_evSuppressed (q : QRef) (f : Queue → Queue) : (modQ q f s).evSuppressed = s.evSuppressed := rfl
@[simp] theorem modQ_evBursts (q : QRef) (f : Queue → Queue) : (modQ q f s).evBursts = s.evBursts := rfl
@[simp] theorem modQ_pfFresh (q : QRef) (f : Queue → Queue) : (modQ q f s).pfFresh = s.pfFresh := rfl
@[simp] theorem modQ_psnNext (q : QRef) (f : Queue → Queue) : (modQ q f s).psnNext = s.psnNext := rfl
@[simp] theorem modQ_psnCeil (q : QRef) (f : Queue → Queue) : (modQ q f s).psnCeil = s.psnCeil := rfl
@[simp] theorem modQ_psnWriting (q : QRef) (f : Queue → Queue) : (modQ q f s).psnWriting = s.psnWriting := rfl
@[simp] theorem modQ_ledgers (q : QRef) (f : Queue → Queue) : (modQ q f s).ledgers = s.ledgers := rfl
@[simp] theorem modQ_pkg (q : QRef) (f : Queue → Queue) : (modQ q f s).pkg = s.pkg := rfl
@[simp] theorem modQ_pkgFinal (q : QRef) (f : Queue → Queue) : (modQ q f s).pkgFinal = s.pkgFinal := rfl
@[simp] theorem modQ_pages (q : QRef) (f : Queue → Queue) : (modQ q f s).pages = s.pages := rfl
@[simp] theorem modQ_pageNo (q : QRef) (f : Queue → Queue) : (modQ q f s).pageNo = s.pageNo := rfl
@[simp] theorem modQ_pd (q : QRef) (f : Queue → Queue) : (modQ q f s).pd = s.pd := rfl
@[simp] theorem modQ_epochIdx (q : QRef) (f : Queue → Queue) : (modQ q f s).epochIdx = s.epochIdx := rfl
@[simp] theorem modQ_rootStore (q : QRef) (f : Queue → Queue) : (modQ q f s).rootStore = s.rootStore := rfl
@[simp] theorem modQ_lrings (q : QRef) (f : Queue → Queue) : (modQ q f s).lrings = s.lrings := rfl
@[simp] theorem modQ_signQ (q : QRef) (f : Queue → Queue) : (modQ q f s).signQ = s.signQ := rfl
@[simp] theorem modQ_batchNo (q : QRef) (f : Queue → Queue) : (modQ q f s).batchNo = s.batchNo := rfl
@[simp] theorem modQ_elig (q : QRef) (f : Queue → Queue) : (modQ q f s).elig = s.elig := rfl
@[simp] theorem modQ_ingress (q : QRef) (f : Queue → Queue) : (modQ q f s).ingress = s.ingress := rfl
@[simp] theorem modQ_appended (q : QRef) (f : Queue → Queue) : (modQ q f s).appended = s.appended := rfl
@[simp] theorem modQ_jsBase (q : QRef) (f : Queue → Queue) : (modQ q f s).jsBase = s.jsBase := rfl
@[simp] theorem modQ_jsLog2 (q : QRef) (f : Queue → Queue) : (modQ q f s).jsLog2 = s.jsLog2 := rfl
@[simp] theorem modQ_jsActive (q : QRef) (f : Queue → Queue) : (modQ q f s).jsActive = s.jsActive := rfl
@[simp] theorem modQ_jsBad (q : QRef) (f : Queue → Queue) : (modQ q f s).jsBad = s.jsBad := rfl
@[simp] theorem modQ_storeFault (q : QRef) (f : Queue → Queue) : (modQ q f s).storeFault = s.storeFault := rfl
@[simp] theorem modQ_storeStall (q : QRef) (f : Queue → Queue) : (modQ q f s).storeStall = s.storeStall := rfl
@[simp] theorem modQ_quiesced (q : QRef) (f : Queue → Queue) : (modQ q f s).quiesced = s.quiesced := rfl
@[simp] theorem modQ_ckptOverdue (q : QRef) (f : Queue → Queue) : (modQ q f s).ckptOverdue = s.ckptOverdue := rfl
@[simp] theorem modQ_ckptAt (q : QRef) (f : Queue → Queue) : (modQ q f s).ckptAt = s.ckptAt := rfl
@[simp] theorem modQ_ckptReq (q : QRef) (f : Queue → Queue) : (modQ q f s).ckptReq = s.ckptReq := rfl
@[simp] theorem modQ_ckptDirty (q : QRef) (f : Queue → Queue) : (modQ q f s).ckptDirty = s.ckptDirty := rfl
@[simp] theorem modQ_lastCkptSec (q : QRef) (f : Queue → Queue) : (modQ q f s).lastCkptSec = s.lastCkptSec := rfl
@[simp] theorem modQ_draws (q : QRef) (f : Queue → Queue) : (modQ q f s).draws = s.draws := rfl
@[simp] theorem modQ_rngPeriod (q : QRef) (f : Queue → Queue) : (modQ q f s).rngPeriod = s.rngPeriod := rfl
@[simp] theorem modQ_rngT0 (q : QRef) (f : Queue → Queue) : (modQ q f s).rngT0 = s.rngT0 := rfl
@[simp] theorem modQ_vault (q : QRef) (f : Queue → Queue) : (modQ q f s).vault = s.vault := rfl
@[simp] theorem modQ_images (q : QRef) (f : Queue → Queue) : (modQ q f s).images = s.images := rfl
@[simp] theorem modQ_ports (q : QRef) (f : Queue → Queue) : (modQ q f s).ports = s.ports := rfl
@[simp] theorem modQ_lcs (q : QRef) (f : Queue → Queue) : (modQ q f s).lcs = s.lcs := rfl
@[simp] theorem modQ_otp (q : QRef) (f : Queue → Queue) : (modQ q f s).otp = s.otp := rfl
@[simp] theorem modQ_life (q : QRef) (f : Queue → Queue) : (modQ q f s).life = s.life := rfl
@[simp] theorem modQ_lining (q : QRef) (f : Queue → Queue) : (modQ q f s).lining = s.lining := rfl
@[simp] theorem modQ_locked (q : QRef) (f : Queue → Queue) : (modQ q f s).locked = s.locked := rfl
@[simp] theorem modQ_tamper (q : QRef) (f : Queue → Queue) : (modQ q f s).tamper = s.tamper := rfl
@[simp] theorem modQ_fw (q : QRef) (f : Queue → Queue) : (modQ q f s).fw = s.fw := rfl
@[simp] theorem modQ_hatter (q : QRef) (f : Queue → Queue) : (modQ q f s).hatter = s.hatter := rfl
@[simp] theorem modQ_snap (q : QRef) (f : Queue → Queue) : (modQ q f s).snap = s.snap := rfl
@[simp] theorem modQ_pwr (q : QRef) (f : Queue → Queue) : (modQ q f s).pwr = s.pwr := rfl
@[simp] theorem modQ_startStep (q : QRef) (f : Queue → Queue) : (modQ q f s).startStep = s.startStep := rfl
@[simp] theorem modQ_pwrState (q : QRef) (f : Queue → Queue) : (modQ q f s).pwrState = s.pwrState := rfl
@[simp] theorem modQ_hold (q : QRef) (f : Queue → Queue) : (modQ q f s).hold = s.hold := rfl
@[simp] theorem modQ_free (q : QRef) (f : Queue → Queue) : (modQ q f s).free = s.free := rfl
@[simp] theorem modQ_out (q : QRef) (f : Queue → Queue) : (modQ q f s).out = s.out := rfl
@[simp] theorem modQ_pending (q : QRef) (f : Queue → Queue) : (modQ q f s).pending = s.pending := rfl

@[simp] theorem modCq_part (n c : Nat) (f : Cq → Cq) : (modCq n c f s).part = s.part := rfl
@[simp] theorem modCq_grade (n c : Nat) (f : Cq → Cq) : (modCq n c f s).grade = s.grade := rfl
@[simp] theorem modCq_rev (n c : Nat) (f : Cq → Cq) : (modCq n c f s).rev = s.rev := rfl
@[simp] theorem modCq_time (n c : Nat) (f : Cq → Cq) : (modCq n c f s).time = s.time := rfl
@[simp] theorem modCq_ecfg (n c : Nat) (f : Cq → Cq) : (modCq n c f s).ecfg = s.ecfg := rfl
@[simp] theorem modCq_epc (n c : Nat) (f : Cq → Cq) : (modCq n c f s).epc = s.epc := rfl
@[simp] theorem modCq_authorities (n c : Nat) (f : Cq → Cq) : (modCq n c f s).authorities = s.authorities := rfl
@[simp] theorem modCq_vfEnable (n c : Nat) (f : Cq → Cq) : (modCq n c f s).vfEnable = s.vfEnable := rfl
@[simp] theorem modCq_numVfs (n c : Nat) (f : Cq → Cq) : (modCq n c f s).numVfs = s.numVfs := rfl
@[simp] theorem modCq_page64 (n c : Nat) (f : Cq → Cq) : (modCq n c f s).page64 = s.page64 := rfl
@[simp] theorem modCq_tenants (n c : Nat) (f : Cq → Cq) : (modCq n c f s).tenants = s.tenants := rfl
@[simp] theorem modCq_jobs (n c : Nat) (f : Cq → Cq) : (modCq n c f s).jobs = s.jobs := rfl
@[simp] theorem modCq_nextJob (n c : Nat) (f : Cq → Cq) : (modCq n c f s).nextJob = s.nextJob := rfl
@[simp] theorem modCq_nextCreation (n c : Nat) (f : Cq → Cq) : (modCq n c f s).nextCreation = s.nextCreation := rfl
@[simp] theorem modCq_rrAdmin (n c : Nat) (f : Cq → Cq) : (modCq n c f s).rrAdmin = s.rrAdmin := rfl
@[simp] theorem modCq_rrService (n c : Nat) (f : Cq → Cq) : (modCq n c f s).rrService = s.rrService := rfl
@[simp] theorem modCq_rrWork (n c : Nat) (f : Cq → Cq) : (modCq n c f s).rrWork = s.rrWork := rfl
@[simp] theorem modCq_visit (n c : Nat) (f : Cq → Cq) : (modCq n c f s).visit = s.visit := rfl
@[simp] theorem modCq_takeUs (n c : Nat) (f : Cq → Cq) : (modCq n c f s).takeUs = s.takeUs := rfl
@[simp] theorem modCq_takeCount (n c : Nat) (f : Cq → Cq) : (modCq n c f s).takeCount = s.takeCount := rfl
@[simp] theorem modCq_takeSvc (n c : Nat) (f : Cq → Cq) : (modCq n c f s).takeSvc = s.takeSvc := rfl
@[simp] theorem modCq_dies (n c : Nat) (f : Cq → Cq) : (modCq n c f s).dies = s.dies := rfl
@[simp] theorem modCq_dieChanged (n c : Nat) (f : Cq → Cq) : (modCq n c f s).dieChanged = s.dieChanged := rfl
@[simp] theorem modCq_crownFault (n c : Nat) (f : Cq → Cq) : (modCq n c f s).crownFault = s.crownFault := rfl
@[simp] theorem modCq_fence (n c : Nat) (f : Cq → Cq) : (modCq n c f s).fence = s.fence := rfl
@[simp] theorem modCq_fnEvent (n c : Nat) (f : Cq → Cq) : (modCq n c f s).fnEvent = s.fnEvent := rfl
@[simp] theorem modCq_badOffset (n c : Nat) (f : Cq → Cq) : (modCq n c f s).badOffset = s.badOffset := rfl
@[simp] theorem modCq_badCount (n c : Nat) (f : Cq → Cq) : (modCq n c f s).badCount = s.badCount := rfl
@[simp] theorem modCq_latches (n c : Nat) (f : Cq → Cq) : (modCq n c f s).latches = s.latches := rfl
@[simp] theorem modCq_linkWidth (n c : Nat) (f : Cq → Cq) : (modCq n c f s).linkWidth = s.linkWidth := rfl
@[simp] theorem modCq_linkSpeed (n c : Nat) (f : Cq → Cq) : (modCq n c f s).linkSpeed = s.linkSpeed := rfl
@[simp] theorem modCq_linkFatal (n c : Nat) (f : Cq → Cq) : (modCq n c f s).linkFatal = s.linkFatal := rfl
@[simp] theorem modCq_evBuf (n c : Nat) (f : Cq → Cq) : (modCq n c f s).evBuf = s.evBuf := rfl
@[simp] theorem modCq_evFlash (n c : Nat) (f : Cq → Cq) : (modCq n c f s).evFlash = s.evFlash := rfl
@[simp] theorem modCq_evNext (n c : Nat) (f : Cq → Cq) : (modCq n c f s).evNext = s.evNext := rfl
@[simp] theorem modCq_evSuppressed (n c : Nat) (f : Cq → Cq) : (modCq n c f s).evSuppressed = s.evSuppressed := rfl
@[simp] theorem modCq_evBursts (n c : Nat) (f : Cq → Cq) : (modCq n c f s).evBursts = s.evBursts := rfl
@[simp] theorem modCq_pfFresh (n c : Nat) (f : Cq → Cq) : (modCq n c f s).pfFresh = s.pfFresh := rfl
@[simp] theorem modCq_psnNext (n c : Nat) (f : Cq → Cq) : (modCq n c f s).psnNext = s.psnNext := rfl
@[simp] theorem modCq_psnCeil (n c : Nat) (f : Cq → Cq) : (modCq n c f s).psnCeil = s.psnCeil := rfl
@[simp] theorem modCq_psnWriting (n c : Nat) (f : Cq → Cq) : (modCq n c f s).psnWriting = s.psnWriting := rfl
@[simp] theorem modCq_ledgers (n c : Nat) (f : Cq → Cq) : (modCq n c f s).ledgers = s.ledgers := rfl
@[simp] theorem modCq_pkg (n c : Nat) (f : Cq → Cq) : (modCq n c f s).pkg = s.pkg := rfl
@[simp] theorem modCq_pkgFinal (n c : Nat) (f : Cq → Cq) : (modCq n c f s).pkgFinal = s.pkgFinal := rfl
@[simp] theorem modCq_pages (n c : Nat) (f : Cq → Cq) : (modCq n c f s).pages = s.pages := rfl
@[simp] theorem modCq_pageNo (n c : Nat) (f : Cq → Cq) : (modCq n c f s).pageNo = s.pageNo := rfl
@[simp] theorem modCq_pd (n c : Nat) (f : Cq → Cq) : (modCq n c f s).pd = s.pd := rfl
@[simp] theorem modCq_epochIdx (n c : Nat) (f : Cq → Cq) : (modCq n c f s).epochIdx = s.epochIdx := rfl
@[simp] theorem modCq_rootStore (n c : Nat) (f : Cq → Cq) : (modCq n c f s).rootStore = s.rootStore := rfl
@[simp] theorem modCq_lrings (n c : Nat) (f : Cq → Cq) : (modCq n c f s).lrings = s.lrings := rfl
@[simp] theorem modCq_signQ (n c : Nat) (f : Cq → Cq) : (modCq n c f s).signQ = s.signQ := rfl
@[simp] theorem modCq_batchNo (n c : Nat) (f : Cq → Cq) : (modCq n c f s).batchNo = s.batchNo := rfl
@[simp] theorem modCq_elig (n c : Nat) (f : Cq → Cq) : (modCq n c f s).elig = s.elig := rfl
@[simp] theorem modCq_ingress (n c : Nat) (f : Cq → Cq) : (modCq n c f s).ingress = s.ingress := rfl
@[simp] theorem modCq_appended (n c : Nat) (f : Cq → Cq) : (modCq n c f s).appended = s.appended := rfl
@[simp] theorem modCq_jsBase (n c : Nat) (f : Cq → Cq) : (modCq n c f s).jsBase = s.jsBase := rfl
@[simp] theorem modCq_jsLog2 (n c : Nat) (f : Cq → Cq) : (modCq n c f s).jsLog2 = s.jsLog2 := rfl
@[simp] theorem modCq_jsActive (n c : Nat) (f : Cq → Cq) : (modCq n c f s).jsActive = s.jsActive := rfl
@[simp] theorem modCq_jsBad (n c : Nat) (f : Cq → Cq) : (modCq n c f s).jsBad = s.jsBad := rfl
@[simp] theorem modCq_storeFault (n c : Nat) (f : Cq → Cq) : (modCq n c f s).storeFault = s.storeFault := rfl
@[simp] theorem modCq_storeStall (n c : Nat) (f : Cq → Cq) : (modCq n c f s).storeStall = s.storeStall := rfl
@[simp] theorem modCq_quiesced (n c : Nat) (f : Cq → Cq) : (modCq n c f s).quiesced = s.quiesced := rfl
@[simp] theorem modCq_ckptOverdue (n c : Nat) (f : Cq → Cq) : (modCq n c f s).ckptOverdue = s.ckptOverdue := rfl
@[simp] theorem modCq_ckptAt (n c : Nat) (f : Cq → Cq) : (modCq n c f s).ckptAt = s.ckptAt := rfl
@[simp] theorem modCq_ckptReq (n c : Nat) (f : Cq → Cq) : (modCq n c f s).ckptReq = s.ckptReq := rfl
@[simp] theorem modCq_ckptDirty (n c : Nat) (f : Cq → Cq) : (modCq n c f s).ckptDirty = s.ckptDirty := rfl
@[simp] theorem modCq_lastCkptSec (n c : Nat) (f : Cq → Cq) : (modCq n c f s).lastCkptSec = s.lastCkptSec := rfl
@[simp] theorem modCq_draws (n c : Nat) (f : Cq → Cq) : (modCq n c f s).draws = s.draws := rfl
@[simp] theorem modCq_rngPeriod (n c : Nat) (f : Cq → Cq) : (modCq n c f s).rngPeriod = s.rngPeriod := rfl
@[simp] theorem modCq_rngT0 (n c : Nat) (f : Cq → Cq) : (modCq n c f s).rngT0 = s.rngT0 := rfl
@[simp] theorem modCq_vault (n c : Nat) (f : Cq → Cq) : (modCq n c f s).vault = s.vault := rfl
@[simp] theorem modCq_images (n c : Nat) (f : Cq → Cq) : (modCq n c f s).images = s.images := rfl
@[simp] theorem modCq_ports (n c : Nat) (f : Cq → Cq) : (modCq n c f s).ports = s.ports := rfl
@[simp] theorem modCq_lcs (n c : Nat) (f : Cq → Cq) : (modCq n c f s).lcs = s.lcs := rfl
@[simp] theorem modCq_otp (n c : Nat) (f : Cq → Cq) : (modCq n c f s).otp = s.otp := rfl
@[simp] theorem modCq_life (n c : Nat) (f : Cq → Cq) : (modCq n c f s).life = s.life := rfl
@[simp] theorem modCq_lining (n c : Nat) (f : Cq → Cq) : (modCq n c f s).lining = s.lining := rfl
@[simp] theorem modCq_locked (n c : Nat) (f : Cq → Cq) : (modCq n c f s).locked = s.locked := rfl
@[simp] theorem modCq_tamper (n c : Nat) (f : Cq → Cq) : (modCq n c f s).tamper = s.tamper := rfl
@[simp] theorem modCq_fw (n c : Nat) (f : Cq → Cq) : (modCq n c f s).fw = s.fw := rfl
@[simp] theorem modCq_hatter (n c : Nat) (f : Cq → Cq) : (modCq n c f s).hatter = s.hatter := rfl
@[simp] theorem modCq_snap (n c : Nat) (f : Cq → Cq) : (modCq n c f s).snap = s.snap := rfl
@[simp] theorem modCq_pwr (n c : Nat) (f : Cq → Cq) : (modCq n c f s).pwr = s.pwr := rfl
@[simp] theorem modCq_startStep (n c : Nat) (f : Cq → Cq) : (modCq n c f s).startStep = s.startStep := rfl
@[simp] theorem modCq_pwrState (n c : Nat) (f : Cq → Cq) : (modCq n c f s).pwrState = s.pwrState := rfl
@[simp] theorem modCq_hold (n c : Nat) (f : Cq → Cq) : (modCq n c f s).hold = s.hold := rfl
@[simp] theorem modCq_free (n c : Nat) (f : Cq → Cq) : (modCq n c f s).free = s.free := rfl
@[simp] theorem modCq_out (n c : Nat) (f : Cq → Cq) : (modCq n c f s).out = s.out := rfl
@[simp] theorem modCq_pending (n c : Nat) (f : Cq → Cq) : (modCq n c f s).pending = s.pending := rfl

@[simp] theorem modDie_part (d : Nat) (f : Die → Die) : (modDie d f s).part = s.part := rfl
@[simp] theorem modDie_grade (d : Nat) (f : Die → Die) : (modDie d f s).grade = s.grade := rfl
@[simp] theorem modDie_rev (d : Nat) (f : Die → Die) : (modDie d f s).rev = s.rev := rfl
@[simp] theorem modDie_time (d : Nat) (f : Die → Die) : (modDie d f s).time = s.time := rfl
@[simp] theorem modDie_ecfg (d : Nat) (f : Die → Die) : (modDie d f s).ecfg = s.ecfg := rfl
@[simp] theorem modDie_epc (d : Nat) (f : Die → Die) : (modDie d f s).epc = s.epc := rfl
@[simp] theorem modDie_authorities (d : Nat) (f : Die → Die) : (modDie d f s).authorities = s.authorities := rfl
@[simp] theorem modDie_fns (d : Nat) (f : Die → Die) : (modDie d f s).fns = s.fns := rfl
@[simp] theorem modDie_vfEnable (d : Nat) (f : Die → Die) : (modDie d f s).vfEnable = s.vfEnable := rfl
@[simp] theorem modDie_numVfs (d : Nat) (f : Die → Die) : (modDie d f s).numVfs = s.numVfs := rfl
@[simp] theorem modDie_page64 (d : Nat) (f : Die → Die) : (modDie d f s).page64 = s.page64 := rfl
@[simp] theorem modDie_tenants (d : Nat) (f : Die → Die) : (modDie d f s).tenants = s.tenants := rfl
@[simp] theorem modDie_jobs (d : Nat) (f : Die → Die) : (modDie d f s).jobs = s.jobs := rfl
@[simp] theorem modDie_nextJob (d : Nat) (f : Die → Die) : (modDie d f s).nextJob = s.nextJob := rfl
@[simp] theorem modDie_nextCreation (d : Nat) (f : Die → Die) : (modDie d f s).nextCreation = s.nextCreation := rfl
@[simp] theorem modDie_rrAdmin (d : Nat) (f : Die → Die) : (modDie d f s).rrAdmin = s.rrAdmin := rfl
@[simp] theorem modDie_rrService (d : Nat) (f : Die → Die) : (modDie d f s).rrService = s.rrService := rfl
@[simp] theorem modDie_rrWork (d : Nat) (f : Die → Die) : (modDie d f s).rrWork = s.rrWork := rfl
@[simp] theorem modDie_visit (d : Nat) (f : Die → Die) : (modDie d f s).visit = s.visit := rfl
@[simp] theorem modDie_takeUs (d : Nat) (f : Die → Die) : (modDie d f s).takeUs = s.takeUs := rfl
@[simp] theorem modDie_takeCount (d : Nat) (f : Die → Die) : (modDie d f s).takeCount = s.takeCount := rfl
@[simp] theorem modDie_takeSvc (d : Nat) (f : Die → Die) : (modDie d f s).takeSvc = s.takeSvc := rfl
@[simp] theorem modDie_dieChanged (d : Nat) (f : Die → Die) : (modDie d f s).dieChanged = s.dieChanged := rfl
@[simp] theorem modDie_crownFault (d : Nat) (f : Die → Die) : (modDie d f s).crownFault = s.crownFault := rfl
@[simp] theorem modDie_fence (d : Nat) (f : Die → Die) : (modDie d f s).fence = s.fence := rfl
@[simp] theorem modDie_fnEvent (d : Nat) (f : Die → Die) : (modDie d f s).fnEvent = s.fnEvent := rfl
@[simp] theorem modDie_badOffset (d : Nat) (f : Die → Die) : (modDie d f s).badOffset = s.badOffset := rfl
@[simp] theorem modDie_badCount (d : Nat) (f : Die → Die) : (modDie d f s).badCount = s.badCount := rfl
@[simp] theorem modDie_latches (d : Nat) (f : Die → Die) : (modDie d f s).latches = s.latches := rfl
@[simp] theorem modDie_linkWidth (d : Nat) (f : Die → Die) : (modDie d f s).linkWidth = s.linkWidth := rfl
@[simp] theorem modDie_linkSpeed (d : Nat) (f : Die → Die) : (modDie d f s).linkSpeed = s.linkSpeed := rfl
@[simp] theorem modDie_linkFatal (d : Nat) (f : Die → Die) : (modDie d f s).linkFatal = s.linkFatal := rfl
@[simp] theorem modDie_evBuf (d : Nat) (f : Die → Die) : (modDie d f s).evBuf = s.evBuf := rfl
@[simp] theorem modDie_evFlash (d : Nat) (f : Die → Die) : (modDie d f s).evFlash = s.evFlash := rfl
@[simp] theorem modDie_evNext (d : Nat) (f : Die → Die) : (modDie d f s).evNext = s.evNext := rfl
@[simp] theorem modDie_evSuppressed (d : Nat) (f : Die → Die) : (modDie d f s).evSuppressed = s.evSuppressed := rfl
@[simp] theorem modDie_evBursts (d : Nat) (f : Die → Die) : (modDie d f s).evBursts = s.evBursts := rfl
@[simp] theorem modDie_pfFresh (d : Nat) (f : Die → Die) : (modDie d f s).pfFresh = s.pfFresh := rfl
@[simp] theorem modDie_psnNext (d : Nat) (f : Die → Die) : (modDie d f s).psnNext = s.psnNext := rfl
@[simp] theorem modDie_psnCeil (d : Nat) (f : Die → Die) : (modDie d f s).psnCeil = s.psnCeil := rfl
@[simp] theorem modDie_psnWriting (d : Nat) (f : Die → Die) : (modDie d f s).psnWriting = s.psnWriting := rfl
@[simp] theorem modDie_ledgers (d : Nat) (f : Die → Die) : (modDie d f s).ledgers = s.ledgers := rfl
@[simp] theorem modDie_pkg (d : Nat) (f : Die → Die) : (modDie d f s).pkg = s.pkg := rfl
@[simp] theorem modDie_pkgFinal (d : Nat) (f : Die → Die) : (modDie d f s).pkgFinal = s.pkgFinal := rfl
@[simp] theorem modDie_pages (d : Nat) (f : Die → Die) : (modDie d f s).pages = s.pages := rfl
@[simp] theorem modDie_pageNo (d : Nat) (f : Die → Die) : (modDie d f s).pageNo = s.pageNo := rfl
@[simp] theorem modDie_pd (d : Nat) (f : Die → Die) : (modDie d f s).pd = s.pd := rfl
@[simp] theorem modDie_epochIdx (d : Nat) (f : Die → Die) : (modDie d f s).epochIdx = s.epochIdx := rfl
@[simp] theorem modDie_rootStore (d : Nat) (f : Die → Die) : (modDie d f s).rootStore = s.rootStore := rfl
@[simp] theorem modDie_lrings (d : Nat) (f : Die → Die) : (modDie d f s).lrings = s.lrings := rfl
@[simp] theorem modDie_signQ (d : Nat) (f : Die → Die) : (modDie d f s).signQ = s.signQ := rfl
@[simp] theorem modDie_batchNo (d : Nat) (f : Die → Die) : (modDie d f s).batchNo = s.batchNo := rfl
@[simp] theorem modDie_elig (d : Nat) (f : Die → Die) : (modDie d f s).elig = s.elig := rfl
@[simp] theorem modDie_ingress (d : Nat) (f : Die → Die) : (modDie d f s).ingress = s.ingress := rfl
@[simp] theorem modDie_appended (d : Nat) (f : Die → Die) : (modDie d f s).appended = s.appended := rfl
@[simp] theorem modDie_jsBase (d : Nat) (f : Die → Die) : (modDie d f s).jsBase = s.jsBase := rfl
@[simp] theorem modDie_jsLog2 (d : Nat) (f : Die → Die) : (modDie d f s).jsLog2 = s.jsLog2 := rfl
@[simp] theorem modDie_jsActive (d : Nat) (f : Die → Die) : (modDie d f s).jsActive = s.jsActive := rfl
@[simp] theorem modDie_jsBad (d : Nat) (f : Die → Die) : (modDie d f s).jsBad = s.jsBad := rfl
@[simp] theorem modDie_storeFault (d : Nat) (f : Die → Die) : (modDie d f s).storeFault = s.storeFault := rfl
@[simp] theorem modDie_storeStall (d : Nat) (f : Die → Die) : (modDie d f s).storeStall = s.storeStall := rfl
@[simp] theorem modDie_quiesced (d : Nat) (f : Die → Die) : (modDie d f s).quiesced = s.quiesced := rfl
@[simp] theorem modDie_ckptOverdue (d : Nat) (f : Die → Die) : (modDie d f s).ckptOverdue = s.ckptOverdue := rfl
@[simp] theorem modDie_ckptAt (d : Nat) (f : Die → Die) : (modDie d f s).ckptAt = s.ckptAt := rfl
@[simp] theorem modDie_ckptReq (d : Nat) (f : Die → Die) : (modDie d f s).ckptReq = s.ckptReq := rfl
@[simp] theorem modDie_ckptDirty (d : Nat) (f : Die → Die) : (modDie d f s).ckptDirty = s.ckptDirty := rfl
@[simp] theorem modDie_lastCkptSec (d : Nat) (f : Die → Die) : (modDie d f s).lastCkptSec = s.lastCkptSec := rfl
@[simp] theorem modDie_draws (d : Nat) (f : Die → Die) : (modDie d f s).draws = s.draws := rfl
@[simp] theorem modDie_rngPeriod (d : Nat) (f : Die → Die) : (modDie d f s).rngPeriod = s.rngPeriod := rfl
@[simp] theorem modDie_rngT0 (d : Nat) (f : Die → Die) : (modDie d f s).rngT0 = s.rngT0 := rfl
@[simp] theorem modDie_vault (d : Nat) (f : Die → Die) : (modDie d f s).vault = s.vault := rfl
@[simp] theorem modDie_images (d : Nat) (f : Die → Die) : (modDie d f s).images = s.images := rfl
@[simp] theorem modDie_ports (d : Nat) (f : Die → Die) : (modDie d f s).ports = s.ports := rfl
@[simp] theorem modDie_lcs (d : Nat) (f : Die → Die) : (modDie d f s).lcs = s.lcs := rfl
@[simp] theorem modDie_otp (d : Nat) (f : Die → Die) : (modDie d f s).otp = s.otp := rfl
@[simp] theorem modDie_life (d : Nat) (f : Die → Die) : (modDie d f s).life = s.life := rfl
@[simp] theorem modDie_lining (d : Nat) (f : Die → Die) : (modDie d f s).lining = s.lining := rfl
@[simp] theorem modDie_locked (d : Nat) (f : Die → Die) : (modDie d f s).locked = s.locked := rfl
@[simp] theorem modDie_tamper (d : Nat) (f : Die → Die) : (modDie d f s).tamper = s.tamper := rfl
@[simp] theorem modDie_fw (d : Nat) (f : Die → Die) : (modDie d f s).fw = s.fw := rfl
@[simp] theorem modDie_hatter (d : Nat) (f : Die → Die) : (modDie d f s).hatter = s.hatter := rfl
@[simp] theorem modDie_snap (d : Nat) (f : Die → Die) : (modDie d f s).snap = s.snap := rfl
@[simp] theorem modDie_pwr (d : Nat) (f : Die → Die) : (modDie d f s).pwr = s.pwr := rfl
@[simp] theorem modDie_startStep (d : Nat) (f : Die → Die) : (modDie d f s).startStep = s.startStep := rfl
@[simp] theorem modDie_pwrState (d : Nat) (f : Die → Die) : (modDie d f s).pwrState = s.pwrState := rfl
@[simp] theorem modDie_hold (d : Nat) (f : Die → Die) : (modDie d f s).hold = s.hold := rfl
@[simp] theorem modDie_free (d : Nat) (f : Die → Die) : (modDie d f s).free = s.free := rfl
@[simp] theorem modDie_out (d : Nat) (f : Die → Die) : (modDie d f s).out = s.out := rfl
@[simp] theorem modDie_pending (d : Nat) (f : Die → Die) : (modDie d f s).pending = s.pending := rfl

@[simp] theorem modTenant_part (t : Nat) (f : Tenant → Tenant) : (modTenant t f s).part = s.part := rfl
@[simp] theorem modTenant_grade (t : Nat) (f : Tenant → Tenant) : (modTenant t f s).grade = s.grade := rfl
@[simp] theorem modTenant_rev (t : Nat) (f : Tenant → Tenant) : (modTenant t f s).rev = s.rev := rfl
@[simp] theorem modTenant_time (t : Nat) (f : Tenant → Tenant) : (modTenant t f s).time = s.time := rfl
@[simp] theorem modTenant_ecfg (t : Nat) (f : Tenant → Tenant) : (modTenant t f s).ecfg = s.ecfg := rfl
@[simp] theorem modTenant_epc (t : Nat) (f : Tenant → Tenant) : (modTenant t f s).epc = s.epc := rfl
@[simp] theorem modTenant_authorities (t : Nat) (f : Tenant → Tenant) : (modTenant t f s).authorities = s.authorities := rfl
@[simp] theorem modTenant_fns (t : Nat) (f : Tenant → Tenant) : (modTenant t f s).fns = s.fns := rfl
@[simp] theorem modTenant_vfEnable (t : Nat) (f : Tenant → Tenant) : (modTenant t f s).vfEnable = s.vfEnable := rfl
@[simp] theorem modTenant_numVfs (t : Nat) (f : Tenant → Tenant) : (modTenant t f s).numVfs = s.numVfs := rfl
@[simp] theorem modTenant_page64 (t : Nat) (f : Tenant → Tenant) : (modTenant t f s).page64 = s.page64 := rfl
@[simp] theorem modTenant_jobs (t : Nat) (f : Tenant → Tenant) : (modTenant t f s).jobs = s.jobs := rfl
@[simp] theorem modTenant_nextJob (t : Nat) (f : Tenant → Tenant) : (modTenant t f s).nextJob = s.nextJob := rfl
@[simp] theorem modTenant_nextCreation (t : Nat) (f : Tenant → Tenant) : (modTenant t f s).nextCreation = s.nextCreation := rfl
@[simp] theorem modTenant_rrAdmin (t : Nat) (f : Tenant → Tenant) : (modTenant t f s).rrAdmin = s.rrAdmin := rfl
@[simp] theorem modTenant_rrService (t : Nat) (f : Tenant → Tenant) : (modTenant t f s).rrService = s.rrService := rfl
@[simp] theorem modTenant_rrWork (t : Nat) (f : Tenant → Tenant) : (modTenant t f s).rrWork = s.rrWork := rfl
@[simp] theorem modTenant_visit (t : Nat) (f : Tenant → Tenant) : (modTenant t f s).visit = s.visit := rfl
@[simp] theorem modTenant_takeUs (t : Nat) (f : Tenant → Tenant) : (modTenant t f s).takeUs = s.takeUs := rfl
@[simp] theorem modTenant_takeCount (t : Nat) (f : Tenant → Tenant) : (modTenant t f s).takeCount = s.takeCount := rfl
@[simp] theorem modTenant_takeSvc (t : Nat) (f : Tenant → Tenant) : (modTenant t f s).takeSvc = s.takeSvc := rfl
@[simp] theorem modTenant_dies (t : Nat) (f : Tenant → Tenant) : (modTenant t f s).dies = s.dies := rfl
@[simp] theorem modTenant_dieChanged (t : Nat) (f : Tenant → Tenant) : (modTenant t f s).dieChanged = s.dieChanged := rfl
@[simp] theorem modTenant_crownFault (t : Nat) (f : Tenant → Tenant) : (modTenant t f s).crownFault = s.crownFault := rfl
@[simp] theorem modTenant_fence (t : Nat) (f : Tenant → Tenant) : (modTenant t f s).fence = s.fence := rfl
@[simp] theorem modTenant_fnEvent (t : Nat) (f : Tenant → Tenant) : (modTenant t f s).fnEvent = s.fnEvent := rfl
@[simp] theorem modTenant_badOffset (t : Nat) (f : Tenant → Tenant) : (modTenant t f s).badOffset = s.badOffset := rfl
@[simp] theorem modTenant_badCount (t : Nat) (f : Tenant → Tenant) : (modTenant t f s).badCount = s.badCount := rfl
@[simp] theorem modTenant_latches (t : Nat) (f : Tenant → Tenant) : (modTenant t f s).latches = s.latches := rfl
@[simp] theorem modTenant_linkWidth (t : Nat) (f : Tenant → Tenant) : (modTenant t f s).linkWidth = s.linkWidth := rfl
@[simp] theorem modTenant_linkSpeed (t : Nat) (f : Tenant → Tenant) : (modTenant t f s).linkSpeed = s.linkSpeed := rfl
@[simp] theorem modTenant_linkFatal (t : Nat) (f : Tenant → Tenant) : (modTenant t f s).linkFatal = s.linkFatal := rfl
@[simp] theorem modTenant_evBuf (t : Nat) (f : Tenant → Tenant) : (modTenant t f s).evBuf = s.evBuf := rfl
@[simp] theorem modTenant_evFlash (t : Nat) (f : Tenant → Tenant) : (modTenant t f s).evFlash = s.evFlash := rfl
@[simp] theorem modTenant_evNext (t : Nat) (f : Tenant → Tenant) : (modTenant t f s).evNext = s.evNext := rfl
@[simp] theorem modTenant_evSuppressed (t : Nat) (f : Tenant → Tenant) : (modTenant t f s).evSuppressed = s.evSuppressed := rfl
@[simp] theorem modTenant_evBursts (t : Nat) (f : Tenant → Tenant) : (modTenant t f s).evBursts = s.evBursts := rfl
@[simp] theorem modTenant_pfFresh (t : Nat) (f : Tenant → Tenant) : (modTenant t f s).pfFresh = s.pfFresh := rfl
@[simp] theorem modTenant_psnNext (t : Nat) (f : Tenant → Tenant) : (modTenant t f s).psnNext = s.psnNext := rfl
@[simp] theorem modTenant_psnCeil (t : Nat) (f : Tenant → Tenant) : (modTenant t f s).psnCeil = s.psnCeil := rfl
@[simp] theorem modTenant_psnWriting (t : Nat) (f : Tenant → Tenant) : (modTenant t f s).psnWriting = s.psnWriting := rfl
@[simp] theorem modTenant_ledgers (t : Nat) (f : Tenant → Tenant) : (modTenant t f s).ledgers = s.ledgers := rfl
@[simp] theorem modTenant_pkg (t : Nat) (f : Tenant → Tenant) : (modTenant t f s).pkg = s.pkg := rfl
@[simp] theorem modTenant_pkgFinal (t : Nat) (f : Tenant → Tenant) : (modTenant t f s).pkgFinal = s.pkgFinal := rfl
@[simp] theorem modTenant_pages (t : Nat) (f : Tenant → Tenant) : (modTenant t f s).pages = s.pages := rfl
@[simp] theorem modTenant_pageNo (t : Nat) (f : Tenant → Tenant) : (modTenant t f s).pageNo = s.pageNo := rfl
@[simp] theorem modTenant_pd (t : Nat) (f : Tenant → Tenant) : (modTenant t f s).pd = s.pd := rfl
@[simp] theorem modTenant_epochIdx (t : Nat) (f : Tenant → Tenant) : (modTenant t f s).epochIdx = s.epochIdx := rfl
@[simp] theorem modTenant_rootStore (t : Nat) (f : Tenant → Tenant) : (modTenant t f s).rootStore = s.rootStore := rfl
@[simp] theorem modTenant_lrings (t : Nat) (f : Tenant → Tenant) : (modTenant t f s).lrings = s.lrings := rfl
@[simp] theorem modTenant_signQ (t : Nat) (f : Tenant → Tenant) : (modTenant t f s).signQ = s.signQ := rfl
@[simp] theorem modTenant_batchNo (t : Nat) (f : Tenant → Tenant) : (modTenant t f s).batchNo = s.batchNo := rfl
@[simp] theorem modTenant_elig (t : Nat) (f : Tenant → Tenant) : (modTenant t f s).elig = s.elig := rfl
@[simp] theorem modTenant_ingress (t : Nat) (f : Tenant → Tenant) : (modTenant t f s).ingress = s.ingress := rfl
@[simp] theorem modTenant_appended (t : Nat) (f : Tenant → Tenant) : (modTenant t f s).appended = s.appended := rfl
@[simp] theorem modTenant_jsBase (t : Nat) (f : Tenant → Tenant) : (modTenant t f s).jsBase = s.jsBase := rfl
@[simp] theorem modTenant_jsLog2 (t : Nat) (f : Tenant → Tenant) : (modTenant t f s).jsLog2 = s.jsLog2 := rfl
@[simp] theorem modTenant_jsActive (t : Nat) (f : Tenant → Tenant) : (modTenant t f s).jsActive = s.jsActive := rfl
@[simp] theorem modTenant_jsBad (t : Nat) (f : Tenant → Tenant) : (modTenant t f s).jsBad = s.jsBad := rfl
@[simp] theorem modTenant_storeFault (t : Nat) (f : Tenant → Tenant) : (modTenant t f s).storeFault = s.storeFault := rfl
@[simp] theorem modTenant_storeStall (t : Nat) (f : Tenant → Tenant) : (modTenant t f s).storeStall = s.storeStall := rfl
@[simp] theorem modTenant_quiesced (t : Nat) (f : Tenant → Tenant) : (modTenant t f s).quiesced = s.quiesced := rfl
@[simp] theorem modTenant_ckptOverdue (t : Nat) (f : Tenant → Tenant) : (modTenant t f s).ckptOverdue = s.ckptOverdue := rfl
@[simp] theorem modTenant_ckptAt (t : Nat) (f : Tenant → Tenant) : (modTenant t f s).ckptAt = s.ckptAt := rfl
@[simp] theorem modTenant_ckptReq (t : Nat) (f : Tenant → Tenant) : (modTenant t f s).ckptReq = s.ckptReq := rfl
@[simp] theorem modTenant_ckptDirty (t : Nat) (f : Tenant → Tenant) : (modTenant t f s).ckptDirty = s.ckptDirty := rfl
@[simp] theorem modTenant_lastCkptSec (t : Nat) (f : Tenant → Tenant) : (modTenant t f s).lastCkptSec = s.lastCkptSec := rfl
@[simp] theorem modTenant_draws (t : Nat) (f : Tenant → Tenant) : (modTenant t f s).draws = s.draws := rfl
@[simp] theorem modTenant_rngPeriod (t : Nat) (f : Tenant → Tenant) : (modTenant t f s).rngPeriod = s.rngPeriod := rfl
@[simp] theorem modTenant_rngT0 (t : Nat) (f : Tenant → Tenant) : (modTenant t f s).rngT0 = s.rngT0 := rfl
@[simp] theorem modTenant_vault (t : Nat) (f : Tenant → Tenant) : (modTenant t f s).vault = s.vault := rfl
@[simp] theorem modTenant_images (t : Nat) (f : Tenant → Tenant) : (modTenant t f s).images = s.images := rfl
@[simp] theorem modTenant_ports (t : Nat) (f : Tenant → Tenant) : (modTenant t f s).ports = s.ports := rfl
@[simp] theorem modTenant_lcs (t : Nat) (f : Tenant → Tenant) : (modTenant t f s).lcs = s.lcs := rfl
@[simp] theorem modTenant_otp (t : Nat) (f : Tenant → Tenant) : (modTenant t f s).otp = s.otp := rfl
@[simp] theorem modTenant_life (t : Nat) (f : Tenant → Tenant) : (modTenant t f s).life = s.life := rfl
@[simp] theorem modTenant_lining (t : Nat) (f : Tenant → Tenant) : (modTenant t f s).lining = s.lining := rfl
@[simp] theorem modTenant_locked (t : Nat) (f : Tenant → Tenant) : (modTenant t f s).locked = s.locked := rfl
@[simp] theorem modTenant_tamper (t : Nat) (f : Tenant → Tenant) : (modTenant t f s).tamper = s.tamper := rfl
@[simp] theorem modTenant_fw (t : Nat) (f : Tenant → Tenant) : (modTenant t f s).fw = s.fw := rfl
@[simp] theorem modTenant_hatter (t : Nat) (f : Tenant → Tenant) : (modTenant t f s).hatter = s.hatter := rfl
@[simp] theorem modTenant_snap (t : Nat) (f : Tenant → Tenant) : (modTenant t f s).snap = s.snap := rfl
@[simp] theorem modTenant_pwr (t : Nat) (f : Tenant → Tenant) : (modTenant t f s).pwr = s.pwr := rfl
@[simp] theorem modTenant_startStep (t : Nat) (f : Tenant → Tenant) : (modTenant t f s).startStep = s.startStep := rfl
@[simp] theorem modTenant_pwrState (t : Nat) (f : Tenant → Tenant) : (modTenant t f s).pwrState = s.pwrState := rfl
@[simp] theorem modTenant_hold (t : Nat) (f : Tenant → Tenant) : (modTenant t f s).hold = s.hold := rfl
@[simp] theorem modTenant_free (t : Nat) (f : Tenant → Tenant) : (modTenant t f s).free = s.free := rfl
@[simp] theorem modTenant_out (t : Nat) (f : Tenant → Tenant) : (modTenant t f s).out = s.out := rfl
@[simp] theorem modTenant_pending (t : Nat) (f : Tenant → Tenant) : (modTenant t f s).pending = s.pending := rfl

@[simp] theorem modTime_part (f : TimeState → TimeState) : (modTime f s).part = s.part := rfl
@[simp] theorem modTime_grade (f : TimeState → TimeState) : (modTime f s).grade = s.grade := rfl
@[simp] theorem modTime_rev (f : TimeState → TimeState) : (modTime f s).rev = s.rev := rfl
@[simp] theorem modTime_ecfg (f : TimeState → TimeState) : (modTime f s).ecfg = s.ecfg := rfl
@[simp] theorem modTime_epc (f : TimeState → TimeState) : (modTime f s).epc = s.epc := rfl
@[simp] theorem modTime_authorities (f : TimeState → TimeState) : (modTime f s).authorities = s.authorities := rfl
@[simp] theorem modTime_fns (f : TimeState → TimeState) : (modTime f s).fns = s.fns := rfl
@[simp] theorem modTime_vfEnable (f : TimeState → TimeState) : (modTime f s).vfEnable = s.vfEnable := rfl
@[simp] theorem modTime_numVfs (f : TimeState → TimeState) : (modTime f s).numVfs = s.numVfs := rfl
@[simp] theorem modTime_page64 (f : TimeState → TimeState) : (modTime f s).page64 = s.page64 := rfl
@[simp] theorem modTime_tenants (f : TimeState → TimeState) : (modTime f s).tenants = s.tenants := rfl
@[simp] theorem modTime_jobs (f : TimeState → TimeState) : (modTime f s).jobs = s.jobs := rfl
@[simp] theorem modTime_nextJob (f : TimeState → TimeState) : (modTime f s).nextJob = s.nextJob := rfl
@[simp] theorem modTime_nextCreation (f : TimeState → TimeState) : (modTime f s).nextCreation = s.nextCreation := rfl
@[simp] theorem modTime_rrAdmin (f : TimeState → TimeState) : (modTime f s).rrAdmin = s.rrAdmin := rfl
@[simp] theorem modTime_rrService (f : TimeState → TimeState) : (modTime f s).rrService = s.rrService := rfl
@[simp] theorem modTime_rrWork (f : TimeState → TimeState) : (modTime f s).rrWork = s.rrWork := rfl
@[simp] theorem modTime_visit (f : TimeState → TimeState) : (modTime f s).visit = s.visit := rfl
@[simp] theorem modTime_takeUs (f : TimeState → TimeState) : (modTime f s).takeUs = s.takeUs := rfl
@[simp] theorem modTime_takeCount (f : TimeState → TimeState) : (modTime f s).takeCount = s.takeCount := rfl
@[simp] theorem modTime_takeSvc (f : TimeState → TimeState) : (modTime f s).takeSvc = s.takeSvc := rfl
@[simp] theorem modTime_dies (f : TimeState → TimeState) : (modTime f s).dies = s.dies := rfl
@[simp] theorem modTime_dieChanged (f : TimeState → TimeState) : (modTime f s).dieChanged = s.dieChanged := rfl
@[simp] theorem modTime_crownFault (f : TimeState → TimeState) : (modTime f s).crownFault = s.crownFault := rfl
@[simp] theorem modTime_fence (f : TimeState → TimeState) : (modTime f s).fence = s.fence := rfl
@[simp] theorem modTime_fnEvent (f : TimeState → TimeState) : (modTime f s).fnEvent = s.fnEvent := rfl
@[simp] theorem modTime_badOffset (f : TimeState → TimeState) : (modTime f s).badOffset = s.badOffset := rfl
@[simp] theorem modTime_badCount (f : TimeState → TimeState) : (modTime f s).badCount = s.badCount := rfl
@[simp] theorem modTime_latches (f : TimeState → TimeState) : (modTime f s).latches = s.latches := rfl
@[simp] theorem modTime_linkWidth (f : TimeState → TimeState) : (modTime f s).linkWidth = s.linkWidth := rfl
@[simp] theorem modTime_linkSpeed (f : TimeState → TimeState) : (modTime f s).linkSpeed = s.linkSpeed := rfl
@[simp] theorem modTime_linkFatal (f : TimeState → TimeState) : (modTime f s).linkFatal = s.linkFatal := rfl
@[simp] theorem modTime_evBuf (f : TimeState → TimeState) : (modTime f s).evBuf = s.evBuf := rfl
@[simp] theorem modTime_evFlash (f : TimeState → TimeState) : (modTime f s).evFlash = s.evFlash := rfl
@[simp] theorem modTime_evNext (f : TimeState → TimeState) : (modTime f s).evNext = s.evNext := rfl
@[simp] theorem modTime_evSuppressed (f : TimeState → TimeState) : (modTime f s).evSuppressed = s.evSuppressed := rfl
@[simp] theorem modTime_evBursts (f : TimeState → TimeState) : (modTime f s).evBursts = s.evBursts := rfl
@[simp] theorem modTime_pfFresh (f : TimeState → TimeState) : (modTime f s).pfFresh = s.pfFresh := rfl
@[simp] theorem modTime_psnNext (f : TimeState → TimeState) : (modTime f s).psnNext = s.psnNext := rfl
@[simp] theorem modTime_psnCeil (f : TimeState → TimeState) : (modTime f s).psnCeil = s.psnCeil := rfl
@[simp] theorem modTime_psnWriting (f : TimeState → TimeState) : (modTime f s).psnWriting = s.psnWriting := rfl
@[simp] theorem modTime_ledgers (f : TimeState → TimeState) : (modTime f s).ledgers = s.ledgers := rfl
@[simp] theorem modTime_pkg (f : TimeState → TimeState) : (modTime f s).pkg = s.pkg := rfl
@[simp] theorem modTime_pkgFinal (f : TimeState → TimeState) : (modTime f s).pkgFinal = s.pkgFinal := rfl
@[simp] theorem modTime_pages (f : TimeState → TimeState) : (modTime f s).pages = s.pages := rfl
@[simp] theorem modTime_pageNo (f : TimeState → TimeState) : (modTime f s).pageNo = s.pageNo := rfl
@[simp] theorem modTime_pd (f : TimeState → TimeState) : (modTime f s).pd = s.pd := rfl
@[simp] theorem modTime_epochIdx (f : TimeState → TimeState) : (modTime f s).epochIdx = s.epochIdx := rfl
@[simp] theorem modTime_rootStore (f : TimeState → TimeState) : (modTime f s).rootStore = s.rootStore := rfl
@[simp] theorem modTime_lrings (f : TimeState → TimeState) : (modTime f s).lrings = s.lrings := rfl
@[simp] theorem modTime_signQ (f : TimeState → TimeState) : (modTime f s).signQ = s.signQ := rfl
@[simp] theorem modTime_batchNo (f : TimeState → TimeState) : (modTime f s).batchNo = s.batchNo := rfl
@[simp] theorem modTime_elig (f : TimeState → TimeState) : (modTime f s).elig = s.elig := rfl
@[simp] theorem modTime_ingress (f : TimeState → TimeState) : (modTime f s).ingress = s.ingress := rfl
@[simp] theorem modTime_appended (f : TimeState → TimeState) : (modTime f s).appended = s.appended := rfl
@[simp] theorem modTime_jsBase (f : TimeState → TimeState) : (modTime f s).jsBase = s.jsBase := rfl
@[simp] theorem modTime_jsLog2 (f : TimeState → TimeState) : (modTime f s).jsLog2 = s.jsLog2 := rfl
@[simp] theorem modTime_jsActive (f : TimeState → TimeState) : (modTime f s).jsActive = s.jsActive := rfl
@[simp] theorem modTime_jsBad (f : TimeState → TimeState) : (modTime f s).jsBad = s.jsBad := rfl
@[simp] theorem modTime_storeFault (f : TimeState → TimeState) : (modTime f s).storeFault = s.storeFault := rfl
@[simp] theorem modTime_storeStall (f : TimeState → TimeState) : (modTime f s).storeStall = s.storeStall := rfl
@[simp] theorem modTime_quiesced (f : TimeState → TimeState) : (modTime f s).quiesced = s.quiesced := rfl
@[simp] theorem modTime_ckptOverdue (f : TimeState → TimeState) : (modTime f s).ckptOverdue = s.ckptOverdue := rfl
@[simp] theorem modTime_ckptAt (f : TimeState → TimeState) : (modTime f s).ckptAt = s.ckptAt := rfl
@[simp] theorem modTime_ckptReq (f : TimeState → TimeState) : (modTime f s).ckptReq = s.ckptReq := rfl
@[simp] theorem modTime_ckptDirty (f : TimeState → TimeState) : (modTime f s).ckptDirty = s.ckptDirty := rfl
@[simp] theorem modTime_lastCkptSec (f : TimeState → TimeState) : (modTime f s).lastCkptSec = s.lastCkptSec := rfl
@[simp] theorem modTime_draws (f : TimeState → TimeState) : (modTime f s).draws = s.draws := rfl
@[simp] theorem modTime_rngPeriod (f : TimeState → TimeState) : (modTime f s).rngPeriod = s.rngPeriod := rfl
@[simp] theorem modTime_rngT0 (f : TimeState → TimeState) : (modTime f s).rngT0 = s.rngT0 := rfl
@[simp] theorem modTime_vault (f : TimeState → TimeState) : (modTime f s).vault = s.vault := rfl
@[simp] theorem modTime_images (f : TimeState → TimeState) : (modTime f s).images = s.images := rfl
@[simp] theorem modTime_ports (f : TimeState → TimeState) : (modTime f s).ports = s.ports := rfl
@[simp] theorem modTime_lcs (f : TimeState → TimeState) : (modTime f s).lcs = s.lcs := rfl
@[simp] theorem modTime_otp (f : TimeState → TimeState) : (modTime f s).otp = s.otp := rfl
@[simp] theorem modTime_life (f : TimeState → TimeState) : (modTime f s).life = s.life := rfl
@[simp] theorem modTime_lining (f : TimeState → TimeState) : (modTime f s).lining = s.lining := rfl
@[simp] theorem modTime_locked (f : TimeState → TimeState) : (modTime f s).locked = s.locked := rfl
@[simp] theorem modTime_tamper (f : TimeState → TimeState) : (modTime f s).tamper = s.tamper := rfl
@[simp] theorem modTime_fw (f : TimeState → TimeState) : (modTime f s).fw = s.fw := rfl
@[simp] theorem modTime_hatter (f : TimeState → TimeState) : (modTime f s).hatter = s.hatter := rfl
@[simp] theorem modTime_snap (f : TimeState → TimeState) : (modTime f s).snap = s.snap := rfl
@[simp] theorem modTime_pwr (f : TimeState → TimeState) : (modTime f s).pwr = s.pwr := rfl
@[simp] theorem modTime_startStep (f : TimeState → TimeState) : (modTime f s).startStep = s.startStep := rfl
@[simp] theorem modTime_pwrState (f : TimeState → TimeState) : (modTime f s).pwrState = s.pwrState := rfl
@[simp] theorem modTime_hold (f : TimeState → TimeState) : (modTime f s).hold = s.hold := rfl
@[simp] theorem modTime_free (f : TimeState → TimeState) : (modTime f s).free = s.free := rfl
@[simp] theorem modTime_out (f : TimeState → TimeState) : (modTime f s).out = s.out := rfl
@[simp] theorem modTime_pending (f : TimeState → TimeState) : (modTime f s).pending = s.pending := rfl

@[simp] theorem countOn_part (d e n k : Nat) : (countOn d e n k s).part = s.part := rfl
@[simp] theorem countOn_grade (d e n k : Nat) : (countOn d e n k s).grade = s.grade := rfl
@[simp] theorem countOn_rev (d e n k : Nat) : (countOn d e n k s).rev = s.rev := rfl
@[simp] theorem countOn_time (d e n k : Nat) : (countOn d e n k s).time = s.time := rfl
@[simp] theorem countOn_ecfg (d e n k : Nat) : (countOn d e n k s).ecfg = s.ecfg := rfl
@[simp] theorem countOn_epc (d e n k : Nat) : (countOn d e n k s).epc = s.epc := rfl
@[simp] theorem countOn_authorities (d e n k : Nat) : (countOn d e n k s).authorities = s.authorities := rfl
@[simp] theorem countOn_fns (d e n k : Nat) : (countOn d e n k s).fns = s.fns := rfl
@[simp] theorem countOn_vfEnable (d e n k : Nat) : (countOn d e n k s).vfEnable = s.vfEnable := rfl
@[simp] theorem countOn_numVfs (d e n k : Nat) : (countOn d e n k s).numVfs = s.numVfs := rfl
@[simp] theorem countOn_page64 (d e n k : Nat) : (countOn d e n k s).page64 = s.page64 := rfl
@[simp] theorem countOn_tenants (d e n k : Nat) : (countOn d e n k s).tenants = s.tenants := rfl
@[simp] theorem countOn_jobs (d e n k : Nat) : (countOn d e n k s).jobs = s.jobs := rfl
@[simp] theorem countOn_nextJob (d e n k : Nat) : (countOn d e n k s).nextJob = s.nextJob := rfl
@[simp] theorem countOn_nextCreation (d e n k : Nat) : (countOn d e n k s).nextCreation = s.nextCreation := rfl
@[simp] theorem countOn_rrAdmin (d e n k : Nat) : (countOn d e n k s).rrAdmin = s.rrAdmin := rfl
@[simp] theorem countOn_rrService (d e n k : Nat) : (countOn d e n k s).rrService = s.rrService := rfl
@[simp] theorem countOn_rrWork (d e n k : Nat) : (countOn d e n k s).rrWork = s.rrWork := rfl
@[simp] theorem countOn_visit (d e n k : Nat) : (countOn d e n k s).visit = s.visit := rfl
@[simp] theorem countOn_takeUs (d e n k : Nat) : (countOn d e n k s).takeUs = s.takeUs := rfl
@[simp] theorem countOn_takeCount (d e n k : Nat) : (countOn d e n k s).takeCount = s.takeCount := rfl
@[simp] theorem countOn_takeSvc (d e n k : Nat) : (countOn d e n k s).takeSvc = s.takeSvc := rfl
@[simp] theorem countOn_dieChanged (d e n k : Nat) : (countOn d e n k s).dieChanged = s.dieChanged := rfl
@[simp] theorem countOn_crownFault (d e n k : Nat) : (countOn d e n k s).crownFault = s.crownFault := rfl
@[simp] theorem countOn_fence (d e n k : Nat) : (countOn d e n k s).fence = s.fence := rfl
@[simp] theorem countOn_fnEvent (d e n k : Nat) : (countOn d e n k s).fnEvent = s.fnEvent := rfl
@[simp] theorem countOn_badOffset (d e n k : Nat) : (countOn d e n k s).badOffset = s.badOffset := rfl
@[simp] theorem countOn_badCount (d e n k : Nat) : (countOn d e n k s).badCount = s.badCount := rfl
@[simp] theorem countOn_latches (d e n k : Nat) : (countOn d e n k s).latches = s.latches := rfl
@[simp] theorem countOn_linkWidth (d e n k : Nat) : (countOn d e n k s).linkWidth = s.linkWidth := rfl
@[simp] theorem countOn_linkSpeed (d e n k : Nat) : (countOn d e n k s).linkSpeed = s.linkSpeed := rfl
@[simp] theorem countOn_linkFatal (d e n k : Nat) : (countOn d e n k s).linkFatal = s.linkFatal := rfl
@[simp] theorem countOn_evBuf (d e n k : Nat) : (countOn d e n k s).evBuf = s.evBuf := rfl
@[simp] theorem countOn_evFlash (d e n k : Nat) : (countOn d e n k s).evFlash = s.evFlash := rfl
@[simp] theorem countOn_evNext (d e n k : Nat) : (countOn d e n k s).evNext = s.evNext := rfl
@[simp] theorem countOn_evSuppressed (d e n k : Nat) : (countOn d e n k s).evSuppressed = s.evSuppressed := rfl
@[simp] theorem countOn_evBursts (d e n k : Nat) : (countOn d e n k s).evBursts = s.evBursts := rfl
@[simp] theorem countOn_pfFresh (d e n k : Nat) : (countOn d e n k s).pfFresh = s.pfFresh := rfl
@[simp] theorem countOn_psnNext (d e n k : Nat) : (countOn d e n k s).psnNext = s.psnNext := rfl
@[simp] theorem countOn_psnCeil (d e n k : Nat) : (countOn d e n k s).psnCeil = s.psnCeil := rfl
@[simp] theorem countOn_psnWriting (d e n k : Nat) : (countOn d e n k s).psnWriting = s.psnWriting := rfl
@[simp] theorem countOn_ledgers (d e n k : Nat) : (countOn d e n k s).ledgers = s.ledgers := rfl
@[simp] theorem countOn_pkg (d e n k : Nat) : (countOn d e n k s).pkg = s.pkg := rfl
@[simp] theorem countOn_pkgFinal (d e n k : Nat) : (countOn d e n k s).pkgFinal = s.pkgFinal := rfl
@[simp] theorem countOn_pages (d e n k : Nat) : (countOn d e n k s).pages = s.pages := rfl
@[simp] theorem countOn_pageNo (d e n k : Nat) : (countOn d e n k s).pageNo = s.pageNo := rfl
@[simp] theorem countOn_pd (d e n k : Nat) : (countOn d e n k s).pd = s.pd := rfl
@[simp] theorem countOn_epochIdx (d e n k : Nat) : (countOn d e n k s).epochIdx = s.epochIdx := rfl
@[simp] theorem countOn_rootStore (d e n k : Nat) : (countOn d e n k s).rootStore = s.rootStore := rfl
@[simp] theorem countOn_lrings (d e n k : Nat) : (countOn d e n k s).lrings = s.lrings := rfl
@[simp] theorem countOn_signQ (d e n k : Nat) : (countOn d e n k s).signQ = s.signQ := rfl
@[simp] theorem countOn_batchNo (d e n k : Nat) : (countOn d e n k s).batchNo = s.batchNo := rfl
@[simp] theorem countOn_elig (d e n k : Nat) : (countOn d e n k s).elig = s.elig := rfl
@[simp] theorem countOn_ingress (d e n k : Nat) : (countOn d e n k s).ingress = s.ingress := rfl
@[simp] theorem countOn_appended (d e n k : Nat) : (countOn d e n k s).appended = s.appended := rfl
@[simp] theorem countOn_jsBase (d e n k : Nat) : (countOn d e n k s).jsBase = s.jsBase := rfl
@[simp] theorem countOn_jsLog2 (d e n k : Nat) : (countOn d e n k s).jsLog2 = s.jsLog2 := rfl
@[simp] theorem countOn_jsActive (d e n k : Nat) : (countOn d e n k s).jsActive = s.jsActive := rfl
@[simp] theorem countOn_jsBad (d e n k : Nat) : (countOn d e n k s).jsBad = s.jsBad := rfl
@[simp] theorem countOn_storeFault (d e n k : Nat) : (countOn d e n k s).storeFault = s.storeFault := rfl
@[simp] theorem countOn_storeStall (d e n k : Nat) : (countOn d e n k s).storeStall = s.storeStall := rfl
@[simp] theorem countOn_quiesced (d e n k : Nat) : (countOn d e n k s).quiesced = s.quiesced := rfl
@[simp] theorem countOn_ckptOverdue (d e n k : Nat) : (countOn d e n k s).ckptOverdue = s.ckptOverdue := rfl
@[simp] theorem countOn_ckptAt (d e n k : Nat) : (countOn d e n k s).ckptAt = s.ckptAt := rfl
@[simp] theorem countOn_ckptReq (d e n k : Nat) : (countOn d e n k s).ckptReq = s.ckptReq := rfl
@[simp] theorem countOn_ckptDirty (d e n k : Nat) : (countOn d e n k s).ckptDirty = s.ckptDirty := rfl
@[simp] theorem countOn_lastCkptSec (d e n k : Nat) : (countOn d e n k s).lastCkptSec = s.lastCkptSec := rfl
@[simp] theorem countOn_draws (d e n k : Nat) : (countOn d e n k s).draws = s.draws := rfl
@[simp] theorem countOn_rngPeriod (d e n k : Nat) : (countOn d e n k s).rngPeriod = s.rngPeriod := rfl
@[simp] theorem countOn_rngT0 (d e n k : Nat) : (countOn d e n k s).rngT0 = s.rngT0 := rfl
@[simp] theorem countOn_vault (d e n k : Nat) : (countOn d e n k s).vault = s.vault := rfl
@[simp] theorem countOn_images (d e n k : Nat) : (countOn d e n k s).images = s.images := rfl
@[simp] theorem countOn_ports (d e n k : Nat) : (countOn d e n k s).ports = s.ports := rfl
@[simp] theorem countOn_lcs (d e n k : Nat) : (countOn d e n k s).lcs = s.lcs := rfl
@[simp] theorem countOn_otp (d e n k : Nat) : (countOn d e n k s).otp = s.otp := rfl
@[simp] theorem countOn_life (d e n k : Nat) : (countOn d e n k s).life = s.life := rfl
@[simp] theorem countOn_lining (d e n k : Nat) : (countOn d e n k s).lining = s.lining := rfl
@[simp] theorem countOn_locked (d e n k : Nat) : (countOn d e n k s).locked = s.locked := rfl
@[simp] theorem countOn_tamper (d e n k : Nat) : (countOn d e n k s).tamper = s.tamper := rfl
@[simp] theorem countOn_fw (d e n k : Nat) : (countOn d e n k s).fw = s.fw := rfl
@[simp] theorem countOn_hatter (d e n k : Nat) : (countOn d e n k s).hatter = s.hatter := rfl
@[simp] theorem countOn_snap (d e n k : Nat) : (countOn d e n k s).snap = s.snap := rfl
@[simp] theorem countOn_pwr (d e n k : Nat) : (countOn d e n k s).pwr = s.pwr := rfl
@[simp] theorem countOn_startStep (d e n k : Nat) : (countOn d e n k s).startStep = s.startStep := rfl
@[simp] theorem countOn_pwrState (d e n k : Nat) : (countOn d e n k s).pwrState = s.pwrState := rfl
@[simp] theorem countOn_hold (d e n k : Nat) : (countOn d e n k s).hold = s.hold := rfl
@[simp] theorem countOn_free (d e n k : Nat) : (countOn d e n k s).free = s.free := rfl
@[simp] theorem countOn_out (d e n k : Nat) : (countOn d e n k s).out = s.out := rfl
@[simp] theorem countOn_pending (d e n k : Nat) : (countOn d e n k s).pending = s.pending := rfl

@[simp] theorem emit_part (o : Out) : (emit o s).part = s.part := rfl
@[simp] theorem emit_grade (o : Out) : (emit o s).grade = s.grade := rfl
@[simp] theorem emit_rev (o : Out) : (emit o s).rev = s.rev := rfl
@[simp] theorem emit_time (o : Out) : (emit o s).time = s.time := rfl
@[simp] theorem emit_ecfg (o : Out) : (emit o s).ecfg = s.ecfg := rfl
@[simp] theorem emit_epc (o : Out) : (emit o s).epc = s.epc := rfl
@[simp] theorem emit_authorities (o : Out) : (emit o s).authorities = s.authorities := rfl
@[simp] theorem emit_fns (o : Out) : (emit o s).fns = s.fns := rfl
@[simp] theorem emit_vfEnable (o : Out) : (emit o s).vfEnable = s.vfEnable := rfl
@[simp] theorem emit_numVfs (o : Out) : (emit o s).numVfs = s.numVfs := rfl
@[simp] theorem emit_page64 (o : Out) : (emit o s).page64 = s.page64 := rfl
@[simp] theorem emit_tenants (o : Out) : (emit o s).tenants = s.tenants := rfl
@[simp] theorem emit_jobs (o : Out) : (emit o s).jobs = s.jobs := rfl
@[simp] theorem emit_nextJob (o : Out) : (emit o s).nextJob = s.nextJob := rfl
@[simp] theorem emit_nextCreation (o : Out) : (emit o s).nextCreation = s.nextCreation := rfl
@[simp] theorem emit_rrAdmin (o : Out) : (emit o s).rrAdmin = s.rrAdmin := rfl
@[simp] theorem emit_rrService (o : Out) : (emit o s).rrService = s.rrService := rfl
@[simp] theorem emit_rrWork (o : Out) : (emit o s).rrWork = s.rrWork := rfl
@[simp] theorem emit_visit (o : Out) : (emit o s).visit = s.visit := rfl
@[simp] theorem emit_takeUs (o : Out) : (emit o s).takeUs = s.takeUs := rfl
@[simp] theorem emit_takeCount (o : Out) : (emit o s).takeCount = s.takeCount := rfl
@[simp] theorem emit_takeSvc (o : Out) : (emit o s).takeSvc = s.takeSvc := rfl
@[simp] theorem emit_dies (o : Out) : (emit o s).dies = s.dies := rfl
@[simp] theorem emit_dieChanged (o : Out) : (emit o s).dieChanged = s.dieChanged := rfl
@[simp] theorem emit_crownFault (o : Out) : (emit o s).crownFault = s.crownFault := rfl
@[simp] theorem emit_fence (o : Out) : (emit o s).fence = s.fence := rfl
@[simp] theorem emit_fnEvent (o : Out) : (emit o s).fnEvent = s.fnEvent := rfl
@[simp] theorem emit_badOffset (o : Out) : (emit o s).badOffset = s.badOffset := rfl
@[simp] theorem emit_badCount (o : Out) : (emit o s).badCount = s.badCount := rfl
@[simp] theorem emit_latches (o : Out) : (emit o s).latches = s.latches := rfl
@[simp] theorem emit_linkWidth (o : Out) : (emit o s).linkWidth = s.linkWidth := rfl
@[simp] theorem emit_linkSpeed (o : Out) : (emit o s).linkSpeed = s.linkSpeed := rfl
@[simp] theorem emit_linkFatal (o : Out) : (emit o s).linkFatal = s.linkFatal := rfl
@[simp] theorem emit_evBuf (o : Out) : (emit o s).evBuf = s.evBuf := rfl
@[simp] theorem emit_evFlash (o : Out) : (emit o s).evFlash = s.evFlash := rfl
@[simp] theorem emit_evNext (o : Out) : (emit o s).evNext = s.evNext := rfl
@[simp] theorem emit_evSuppressed (o : Out) : (emit o s).evSuppressed = s.evSuppressed := rfl
@[simp] theorem emit_evBursts (o : Out) : (emit o s).evBursts = s.evBursts := rfl
@[simp] theorem emit_pfFresh (o : Out) : (emit o s).pfFresh = s.pfFresh := rfl
@[simp] theorem emit_psnNext (o : Out) : (emit o s).psnNext = s.psnNext := rfl
@[simp] theorem emit_psnCeil (o : Out) : (emit o s).psnCeil = s.psnCeil := rfl
@[simp] theorem emit_psnWriting (o : Out) : (emit o s).psnWriting = s.psnWriting := rfl
@[simp] theorem emit_ledgers (o : Out) : (emit o s).ledgers = s.ledgers := rfl
@[simp] theorem emit_pkg (o : Out) : (emit o s).pkg = s.pkg := rfl
@[simp] theorem emit_pkgFinal (o : Out) : (emit o s).pkgFinal = s.pkgFinal := rfl
@[simp] theorem emit_pages (o : Out) : (emit o s).pages = s.pages := rfl
@[simp] theorem emit_pageNo (o : Out) : (emit o s).pageNo = s.pageNo := rfl
@[simp] theorem emit_pd (o : Out) : (emit o s).pd = s.pd := rfl
@[simp] theorem emit_epochIdx (o : Out) : (emit o s).epochIdx = s.epochIdx := rfl
@[simp] theorem emit_rootStore (o : Out) : (emit o s).rootStore = s.rootStore := rfl
@[simp] theorem emit_lrings (o : Out) : (emit o s).lrings = s.lrings := rfl
@[simp] theorem emit_signQ (o : Out) : (emit o s).signQ = s.signQ := rfl
@[simp] theorem emit_batchNo (o : Out) : (emit o s).batchNo = s.batchNo := rfl
@[simp] theorem emit_elig (o : Out) : (emit o s).elig = s.elig := rfl
@[simp] theorem emit_ingress (o : Out) : (emit o s).ingress = s.ingress := rfl
@[simp] theorem emit_appended (o : Out) : (emit o s).appended = s.appended := rfl
@[simp] theorem emit_jsBase (o : Out) : (emit o s).jsBase = s.jsBase := rfl
@[simp] theorem emit_jsLog2 (o : Out) : (emit o s).jsLog2 = s.jsLog2 := rfl
@[simp] theorem emit_jsActive (o : Out) : (emit o s).jsActive = s.jsActive := rfl
@[simp] theorem emit_jsBad (o : Out) : (emit o s).jsBad = s.jsBad := rfl
@[simp] theorem emit_storeFault (o : Out) : (emit o s).storeFault = s.storeFault := rfl
@[simp] theorem emit_storeStall (o : Out) : (emit o s).storeStall = s.storeStall := rfl
@[simp] theorem emit_quiesced (o : Out) : (emit o s).quiesced = s.quiesced := rfl
@[simp] theorem emit_ckptOverdue (o : Out) : (emit o s).ckptOverdue = s.ckptOverdue := rfl
@[simp] theorem emit_ckptAt (o : Out) : (emit o s).ckptAt = s.ckptAt := rfl
@[simp] theorem emit_ckptReq (o : Out) : (emit o s).ckptReq = s.ckptReq := rfl
@[simp] theorem emit_ckptDirty (o : Out) : (emit o s).ckptDirty = s.ckptDirty := rfl
@[simp] theorem emit_lastCkptSec (o : Out) : (emit o s).lastCkptSec = s.lastCkptSec := rfl
@[simp] theorem emit_draws (o : Out) : (emit o s).draws = s.draws := rfl
@[simp] theorem emit_rngPeriod (o : Out) : (emit o s).rngPeriod = s.rngPeriod := rfl
@[simp] theorem emit_rngT0 (o : Out) : (emit o s).rngT0 = s.rngT0 := rfl
@[simp] theorem emit_vault (o : Out) : (emit o s).vault = s.vault := rfl
@[simp] theorem emit_images (o : Out) : (emit o s).images = s.images := rfl
@[simp] theorem emit_ports (o : Out) : (emit o s).ports = s.ports := rfl
@[simp] theorem emit_lcs (o : Out) : (emit o s).lcs = s.lcs := rfl
@[simp] theorem emit_otp (o : Out) : (emit o s).otp = s.otp := rfl
@[simp] theorem emit_life (o : Out) : (emit o s).life = s.life := rfl
@[simp] theorem emit_lining (o : Out) : (emit o s).lining = s.lining := rfl
@[simp] theorem emit_locked (o : Out) : (emit o s).locked = s.locked := rfl
@[simp] theorem emit_tamper (o : Out) : (emit o s).tamper = s.tamper := rfl
@[simp] theorem emit_fw (o : Out) : (emit o s).fw = s.fw := rfl
@[simp] theorem emit_hatter (o : Out) : (emit o s).hatter = s.hatter := rfl
@[simp] theorem emit_snap (o : Out) : (emit o s).snap = s.snap := rfl
@[simp] theorem emit_pwr (o : Out) : (emit o s).pwr = s.pwr := rfl
@[simp] theorem emit_startStep (o : Out) : (emit o s).startStep = s.startStep := rfl
@[simp] theorem emit_pwrState (o : Out) : (emit o s).pwrState = s.pwrState := rfl
@[simp] theorem emit_hold (o : Out) : (emit o s).hold = s.hold := rfl
@[simp] theorem emit_free (o : Out) : (emit o s).free = s.free := rfl
@[simp] theorem emit_pending (o : Out) : (emit o s).pending = s.pending := rfl

@[simp] theorem setNow_part (n : Nat) : (setNow n s).part = s.part := rfl
@[simp] theorem setNow_grade (n : Nat) : (setNow n s).grade = s.grade := rfl
@[simp] theorem setNow_rev (n : Nat) : (setNow n s).rev = s.rev := rfl
@[simp] theorem setNow_ecfg (n : Nat) : (setNow n s).ecfg = s.ecfg := rfl
@[simp] theorem setNow_epc (n : Nat) : (setNow n s).epc = s.epc := rfl
@[simp] theorem setNow_authorities (n : Nat) : (setNow n s).authorities = s.authorities := rfl
@[simp] theorem setNow_fns (n : Nat) : (setNow n s).fns = s.fns := rfl
@[simp] theorem setNow_vfEnable (n : Nat) : (setNow n s).vfEnable = s.vfEnable := rfl
@[simp] theorem setNow_numVfs (n : Nat) : (setNow n s).numVfs = s.numVfs := rfl
@[simp] theorem setNow_page64 (n : Nat) : (setNow n s).page64 = s.page64 := rfl
@[simp] theorem setNow_tenants (n : Nat) : (setNow n s).tenants = s.tenants := rfl
@[simp] theorem setNow_jobs (n : Nat) : (setNow n s).jobs = s.jobs := rfl
@[simp] theorem setNow_nextJob (n : Nat) : (setNow n s).nextJob = s.nextJob := rfl
@[simp] theorem setNow_nextCreation (n : Nat) : (setNow n s).nextCreation = s.nextCreation := rfl
@[simp] theorem setNow_rrAdmin (n : Nat) : (setNow n s).rrAdmin = s.rrAdmin := rfl
@[simp] theorem setNow_rrService (n : Nat) : (setNow n s).rrService = s.rrService := rfl
@[simp] theorem setNow_rrWork (n : Nat) : (setNow n s).rrWork = s.rrWork := rfl
@[simp] theorem setNow_visit (n : Nat) : (setNow n s).visit = s.visit := rfl
@[simp] theorem setNow_takeUs (n : Nat) : (setNow n s).takeUs = s.takeUs := rfl
@[simp] theorem setNow_takeCount (n : Nat) : (setNow n s).takeCount = s.takeCount := rfl
@[simp] theorem setNow_takeSvc (n : Nat) : (setNow n s).takeSvc = s.takeSvc := rfl
@[simp] theorem setNow_dieChanged (n : Nat) : (setNow n s).dieChanged = s.dieChanged := rfl
@[simp] theorem setNow_crownFault (n : Nat) : (setNow n s).crownFault = s.crownFault := rfl
@[simp] theorem setNow_fence (n : Nat) : (setNow n s).fence = s.fence := rfl
@[simp] theorem setNow_fnEvent (n : Nat) : (setNow n s).fnEvent = s.fnEvent := rfl
@[simp] theorem setNow_badOffset (n : Nat) : (setNow n s).badOffset = s.badOffset := rfl
@[simp] theorem setNow_badCount (n : Nat) : (setNow n s).badCount = s.badCount := rfl
@[simp] theorem setNow_latches (n : Nat) : (setNow n s).latches = s.latches := rfl
@[simp] theorem setNow_linkWidth (n : Nat) : (setNow n s).linkWidth = s.linkWidth := rfl
@[simp] theorem setNow_linkSpeed (n : Nat) : (setNow n s).linkSpeed = s.linkSpeed := rfl
@[simp] theorem setNow_linkFatal (n : Nat) : (setNow n s).linkFatal = s.linkFatal := rfl
@[simp] theorem setNow_evBuf (n : Nat) : (setNow n s).evBuf = s.evBuf := rfl
@[simp] theorem setNow_evFlash (n : Nat) : (setNow n s).evFlash = s.evFlash := rfl
@[simp] theorem setNow_evNext (n : Nat) : (setNow n s).evNext = s.evNext := rfl
@[simp] theorem setNow_evSuppressed (n : Nat) : (setNow n s).evSuppressed = s.evSuppressed := rfl
@[simp] theorem setNow_evBursts (n : Nat) : (setNow n s).evBursts = s.evBursts := rfl
@[simp] theorem setNow_pfFresh (n : Nat) : (setNow n s).pfFresh = s.pfFresh := rfl
@[simp] theorem setNow_psnNext (n : Nat) : (setNow n s).psnNext = s.psnNext := rfl
@[simp] theorem setNow_psnCeil (n : Nat) : (setNow n s).psnCeil = s.psnCeil := rfl
@[simp] theorem setNow_psnWriting (n : Nat) : (setNow n s).psnWriting = s.psnWriting := rfl
@[simp] theorem setNow_ledgers (n : Nat) : (setNow n s).ledgers = s.ledgers := rfl
@[simp] theorem setNow_pkg (n : Nat) : (setNow n s).pkg = s.pkg := rfl
@[simp] theorem setNow_pkgFinal (n : Nat) : (setNow n s).pkgFinal = s.pkgFinal := rfl
@[simp] theorem setNow_pages (n : Nat) : (setNow n s).pages = s.pages := rfl
@[simp] theorem setNow_pageNo (n : Nat) : (setNow n s).pageNo = s.pageNo := rfl
@[simp] theorem setNow_pd (n : Nat) : (setNow n s).pd = s.pd := rfl
@[simp] theorem setNow_epochIdx (n : Nat) : (setNow n s).epochIdx = s.epochIdx := rfl
@[simp] theorem setNow_rootStore (n : Nat) : (setNow n s).rootStore = s.rootStore := rfl
@[simp] theorem setNow_lrings (n : Nat) : (setNow n s).lrings = s.lrings := rfl
@[simp] theorem setNow_signQ (n : Nat) : (setNow n s).signQ = s.signQ := rfl
@[simp] theorem setNow_batchNo (n : Nat) : (setNow n s).batchNo = s.batchNo := rfl
@[simp] theorem setNow_elig (n : Nat) : (setNow n s).elig = s.elig := rfl
@[simp] theorem setNow_ingress (n : Nat) : (setNow n s).ingress = s.ingress := rfl
@[simp] theorem setNow_appended (n : Nat) : (setNow n s).appended = s.appended := rfl
@[simp] theorem setNow_jsBase (n : Nat) : (setNow n s).jsBase = s.jsBase := rfl
@[simp] theorem setNow_jsLog2 (n : Nat) : (setNow n s).jsLog2 = s.jsLog2 := rfl
@[simp] theorem setNow_jsActive (n : Nat) : (setNow n s).jsActive = s.jsActive := rfl
@[simp] theorem setNow_jsBad (n : Nat) : (setNow n s).jsBad = s.jsBad := rfl
@[simp] theorem setNow_storeFault (n : Nat) : (setNow n s).storeFault = s.storeFault := rfl
@[simp] theorem setNow_storeStall (n : Nat) : (setNow n s).storeStall = s.storeStall := rfl
@[simp] theorem setNow_quiesced (n : Nat) : (setNow n s).quiesced = s.quiesced := rfl
@[simp] theorem setNow_ckptOverdue (n : Nat) : (setNow n s).ckptOverdue = s.ckptOverdue := rfl
@[simp] theorem setNow_ckptAt (n : Nat) : (setNow n s).ckptAt = s.ckptAt := rfl
@[simp] theorem setNow_ckptReq (n : Nat) : (setNow n s).ckptReq = s.ckptReq := rfl
@[simp] theorem setNow_ckptDirty (n : Nat) : (setNow n s).ckptDirty = s.ckptDirty := rfl
@[simp] theorem setNow_lastCkptSec (n : Nat) : (setNow n s).lastCkptSec = s.lastCkptSec := rfl
@[simp] theorem setNow_draws (n : Nat) : (setNow n s).draws = s.draws := rfl
@[simp] theorem setNow_rngPeriod (n : Nat) : (setNow n s).rngPeriod = s.rngPeriod := rfl
@[simp] theorem setNow_rngT0 (n : Nat) : (setNow n s).rngT0 = s.rngT0 := rfl
@[simp] theorem setNow_vault (n : Nat) : (setNow n s).vault = s.vault := rfl
@[simp] theorem setNow_images (n : Nat) : (setNow n s).images = s.images := rfl
@[simp] theorem setNow_ports (n : Nat) : (setNow n s).ports = s.ports := rfl
@[simp] theorem setNow_lcs (n : Nat) : (setNow n s).lcs = s.lcs := rfl
@[simp] theorem setNow_otp (n : Nat) : (setNow n s).otp = s.otp := rfl
@[simp] theorem setNow_life (n : Nat) : (setNow n s).life = s.life := rfl
@[simp] theorem setNow_lining (n : Nat) : (setNow n s).lining = s.lining := rfl
@[simp] theorem setNow_locked (n : Nat) : (setNow n s).locked = s.locked := rfl
@[simp] theorem setNow_tamper (n : Nat) : (setNow n s).tamper = s.tamper := rfl
@[simp] theorem setNow_fw (n : Nat) : (setNow n s).fw = s.fw := rfl
@[simp] theorem setNow_hatter (n : Nat) : (setNow n s).hatter = s.hatter := rfl
@[simp] theorem setNow_snap (n : Nat) : (setNow n s).snap = s.snap := rfl
@[simp] theorem setNow_pwr (n : Nat) : (setNow n s).pwr = s.pwr := rfl
@[simp] theorem setNow_startStep (n : Nat) : (setNow n s).startStep = s.startStep := rfl
@[simp] theorem setNow_pwrState (n : Nat) : (setNow n s).pwrState = s.pwrState := rfl
@[simp] theorem setNow_hold (n : Nat) : (setNow n s).hold = s.hold := rfl
@[simp] theorem setNow_free (n : Nat) : (setNow n s).free = s.free := rfl
@[simp] theorem setNow_out (n : Nat) : (setNow n s).out = s.out := rfl
@[simp] theorem setNow_pending (n : Nat) : (setNow n s).pending = s.pending := rfl

@[simp] theorem modJob_part (j : Nat) (f : Job → Job) : (modJob j f s).part = s.part := by unfold modJob; split <;> rfl
@[simp] theorem modJob_grade (j : Nat) (f : Job → Job) : (modJob j f s).grade = s.grade := by unfold modJob; split <;> rfl
@[simp] theorem modJob_rev (j : Nat) (f : Job → Job) : (modJob j f s).rev = s.rev := by unfold modJob; split <;> rfl
@[simp] theorem modJob_time (j : Nat) (f : Job → Job) : (modJob j f s).time = s.time := by unfold modJob; split <;> rfl
@[simp] theorem modJob_ecfg (j : Nat) (f : Job → Job) : (modJob j f s).ecfg = s.ecfg := by unfold modJob; split <;> rfl
@[simp] theorem modJob_epc (j : Nat) (f : Job → Job) : (modJob j f s).epc = s.epc := by unfold modJob; split <;> rfl
@[simp] theorem modJob_authorities (j : Nat) (f : Job → Job) : (modJob j f s).authorities = s.authorities := by unfold modJob; split <;> rfl
@[simp] theorem modJob_fns (j : Nat) (f : Job → Job) : (modJob j f s).fns = s.fns := by unfold modJob; split <;> rfl
@[simp] theorem modJob_vfEnable (j : Nat) (f : Job → Job) : (modJob j f s).vfEnable = s.vfEnable := by unfold modJob; split <;> rfl
@[simp] theorem modJob_numVfs (j : Nat) (f : Job → Job) : (modJob j f s).numVfs = s.numVfs := by unfold modJob; split <;> rfl
@[simp] theorem modJob_page64 (j : Nat) (f : Job → Job) : (modJob j f s).page64 = s.page64 := by unfold modJob; split <;> rfl
@[simp] theorem modJob_tenants (j : Nat) (f : Job → Job) : (modJob j f s).tenants = s.tenants := by unfold modJob; split <;> rfl
@[simp] theorem modJob_nextJob (j : Nat) (f : Job → Job) : (modJob j f s).nextJob = s.nextJob := by unfold modJob; split <;> rfl
@[simp] theorem modJob_nextCreation (j : Nat) (f : Job → Job) : (modJob j f s).nextCreation = s.nextCreation := by unfold modJob; split <;> rfl
@[simp] theorem modJob_rrAdmin (j : Nat) (f : Job → Job) : (modJob j f s).rrAdmin = s.rrAdmin := by unfold modJob; split <;> rfl
@[simp] theorem modJob_rrService (j : Nat) (f : Job → Job) : (modJob j f s).rrService = s.rrService := by unfold modJob; split <;> rfl
@[simp] theorem modJob_rrWork (j : Nat) (f : Job → Job) : (modJob j f s).rrWork = s.rrWork := by unfold modJob; split <;> rfl
@[simp] theorem modJob_visit (j : Nat) (f : Job → Job) : (modJob j f s).visit = s.visit := by unfold modJob; split <;> rfl
@[simp] theorem modJob_takeUs (j : Nat) (f : Job → Job) : (modJob j f s).takeUs = s.takeUs := by unfold modJob; split <;> rfl
@[simp] theorem modJob_takeCount (j : Nat) (f : Job → Job) : (modJob j f s).takeCount = s.takeCount := by unfold modJob; split <;> rfl
@[simp] theorem modJob_takeSvc (j : Nat) (f : Job → Job) : (modJob j f s).takeSvc = s.takeSvc := by unfold modJob; split <;> rfl
@[simp] theorem modJob_dies (j : Nat) (f : Job → Job) : (modJob j f s).dies = s.dies := by unfold modJob; split <;> rfl
@[simp] theorem modJob_dieChanged (j : Nat) (f : Job → Job) : (modJob j f s).dieChanged = s.dieChanged := by unfold modJob; split <;> rfl
@[simp] theorem modJob_crownFault (j : Nat) (f : Job → Job) : (modJob j f s).crownFault = s.crownFault := by unfold modJob; split <;> rfl
@[simp] theorem modJob_fence (j : Nat) (f : Job → Job) : (modJob j f s).fence = s.fence := by unfold modJob; split <;> rfl
@[simp] theorem modJob_fnEvent (j : Nat) (f : Job → Job) : (modJob j f s).fnEvent = s.fnEvent := by unfold modJob; split <;> rfl
@[simp] theorem modJob_badOffset (j : Nat) (f : Job → Job) : (modJob j f s).badOffset = s.badOffset := by unfold modJob; split <;> rfl
@[simp] theorem modJob_badCount (j : Nat) (f : Job → Job) : (modJob j f s).badCount = s.badCount := by unfold modJob; split <;> rfl
@[simp] theorem modJob_latches (j : Nat) (f : Job → Job) : (modJob j f s).latches = s.latches := by unfold modJob; split <;> rfl
@[simp] theorem modJob_linkWidth (j : Nat) (f : Job → Job) : (modJob j f s).linkWidth = s.linkWidth := by unfold modJob; split <;> rfl
@[simp] theorem modJob_linkSpeed (j : Nat) (f : Job → Job) : (modJob j f s).linkSpeed = s.linkSpeed := by unfold modJob; split <;> rfl
@[simp] theorem modJob_linkFatal (j : Nat) (f : Job → Job) : (modJob j f s).linkFatal = s.linkFatal := by unfold modJob; split <;> rfl
@[simp] theorem modJob_evBuf (j : Nat) (f : Job → Job) : (modJob j f s).evBuf = s.evBuf := by unfold modJob; split <;> rfl
@[simp] theorem modJob_evFlash (j : Nat) (f : Job → Job) : (modJob j f s).evFlash = s.evFlash := by unfold modJob; split <;> rfl
@[simp] theorem modJob_evNext (j : Nat) (f : Job → Job) : (modJob j f s).evNext = s.evNext := by unfold modJob; split <;> rfl
@[simp] theorem modJob_evSuppressed (j : Nat) (f : Job → Job) : (modJob j f s).evSuppressed = s.evSuppressed := by unfold modJob; split <;> rfl
@[simp] theorem modJob_evBursts (j : Nat) (f : Job → Job) : (modJob j f s).evBursts = s.evBursts := by unfold modJob; split <;> rfl
@[simp] theorem modJob_pfFresh (j : Nat) (f : Job → Job) : (modJob j f s).pfFresh = s.pfFresh := by unfold modJob; split <;> rfl
@[simp] theorem modJob_psnNext (j : Nat) (f : Job → Job) : (modJob j f s).psnNext = s.psnNext := by unfold modJob; split <;> rfl
@[simp] theorem modJob_psnCeil (j : Nat) (f : Job → Job) : (modJob j f s).psnCeil = s.psnCeil := by unfold modJob; split <;> rfl
@[simp] theorem modJob_psnWriting (j : Nat) (f : Job → Job) : (modJob j f s).psnWriting = s.psnWriting := by unfold modJob; split <;> rfl
@[simp] theorem modJob_ledgers (j : Nat) (f : Job → Job) : (modJob j f s).ledgers = s.ledgers := by unfold modJob; split <;> rfl
@[simp] theorem modJob_pkg (j : Nat) (f : Job → Job) : (modJob j f s).pkg = s.pkg := by unfold modJob; split <;> rfl
@[simp] theorem modJob_pkgFinal (j : Nat) (f : Job → Job) : (modJob j f s).pkgFinal = s.pkgFinal := by unfold modJob; split <;> rfl
@[simp] theorem modJob_pages (j : Nat) (f : Job → Job) : (modJob j f s).pages = s.pages := by unfold modJob; split <;> rfl
@[simp] theorem modJob_pageNo (j : Nat) (f : Job → Job) : (modJob j f s).pageNo = s.pageNo := by unfold modJob; split <;> rfl
@[simp] theorem modJob_pd (j : Nat) (f : Job → Job) : (modJob j f s).pd = s.pd := by unfold modJob; split <;> rfl
@[simp] theorem modJob_epochIdx (j : Nat) (f : Job → Job) : (modJob j f s).epochIdx = s.epochIdx := by unfold modJob; split <;> rfl
@[simp] theorem modJob_rootStore (j : Nat) (f : Job → Job) : (modJob j f s).rootStore = s.rootStore := by unfold modJob; split <;> rfl
@[simp] theorem modJob_lrings (j : Nat) (f : Job → Job) : (modJob j f s).lrings = s.lrings := by unfold modJob; split <;> rfl
@[simp] theorem modJob_signQ (j : Nat) (f : Job → Job) : (modJob j f s).signQ = s.signQ := by unfold modJob; split <;> rfl
@[simp] theorem modJob_batchNo (j : Nat) (f : Job → Job) : (modJob j f s).batchNo = s.batchNo := by unfold modJob; split <;> rfl
@[simp] theorem modJob_elig (j : Nat) (f : Job → Job) : (modJob j f s).elig = s.elig := by unfold modJob; split <;> rfl
@[simp] theorem modJob_ingress (j : Nat) (f : Job → Job) : (modJob j f s).ingress = s.ingress := by unfold modJob; split <;> rfl
@[simp] theorem modJob_appended (j : Nat) (f : Job → Job) : (modJob j f s).appended = s.appended := by unfold modJob; split <;> rfl
@[simp] theorem modJob_jsBase (j : Nat) (f : Job → Job) : (modJob j f s).jsBase = s.jsBase := by unfold modJob; split <;> rfl
@[simp] theorem modJob_jsLog2 (j : Nat) (f : Job → Job) : (modJob j f s).jsLog2 = s.jsLog2 := by unfold modJob; split <;> rfl
@[simp] theorem modJob_jsActive (j : Nat) (f : Job → Job) : (modJob j f s).jsActive = s.jsActive := by unfold modJob; split <;> rfl
@[simp] theorem modJob_jsBad (j : Nat) (f : Job → Job) : (modJob j f s).jsBad = s.jsBad := by unfold modJob; split <;> rfl
@[simp] theorem modJob_storeFault (j : Nat) (f : Job → Job) : (modJob j f s).storeFault = s.storeFault := by unfold modJob; split <;> rfl
@[simp] theorem modJob_storeStall (j : Nat) (f : Job → Job) : (modJob j f s).storeStall = s.storeStall := by unfold modJob; split <;> rfl
@[simp] theorem modJob_quiesced (j : Nat) (f : Job → Job) : (modJob j f s).quiesced = s.quiesced := by unfold modJob; split <;> rfl
@[simp] theorem modJob_ckptOverdue (j : Nat) (f : Job → Job) : (modJob j f s).ckptOverdue = s.ckptOverdue := by unfold modJob; split <;> rfl
@[simp] theorem modJob_ckptAt (j : Nat) (f : Job → Job) : (modJob j f s).ckptAt = s.ckptAt := by unfold modJob; split <;> rfl
@[simp] theorem modJob_ckptReq (j : Nat) (f : Job → Job) : (modJob j f s).ckptReq = s.ckptReq := by unfold modJob; split <;> rfl
@[simp] theorem modJob_ckptDirty (j : Nat) (f : Job → Job) : (modJob j f s).ckptDirty = s.ckptDirty := by unfold modJob; split <;> rfl
@[simp] theorem modJob_lastCkptSec (j : Nat) (f : Job → Job) : (modJob j f s).lastCkptSec = s.lastCkptSec := by unfold modJob; split <;> rfl
@[simp] theorem modJob_draws (j : Nat) (f : Job → Job) : (modJob j f s).draws = s.draws := by unfold modJob; split <;> rfl
@[simp] theorem modJob_rngPeriod (j : Nat) (f : Job → Job) : (modJob j f s).rngPeriod = s.rngPeriod := by unfold modJob; split <;> rfl
@[simp] theorem modJob_rngT0 (j : Nat) (f : Job → Job) : (modJob j f s).rngT0 = s.rngT0 := by unfold modJob; split <;> rfl
@[simp] theorem modJob_vault (j : Nat) (f : Job → Job) : (modJob j f s).vault = s.vault := by unfold modJob; split <;> rfl
@[simp] theorem modJob_images (j : Nat) (f : Job → Job) : (modJob j f s).images = s.images := by unfold modJob; split <;> rfl
@[simp] theorem modJob_ports (j : Nat) (f : Job → Job) : (modJob j f s).ports = s.ports := by unfold modJob; split <;> rfl
@[simp] theorem modJob_lcs (j : Nat) (f : Job → Job) : (modJob j f s).lcs = s.lcs := by unfold modJob; split <;> rfl
@[simp] theorem modJob_otp (j : Nat) (f : Job → Job) : (modJob j f s).otp = s.otp := by unfold modJob; split <;> rfl
@[simp] theorem modJob_life (j : Nat) (f : Job → Job) : (modJob j f s).life = s.life := by unfold modJob; split <;> rfl
@[simp] theorem modJob_lining (j : Nat) (f : Job → Job) : (modJob j f s).lining = s.lining := by unfold modJob; split <;> rfl
@[simp] theorem modJob_locked (j : Nat) (f : Job → Job) : (modJob j f s).locked = s.locked := by unfold modJob; split <;> rfl
@[simp] theorem modJob_tamper (j : Nat) (f : Job → Job) : (modJob j f s).tamper = s.tamper := by unfold modJob; split <;> rfl
@[simp] theorem modJob_fw (j : Nat) (f : Job → Job) : (modJob j f s).fw = s.fw := by unfold modJob; split <;> rfl
@[simp] theorem modJob_hatter (j : Nat) (f : Job → Job) : (modJob j f s).hatter = s.hatter := by unfold modJob; split <;> rfl
@[simp] theorem modJob_snap (j : Nat) (f : Job → Job) : (modJob j f s).snap = s.snap := by unfold modJob; split <;> rfl
@[simp] theorem modJob_pwr (j : Nat) (f : Job → Job) : (modJob j f s).pwr = s.pwr := by unfold modJob; split <;> rfl
@[simp] theorem modJob_startStep (j : Nat) (f : Job → Job) : (modJob j f s).startStep = s.startStep := by unfold modJob; split <;> rfl
@[simp] theorem modJob_pwrState (j : Nat) (f : Job → Job) : (modJob j f s).pwrState = s.pwrState := by unfold modJob; split <;> rfl
@[simp] theorem modJob_hold (j : Nat) (f : Job → Job) : (modJob j f s).hold = s.hold := by unfold modJob; split <;> rfl
@[simp] theorem modJob_free (j : Nat) (f : Job → Job) : (modJob j f s).free = s.free := by unfold modJob; split <;> rfl
@[simp] theorem modJob_out (j : Nat) (f : Job → Job) : (modJob j f s).out = s.out := by unfold modJob; split <;> rfl
@[simp] theorem modJob_pending (j : Nat) (f : Job → Job) : (modJob j f s).pending = s.pending := by unfold modJob; split <;> rfl

@[simp] theorem pushEvent_part (r : EvRec) : (pushEvent r s).part = s.part := by unfold pushEvent; simp only; (repeat' split) <;> rfl
@[simp] theorem pushEvent_grade (r : EvRec) : (pushEvent r s).grade = s.grade := by unfold pushEvent; simp only; (repeat' split) <;> rfl
@[simp] theorem pushEvent_rev (r : EvRec) : (pushEvent r s).rev = s.rev := by unfold pushEvent; simp only; (repeat' split) <;> rfl
@[simp] theorem pushEvent_time (r : EvRec) : (pushEvent r s).time = s.time := by unfold pushEvent; simp only; (repeat' split) <;> rfl
@[simp] theorem pushEvent_ecfg (r : EvRec) : (pushEvent r s).ecfg = s.ecfg := by unfold pushEvent; simp only; (repeat' split) <;> rfl
@[simp] theorem pushEvent_epc (r : EvRec) : (pushEvent r s).epc = s.epc := by unfold pushEvent; simp only; (repeat' split) <;> rfl
@[simp] theorem pushEvent_authorities (r : EvRec) : (pushEvent r s).authorities = s.authorities := by unfold pushEvent; simp only; (repeat' split) <;> rfl
@[simp] theorem pushEvent_fns (r : EvRec) : (pushEvent r s).fns = s.fns := by unfold pushEvent; simp only; (repeat' split) <;> rfl
@[simp] theorem pushEvent_vfEnable (r : EvRec) : (pushEvent r s).vfEnable = s.vfEnable := by unfold pushEvent; simp only; (repeat' split) <;> rfl
@[simp] theorem pushEvent_numVfs (r : EvRec) : (pushEvent r s).numVfs = s.numVfs := by unfold pushEvent; simp only; (repeat' split) <;> rfl
@[simp] theorem pushEvent_page64 (r : EvRec) : (pushEvent r s).page64 = s.page64 := by unfold pushEvent; simp only; (repeat' split) <;> rfl
@[simp] theorem pushEvent_tenants (r : EvRec) : (pushEvent r s).tenants = s.tenants := by unfold pushEvent; simp only; (repeat' split) <;> rfl
@[simp] theorem pushEvent_jobs (r : EvRec) : (pushEvent r s).jobs = s.jobs := by unfold pushEvent; simp only; (repeat' split) <;> rfl
@[simp] theorem pushEvent_nextJob (r : EvRec) : (pushEvent r s).nextJob = s.nextJob := by unfold pushEvent; simp only; (repeat' split) <;> rfl
@[simp] theorem pushEvent_nextCreation (r : EvRec) : (pushEvent r s).nextCreation = s.nextCreation := by unfold pushEvent; simp only; (repeat' split) <;> rfl
@[simp] theorem pushEvent_rrAdmin (r : EvRec) : (pushEvent r s).rrAdmin = s.rrAdmin := by unfold pushEvent; simp only; (repeat' split) <;> rfl
@[simp] theorem pushEvent_rrService (r : EvRec) : (pushEvent r s).rrService = s.rrService := by unfold pushEvent; simp only; (repeat' split) <;> rfl
@[simp] theorem pushEvent_rrWork (r : EvRec) : (pushEvent r s).rrWork = s.rrWork := by unfold pushEvent; simp only; (repeat' split) <;> rfl
@[simp] theorem pushEvent_visit (r : EvRec) : (pushEvent r s).visit = s.visit := by unfold pushEvent; simp only; (repeat' split) <;> rfl
@[simp] theorem pushEvent_takeUs (r : EvRec) : (pushEvent r s).takeUs = s.takeUs := by unfold pushEvent; simp only; (repeat' split) <;> rfl
@[simp] theorem pushEvent_takeCount (r : EvRec) : (pushEvent r s).takeCount = s.takeCount := by unfold pushEvent; simp only; (repeat' split) <;> rfl
@[simp] theorem pushEvent_takeSvc (r : EvRec) : (pushEvent r s).takeSvc = s.takeSvc := by unfold pushEvent; simp only; (repeat' split) <;> rfl
@[simp] theorem pushEvent_dies (r : EvRec) : (pushEvent r s).dies = s.dies := by unfold pushEvent; simp only; (repeat' split) <;> rfl
@[simp] theorem pushEvent_dieChanged (r : EvRec) : (pushEvent r s).dieChanged = s.dieChanged := by unfold pushEvent; simp only; (repeat' split) <;> rfl
@[simp] theorem pushEvent_crownFault (r : EvRec) : (pushEvent r s).crownFault = s.crownFault := by unfold pushEvent; simp only; (repeat' split) <;> rfl
@[simp] theorem pushEvent_fence (r : EvRec) : (pushEvent r s).fence = s.fence := by unfold pushEvent; simp only; (repeat' split) <;> rfl
@[simp] theorem pushEvent_fnEvent (r : EvRec) : (pushEvent r s).fnEvent = s.fnEvent := by unfold pushEvent; simp only; (repeat' split) <;> rfl
@[simp] theorem pushEvent_badOffset (r : EvRec) : (pushEvent r s).badOffset = s.badOffset := by unfold pushEvent; simp only; (repeat' split) <;> rfl
@[simp] theorem pushEvent_badCount (r : EvRec) : (pushEvent r s).badCount = s.badCount := by unfold pushEvent; simp only; (repeat' split) <;> rfl
@[simp] theorem pushEvent_latches (r : EvRec) : (pushEvent r s).latches = s.latches := by unfold pushEvent; simp only; (repeat' split) <;> rfl
@[simp] theorem pushEvent_linkWidth (r : EvRec) : (pushEvent r s).linkWidth = s.linkWidth := by unfold pushEvent; simp only; (repeat' split) <;> rfl
@[simp] theorem pushEvent_linkSpeed (r : EvRec) : (pushEvent r s).linkSpeed = s.linkSpeed := by unfold pushEvent; simp only; (repeat' split) <;> rfl
@[simp] theorem pushEvent_linkFatal (r : EvRec) : (pushEvent r s).linkFatal = s.linkFatal := by unfold pushEvent; simp only; (repeat' split) <;> rfl
@[simp] theorem pushEvent_evFlash (r : EvRec) : (pushEvent r s).evFlash = s.evFlash := by unfold pushEvent; simp only; (repeat' split) <;> rfl
@[simp] theorem pushEvent_evNext (r : EvRec) : (pushEvent r s).evNext = s.evNext := by unfold pushEvent; simp only; (repeat' split) <;> rfl
@[simp] theorem pushEvent_pfFresh (r : EvRec) : (pushEvent r s).pfFresh = s.pfFresh := by unfold pushEvent; simp only; (repeat' split) <;> rfl
@[simp] theorem pushEvent_psnNext (r : EvRec) : (pushEvent r s).psnNext = s.psnNext := by unfold pushEvent; simp only; (repeat' split) <;> rfl
@[simp] theorem pushEvent_psnCeil (r : EvRec) : (pushEvent r s).psnCeil = s.psnCeil := by unfold pushEvent; simp only; (repeat' split) <;> rfl
@[simp] theorem pushEvent_psnWriting (r : EvRec) : (pushEvent r s).psnWriting = s.psnWriting := by unfold pushEvent; simp only; (repeat' split) <;> rfl
@[simp] theorem pushEvent_ledgers (r : EvRec) : (pushEvent r s).ledgers = s.ledgers := by unfold pushEvent; simp only; (repeat' split) <;> rfl
@[simp] theorem pushEvent_pkg (r : EvRec) : (pushEvent r s).pkg = s.pkg := by unfold pushEvent; simp only; (repeat' split) <;> rfl
@[simp] theorem pushEvent_pkgFinal (r : EvRec) : (pushEvent r s).pkgFinal = s.pkgFinal := by unfold pushEvent; simp only; (repeat' split) <;> rfl
@[simp] theorem pushEvent_pages (r : EvRec) : (pushEvent r s).pages = s.pages := by unfold pushEvent; simp only; (repeat' split) <;> rfl
@[simp] theorem pushEvent_pageNo (r : EvRec) : (pushEvent r s).pageNo = s.pageNo := by unfold pushEvent; simp only; (repeat' split) <;> rfl
@[simp] theorem pushEvent_pd (r : EvRec) : (pushEvent r s).pd = s.pd := by unfold pushEvent; simp only; (repeat' split) <;> rfl
@[simp] theorem pushEvent_epochIdx (r : EvRec) : (pushEvent r s).epochIdx = s.epochIdx := by unfold pushEvent; simp only; (repeat' split) <;> rfl
@[simp] theorem pushEvent_rootStore (r : EvRec) : (pushEvent r s).rootStore = s.rootStore := by unfold pushEvent; simp only; (repeat' split) <;> rfl
@[simp] theorem pushEvent_lrings (r : EvRec) : (pushEvent r s).lrings = s.lrings := by unfold pushEvent; simp only; (repeat' split) <;> rfl
@[simp] theorem pushEvent_signQ (r : EvRec) : (pushEvent r s).signQ = s.signQ := by unfold pushEvent; simp only; (repeat' split) <;> rfl
@[simp] theorem pushEvent_batchNo (r : EvRec) : (pushEvent r s).batchNo = s.batchNo := by unfold pushEvent; simp only; (repeat' split) <;> rfl
@[simp] theorem pushEvent_elig (r : EvRec) : (pushEvent r s).elig = s.elig := by unfold pushEvent; simp only; (repeat' split) <;> rfl
@[simp] theorem pushEvent_ingress (r : EvRec) : (pushEvent r s).ingress = s.ingress := by unfold pushEvent; simp only; (repeat' split) <;> rfl
@[simp] theorem pushEvent_appended (r : EvRec) : (pushEvent r s).appended = s.appended := by unfold pushEvent; simp only; (repeat' split) <;> rfl
@[simp] theorem pushEvent_jsBase (r : EvRec) : (pushEvent r s).jsBase = s.jsBase := by unfold pushEvent; simp only; (repeat' split) <;> rfl
@[simp] theorem pushEvent_jsLog2 (r : EvRec) : (pushEvent r s).jsLog2 = s.jsLog2 := by unfold pushEvent; simp only; (repeat' split) <;> rfl
@[simp] theorem pushEvent_jsActive (r : EvRec) : (pushEvent r s).jsActive = s.jsActive := by unfold pushEvent; simp only; (repeat' split) <;> rfl
@[simp] theorem pushEvent_jsBad (r : EvRec) : (pushEvent r s).jsBad = s.jsBad := by unfold pushEvent; simp only; (repeat' split) <;> rfl
@[simp] theorem pushEvent_storeFault (r : EvRec) : (pushEvent r s).storeFault = s.storeFault := by unfold pushEvent; simp only; (repeat' split) <;> rfl
@[simp] theorem pushEvent_storeStall (r : EvRec) : (pushEvent r s).storeStall = s.storeStall := by unfold pushEvent; simp only; (repeat' split) <;> rfl
@[simp] theorem pushEvent_quiesced (r : EvRec) : (pushEvent r s).quiesced = s.quiesced := by unfold pushEvent; simp only; (repeat' split) <;> rfl
@[simp] theorem pushEvent_ckptOverdue (r : EvRec) : (pushEvent r s).ckptOverdue = s.ckptOverdue := by unfold pushEvent; simp only; (repeat' split) <;> rfl
@[simp] theorem pushEvent_ckptAt (r : EvRec) : (pushEvent r s).ckptAt = s.ckptAt := by unfold pushEvent; simp only; (repeat' split) <;> rfl
@[simp] theorem pushEvent_ckptReq (r : EvRec) : (pushEvent r s).ckptReq = s.ckptReq := by unfold pushEvent; simp only; (repeat' split) <;> rfl
@[simp] theorem pushEvent_ckptDirty (r : EvRec) : (pushEvent r s).ckptDirty = s.ckptDirty := by unfold pushEvent; simp only; (repeat' split) <;> rfl
@[simp] theorem pushEvent_lastCkptSec (r : EvRec) : (pushEvent r s).lastCkptSec = s.lastCkptSec := by unfold pushEvent; simp only; (repeat' split) <;> rfl
@[simp] theorem pushEvent_draws (r : EvRec) : (pushEvent r s).draws = s.draws := by unfold pushEvent; simp only; (repeat' split) <;> rfl
@[simp] theorem pushEvent_rngPeriod (r : EvRec) : (pushEvent r s).rngPeriod = s.rngPeriod := by unfold pushEvent; simp only; (repeat' split) <;> rfl
@[simp] theorem pushEvent_rngT0 (r : EvRec) : (pushEvent r s).rngT0 = s.rngT0 := by unfold pushEvent; simp only; (repeat' split) <;> rfl
@[simp] theorem pushEvent_vault (r : EvRec) : (pushEvent r s).vault = s.vault := by unfold pushEvent; simp only; (repeat' split) <;> rfl
@[simp] theorem pushEvent_images (r : EvRec) : (pushEvent r s).images = s.images := by unfold pushEvent; simp only; (repeat' split) <;> rfl
@[simp] theorem pushEvent_ports (r : EvRec) : (pushEvent r s).ports = s.ports := by unfold pushEvent; simp only; (repeat' split) <;> rfl
@[simp] theorem pushEvent_lcs (r : EvRec) : (pushEvent r s).lcs = s.lcs := by unfold pushEvent; simp only; (repeat' split) <;> rfl
@[simp] theorem pushEvent_otp (r : EvRec) : (pushEvent r s).otp = s.otp := by unfold pushEvent; simp only; (repeat' split) <;> rfl
@[simp] theorem pushEvent_life (r : EvRec) : (pushEvent r s).life = s.life := by unfold pushEvent; simp only; (repeat' split) <;> rfl
@[simp] theorem pushEvent_lining (r : EvRec) : (pushEvent r s).lining = s.lining := by unfold pushEvent; simp only; (repeat' split) <;> rfl
@[simp] theorem pushEvent_locked (r : EvRec) : (pushEvent r s).locked = s.locked := by unfold pushEvent; simp only; (repeat' split) <;> rfl
@[simp] theorem pushEvent_tamper (r : EvRec) : (pushEvent r s).tamper = s.tamper := by unfold pushEvent; simp only; (repeat' split) <;> rfl
@[simp] theorem pushEvent_fw (r : EvRec) : (pushEvent r s).fw = s.fw := by unfold pushEvent; simp only; (repeat' split) <;> rfl
@[simp] theorem pushEvent_hatter (r : EvRec) : (pushEvent r s).hatter = s.hatter := by unfold pushEvent; simp only; (repeat' split) <;> rfl
@[simp] theorem pushEvent_snap (r : EvRec) : (pushEvent r s).snap = s.snap := by unfold pushEvent; simp only; (repeat' split) <;> rfl
@[simp] theorem pushEvent_pwr (r : EvRec) : (pushEvent r s).pwr = s.pwr := by unfold pushEvent; simp only; (repeat' split) <;> rfl
@[simp] theorem pushEvent_startStep (r : EvRec) : (pushEvent r s).startStep = s.startStep := by unfold pushEvent; simp only; (repeat' split) <;> rfl
@[simp] theorem pushEvent_pwrState (r : EvRec) : (pushEvent r s).pwrState = s.pwrState := by unfold pushEvent; simp only; (repeat' split) <;> rfl
@[simp] theorem pushEvent_hold (r : EvRec) : (pushEvent r s).hold = s.hold := by unfold pushEvent; simp only; (repeat' split) <;> rfl
@[simp] theorem pushEvent_free (r : EvRec) : (pushEvent r s).free = s.free := by unfold pushEvent; simp only; (repeat' split) <;> rfl
@[simp] theorem pushEvent_out (r : EvRec) : (pushEvent r s).out = s.out := by unfold pushEvent; simp only; (repeat' split) <;> rfl
@[simp] theorem pushEvent_pending (r : EvRec) : (pushEvent r s).pending = s.pending := by unfold pushEvent; simp only; (repeat' split) <;> rfl

@[simp] theorem recEventAt_part (d c k : Nat) (b : Bytes) : (recEventAt d c k b s).part = s.part := by unfold recEventAt; simp only; split <;> simp
@[simp] theorem recEventAt_grade (d c k : Nat) (b : Bytes) : (recEventAt d c k b s).grade = s.grade := by unfold recEventAt; simp only; split <;> simp
@[simp] theorem recEventAt_rev (d c k : Nat) (b : Bytes) : (recEventAt d c k b s).rev = s.rev := by unfold recEventAt; simp only; split <;> simp
@[simp] theorem recEventAt_time (d c k : Nat) (b : Bytes) : (recEventAt d c k b s).time = s.time := by unfold recEventAt; simp only; split <;> simp
@[simp] theorem recEventAt_ecfg (d c k : Nat) (b : Bytes) : (recEventAt d c k b s).ecfg = s.ecfg := by unfold recEventAt; simp only; split <;> simp
@[simp] theorem recEventAt_epc (d c k : Nat) (b : Bytes) : (recEventAt d c k b s).epc = s.epc := by unfold recEventAt; simp only; split <;> simp
@[simp] theorem recEventAt_authorities (d c k : Nat) (b : Bytes) : (recEventAt d c k b s).authorities = s.authorities := by unfold recEventAt; simp only; split <;> simp
@[simp] theorem recEventAt_fns (d c k : Nat) (b : Bytes) : (recEventAt d c k b s).fns = s.fns := by unfold recEventAt; simp only; split <;> simp
@[simp] theorem recEventAt_vfEnable (d c k : Nat) (b : Bytes) : (recEventAt d c k b s).vfEnable = s.vfEnable := by unfold recEventAt; simp only; split <;> simp
@[simp] theorem recEventAt_numVfs (d c k : Nat) (b : Bytes) : (recEventAt d c k b s).numVfs = s.numVfs := by unfold recEventAt; simp only; split <;> simp
@[simp] theorem recEventAt_page64 (d c k : Nat) (b : Bytes) : (recEventAt d c k b s).page64 = s.page64 := by unfold recEventAt; simp only; split <;> simp
@[simp] theorem recEventAt_tenants (d c k : Nat) (b : Bytes) : (recEventAt d c k b s).tenants = s.tenants := by unfold recEventAt; simp only; split <;> simp
@[simp] theorem recEventAt_jobs (d c k : Nat) (b : Bytes) : (recEventAt d c k b s).jobs = s.jobs := by unfold recEventAt; simp only; split <;> simp
@[simp] theorem recEventAt_nextJob (d c k : Nat) (b : Bytes) : (recEventAt d c k b s).nextJob = s.nextJob := by unfold recEventAt; simp only; split <;> simp
@[simp] theorem recEventAt_nextCreation (d c k : Nat) (b : Bytes) : (recEventAt d c k b s).nextCreation = s.nextCreation := by unfold recEventAt; simp only; split <;> simp
@[simp] theorem recEventAt_rrAdmin (d c k : Nat) (b : Bytes) : (recEventAt d c k b s).rrAdmin = s.rrAdmin := by unfold recEventAt; simp only; split <;> simp
@[simp] theorem recEventAt_rrService (d c k : Nat) (b : Bytes) : (recEventAt d c k b s).rrService = s.rrService := by unfold recEventAt; simp only; split <;> simp
@[simp] theorem recEventAt_rrWork (d c k : Nat) (b : Bytes) : (recEventAt d c k b s).rrWork = s.rrWork := by unfold recEventAt; simp only; split <;> simp
@[simp] theorem recEventAt_visit (d c k : Nat) (b : Bytes) : (recEventAt d c k b s).visit = s.visit := by unfold recEventAt; simp only; split <;> simp
@[simp] theorem recEventAt_takeUs (d c k : Nat) (b : Bytes) : (recEventAt d c k b s).takeUs = s.takeUs := by unfold recEventAt; simp only; split <;> simp
@[simp] theorem recEventAt_takeCount (d c k : Nat) (b : Bytes) : (recEventAt d c k b s).takeCount = s.takeCount := by unfold recEventAt; simp only; split <;> simp
@[simp] theorem recEventAt_takeSvc (d c k : Nat) (b : Bytes) : (recEventAt d c k b s).takeSvc = s.takeSvc := by unfold recEventAt; simp only; split <;> simp
@[simp] theorem recEventAt_dies (d c k : Nat) (b : Bytes) : (recEventAt d c k b s).dies = s.dies := by unfold recEventAt; simp only; split <;> simp
@[simp] theorem recEventAt_dieChanged (d c k : Nat) (b : Bytes) : (recEventAt d c k b s).dieChanged = s.dieChanged := by unfold recEventAt; simp only; split <;> simp
@[simp] theorem recEventAt_crownFault (d c k : Nat) (b : Bytes) : (recEventAt d c k b s).crownFault = s.crownFault := by unfold recEventAt; simp only; split <;> simp
@[simp] theorem recEventAt_fence (d c k : Nat) (b : Bytes) : (recEventAt d c k b s).fence = s.fence := by unfold recEventAt; simp only; split <;> simp
@[simp] theorem recEventAt_fnEvent (d c k : Nat) (b : Bytes) : (recEventAt d c k b s).fnEvent = s.fnEvent := by unfold recEventAt; simp only; split <;> simp
@[simp] theorem recEventAt_badOffset (d c k : Nat) (b : Bytes) : (recEventAt d c k b s).badOffset = s.badOffset := by unfold recEventAt; simp only; split <;> simp
@[simp] theorem recEventAt_badCount (d c k : Nat) (b : Bytes) : (recEventAt d c k b s).badCount = s.badCount := by unfold recEventAt; simp only; split <;> simp
@[simp] theorem recEventAt_latches (d c k : Nat) (b : Bytes) : (recEventAt d c k b s).latches = s.latches := by unfold recEventAt; simp only; split <;> simp
@[simp] theorem recEventAt_linkWidth (d c k : Nat) (b : Bytes) : (recEventAt d c k b s).linkWidth = s.linkWidth := by unfold recEventAt; simp only; split <;> simp
@[simp] theorem recEventAt_linkSpeed (d c k : Nat) (b : Bytes) : (recEventAt d c k b s).linkSpeed = s.linkSpeed := by unfold recEventAt; simp only; split <;> simp
@[simp] theorem recEventAt_linkFatal (d c k : Nat) (b : Bytes) : (recEventAt d c k b s).linkFatal = s.linkFatal := by unfold recEventAt; simp only; split <;> simp
@[simp] theorem recEventAt_evFlash (d c k : Nat) (b : Bytes) : (recEventAt d c k b s).evFlash = s.evFlash := by unfold recEventAt; simp only; split <;> simp
@[simp] theorem recEventAt_evNext (d c k : Nat) (b : Bytes) : (recEventAt d c k b s).evNext = s.evNext := by unfold recEventAt; simp only; split <;> simp
@[simp] theorem recEventAt_pfFresh (d c k : Nat) (b : Bytes) : (recEventAt d c k b s).pfFresh = s.pfFresh := by unfold recEventAt; simp only; split <;> simp
@[simp] theorem recEventAt_psnNext (d c k : Nat) (b : Bytes) : (recEventAt d c k b s).psnNext = s.psnNext := by unfold recEventAt; simp only; split <;> simp
@[simp] theorem recEventAt_psnCeil (d c k : Nat) (b : Bytes) : (recEventAt d c k b s).psnCeil = s.psnCeil := by unfold recEventAt; simp only; split <;> simp
@[simp] theorem recEventAt_psnWriting (d c k : Nat) (b : Bytes) : (recEventAt d c k b s).psnWriting = s.psnWriting := by unfold recEventAt; simp only; split <;> simp
@[simp] theorem recEventAt_ledgers (d c k : Nat) (b : Bytes) : (recEventAt d c k b s).ledgers = s.ledgers := by unfold recEventAt; simp only; split <;> simp
@[simp] theorem recEventAt_pkg (d c k : Nat) (b : Bytes) : (recEventAt d c k b s).pkg = s.pkg := by unfold recEventAt; simp only; split <;> simp
@[simp] theorem recEventAt_pkgFinal (d c k : Nat) (b : Bytes) : (recEventAt d c k b s).pkgFinal = s.pkgFinal := by unfold recEventAt; simp only; split <;> simp
@[simp] theorem recEventAt_pages (d c k : Nat) (b : Bytes) : (recEventAt d c k b s).pages = s.pages := by unfold recEventAt; simp only; split <;> simp
@[simp] theorem recEventAt_pageNo (d c k : Nat) (b : Bytes) : (recEventAt d c k b s).pageNo = s.pageNo := by unfold recEventAt; simp only; split <;> simp
@[simp] theorem recEventAt_pd (d c k : Nat) (b : Bytes) : (recEventAt d c k b s).pd = s.pd := by unfold recEventAt; simp only; split <;> simp
@[simp] theorem recEventAt_epochIdx (d c k : Nat) (b : Bytes) : (recEventAt d c k b s).epochIdx = s.epochIdx := by unfold recEventAt; simp only; split <;> simp
@[simp] theorem recEventAt_rootStore (d c k : Nat) (b : Bytes) : (recEventAt d c k b s).rootStore = s.rootStore := by unfold recEventAt; simp only; split <;> simp
@[simp] theorem recEventAt_lrings (d c k : Nat) (b : Bytes) : (recEventAt d c k b s).lrings = s.lrings := by unfold recEventAt; simp only; split <;> simp
@[simp] theorem recEventAt_signQ (d c k : Nat) (b : Bytes) : (recEventAt d c k b s).signQ = s.signQ := by unfold recEventAt; simp only; split <;> simp
@[simp] theorem recEventAt_batchNo (d c k : Nat) (b : Bytes) : (recEventAt d c k b s).batchNo = s.batchNo := by unfold recEventAt; simp only; split <;> simp
@[simp] theorem recEventAt_elig (d c k : Nat) (b : Bytes) : (recEventAt d c k b s).elig = s.elig := by unfold recEventAt; simp only; split <;> simp
@[simp] theorem recEventAt_ingress (d c k : Nat) (b : Bytes) : (recEventAt d c k b s).ingress = s.ingress := by unfold recEventAt; simp only; split <;> simp
@[simp] theorem recEventAt_appended (d c k : Nat) (b : Bytes) : (recEventAt d c k b s).appended = s.appended := by unfold recEventAt; simp only; split <;> simp
@[simp] theorem recEventAt_jsBase (d c k : Nat) (b : Bytes) : (recEventAt d c k b s).jsBase = s.jsBase := by unfold recEventAt; simp only; split <;> simp
@[simp] theorem recEventAt_jsLog2 (d c k : Nat) (b : Bytes) : (recEventAt d c k b s).jsLog2 = s.jsLog2 := by unfold recEventAt; simp only; split <;> simp
@[simp] theorem recEventAt_jsActive (d c k : Nat) (b : Bytes) : (recEventAt d c k b s).jsActive = s.jsActive := by unfold recEventAt; simp only; split <;> simp
@[simp] theorem recEventAt_jsBad (d c k : Nat) (b : Bytes) : (recEventAt d c k b s).jsBad = s.jsBad := by unfold recEventAt; simp only; split <;> simp
@[simp] theorem recEventAt_storeFault (d c k : Nat) (b : Bytes) : (recEventAt d c k b s).storeFault = s.storeFault := by unfold recEventAt; simp only; split <;> simp
@[simp] theorem recEventAt_storeStall (d c k : Nat) (b : Bytes) : (recEventAt d c k b s).storeStall = s.storeStall := by unfold recEventAt; simp only; split <;> simp
@[simp] theorem recEventAt_quiesced (d c k : Nat) (b : Bytes) : (recEventAt d c k b s).quiesced = s.quiesced := by unfold recEventAt; simp only; split <;> simp
@[simp] theorem recEventAt_ckptOverdue (d c k : Nat) (b : Bytes) : (recEventAt d c k b s).ckptOverdue = s.ckptOverdue := by unfold recEventAt; simp only; split <;> simp
@[simp] theorem recEventAt_ckptAt (d c k : Nat) (b : Bytes) : (recEventAt d c k b s).ckptAt = s.ckptAt := by unfold recEventAt; simp only; split <;> simp
@[simp] theorem recEventAt_ckptReq (d c k : Nat) (b : Bytes) : (recEventAt d c k b s).ckptReq = s.ckptReq := by unfold recEventAt; simp only; split <;> simp
@[simp] theorem recEventAt_ckptDirty (d c k : Nat) (b : Bytes) : (recEventAt d c k b s).ckptDirty = s.ckptDirty := by unfold recEventAt; simp only; split <;> simp
@[simp] theorem recEventAt_lastCkptSec (d c k : Nat) (b : Bytes) : (recEventAt d c k b s).lastCkptSec = s.lastCkptSec := by unfold recEventAt; simp only; split <;> simp
@[simp] theorem recEventAt_draws (d c k : Nat) (b : Bytes) : (recEventAt d c k b s).draws = s.draws := by unfold recEventAt; simp only; split <;> simp
@[simp] theorem recEventAt_rngPeriod (d c k : Nat) (b : Bytes) : (recEventAt d c k b s).rngPeriod = s.rngPeriod := by unfold recEventAt; simp only; split <;> simp
@[simp] theorem recEventAt_rngT0 (d c k : Nat) (b : Bytes) : (recEventAt d c k b s).rngT0 = s.rngT0 := by unfold recEventAt; simp only; split <;> simp
@[simp] theorem recEventAt_vault (d c k : Nat) (b : Bytes) : (recEventAt d c k b s).vault = s.vault := by unfold recEventAt; simp only; split <;> simp
@[simp] theorem recEventAt_images (d c k : Nat) (b : Bytes) : (recEventAt d c k b s).images = s.images := by unfold recEventAt; simp only; split <;> simp
@[simp] theorem recEventAt_ports (d c k : Nat) (b : Bytes) : (recEventAt d c k b s).ports = s.ports := by unfold recEventAt; simp only; split <;> simp
@[simp] theorem recEventAt_lcs (d c k : Nat) (b : Bytes) : (recEventAt d c k b s).lcs = s.lcs := by unfold recEventAt; simp only; split <;> simp
@[simp] theorem recEventAt_otp (d c k : Nat) (b : Bytes) : (recEventAt d c k b s).otp = s.otp := by unfold recEventAt; simp only; split <;> simp
@[simp] theorem recEventAt_life (d c k : Nat) (b : Bytes) : (recEventAt d c k b s).life = s.life := by unfold recEventAt; simp only; split <;> simp
@[simp] theorem recEventAt_lining (d c k : Nat) (b : Bytes) : (recEventAt d c k b s).lining = s.lining := by unfold recEventAt; simp only; split <;> simp
@[simp] theorem recEventAt_locked (d c k : Nat) (b : Bytes) : (recEventAt d c k b s).locked = s.locked := by unfold recEventAt; simp only; split <;> simp
@[simp] theorem recEventAt_tamper (d c k : Nat) (b : Bytes) : (recEventAt d c k b s).tamper = s.tamper := by unfold recEventAt; simp only; split <;> simp
@[simp] theorem recEventAt_fw (d c k : Nat) (b : Bytes) : (recEventAt d c k b s).fw = s.fw := by unfold recEventAt; simp only; split <;> simp
@[simp] theorem recEventAt_hatter (d c k : Nat) (b : Bytes) : (recEventAt d c k b s).hatter = s.hatter := by unfold recEventAt; simp only; split <;> simp
@[simp] theorem recEventAt_snap (d c k : Nat) (b : Bytes) : (recEventAt d c k b s).snap = s.snap := by unfold recEventAt; simp only; split <;> simp
@[simp] theorem recEventAt_pwr (d c k : Nat) (b : Bytes) : (recEventAt d c k b s).pwr = s.pwr := by unfold recEventAt; simp only; split <;> simp
@[simp] theorem recEventAt_startStep (d c k : Nat) (b : Bytes) : (recEventAt d c k b s).startStep = s.startStep := by unfold recEventAt; simp only; split <;> simp
@[simp] theorem recEventAt_pwrState (d c k : Nat) (b : Bytes) : (recEventAt d c k b s).pwrState = s.pwrState := by unfold recEventAt; simp only; split <;> simp
@[simp] theorem recEventAt_hold (d c k : Nat) (b : Bytes) : (recEventAt d c k b s).hold = s.hold := by unfold recEventAt; simp only; split <;> simp
@[simp] theorem recEventAt_free (d c k : Nat) (b : Bytes) : (recEventAt d c k b s).free = s.free := by unfold recEventAt; simp only; split <;> simp
@[simp] theorem recEventAt_out (d c k : Nat) (b : Bytes) : (recEventAt d c k b s).out = s.out := by unfold recEventAt; simp only; split <;> simp
@[simp] theorem recEventAt_pending (d c k : Nat) (b : Bytes) : (recEventAt d c k b s).pending = s.pending := by unfold recEventAt; simp only; split <;> simp

@[simp] theorem recEvent_part (k : Nat) (b : Bytes) : (recEvent k b s).part = s.part := by simp [recEvent]
@[simp] theorem recEvent_grade (k : Nat) (b : Bytes) : (recEvent k b s).grade = s.grade := by simp [recEvent]
@[simp] theorem recEvent_rev (k : Nat) (b : Bytes) : (recEvent k b s).rev = s.rev := by simp [recEvent]
@[simp] theorem recEvent_time (k : Nat) (b : Bytes) : (recEvent k b s).time = s.time := by simp [recEvent]
@[simp] theorem recEvent_ecfg (k : Nat) (b : Bytes) : (recEvent k b s).ecfg = s.ecfg := by simp [recEvent]
@[simp] theorem recEvent_epc (k : Nat) (b : Bytes) : (recEvent k b s).epc = s.epc := by simp [recEvent]
@[simp] theorem recEvent_authorities (k : Nat) (b : Bytes) : (recEvent k b s).authorities = s.authorities := by simp [recEvent]
@[simp] theorem recEvent_fns (k : Nat) (b : Bytes) : (recEvent k b s).fns = s.fns := by simp [recEvent]
@[simp] theorem recEvent_vfEnable (k : Nat) (b : Bytes) : (recEvent k b s).vfEnable = s.vfEnable := by simp [recEvent]
@[simp] theorem recEvent_numVfs (k : Nat) (b : Bytes) : (recEvent k b s).numVfs = s.numVfs := by simp [recEvent]
@[simp] theorem recEvent_page64 (k : Nat) (b : Bytes) : (recEvent k b s).page64 = s.page64 := by simp [recEvent]
@[simp] theorem recEvent_tenants (k : Nat) (b : Bytes) : (recEvent k b s).tenants = s.tenants := by simp [recEvent]
@[simp] theorem recEvent_jobs (k : Nat) (b : Bytes) : (recEvent k b s).jobs = s.jobs := by simp [recEvent]
@[simp] theorem recEvent_nextJob (k : Nat) (b : Bytes) : (recEvent k b s).nextJob = s.nextJob := by simp [recEvent]
@[simp] theorem recEvent_nextCreation (k : Nat) (b : Bytes) : (recEvent k b s).nextCreation = s.nextCreation := by simp [recEvent]
@[simp] theorem recEvent_rrAdmin (k : Nat) (b : Bytes) : (recEvent k b s).rrAdmin = s.rrAdmin := by simp [recEvent]
@[simp] theorem recEvent_rrService (k : Nat) (b : Bytes) : (recEvent k b s).rrService = s.rrService := by simp [recEvent]
@[simp] theorem recEvent_rrWork (k : Nat) (b : Bytes) : (recEvent k b s).rrWork = s.rrWork := by simp [recEvent]
@[simp] theorem recEvent_visit (k : Nat) (b : Bytes) : (recEvent k b s).visit = s.visit := by simp [recEvent]
@[simp] theorem recEvent_takeUs (k : Nat) (b : Bytes) : (recEvent k b s).takeUs = s.takeUs := by simp [recEvent]
@[simp] theorem recEvent_takeCount (k : Nat) (b : Bytes) : (recEvent k b s).takeCount = s.takeCount := by simp [recEvent]
@[simp] theorem recEvent_takeSvc (k : Nat) (b : Bytes) : (recEvent k b s).takeSvc = s.takeSvc := by simp [recEvent]
@[simp] theorem recEvent_dies (k : Nat) (b : Bytes) : (recEvent k b s).dies = s.dies := by simp [recEvent]
@[simp] theorem recEvent_dieChanged (k : Nat) (b : Bytes) : (recEvent k b s).dieChanged = s.dieChanged := by simp [recEvent]
@[simp] theorem recEvent_crownFault (k : Nat) (b : Bytes) : (recEvent k b s).crownFault = s.crownFault := by simp [recEvent]
@[simp] theorem recEvent_fence (k : Nat) (b : Bytes) : (recEvent k b s).fence = s.fence := by simp [recEvent]
@[simp] theorem recEvent_fnEvent (k : Nat) (b : Bytes) : (recEvent k b s).fnEvent = s.fnEvent := by simp [recEvent]
@[simp] theorem recEvent_badOffset (k : Nat) (b : Bytes) : (recEvent k b s).badOffset = s.badOffset := by simp [recEvent]
@[simp] theorem recEvent_badCount (k : Nat) (b : Bytes) : (recEvent k b s).badCount = s.badCount := by simp [recEvent]
@[simp] theorem recEvent_latches (k : Nat) (b : Bytes) : (recEvent k b s).latches = s.latches := by simp [recEvent]
@[simp] theorem recEvent_linkWidth (k : Nat) (b : Bytes) : (recEvent k b s).linkWidth = s.linkWidth := by simp [recEvent]
@[simp] theorem recEvent_linkSpeed (k : Nat) (b : Bytes) : (recEvent k b s).linkSpeed = s.linkSpeed := by simp [recEvent]
@[simp] theorem recEvent_linkFatal (k : Nat) (b : Bytes) : (recEvent k b s).linkFatal = s.linkFatal := by simp [recEvent]
@[simp] theorem recEvent_evFlash (k : Nat) (b : Bytes) : (recEvent k b s).evFlash = s.evFlash := by simp [recEvent]
@[simp] theorem recEvent_evNext (k : Nat) (b : Bytes) : (recEvent k b s).evNext = s.evNext := by simp [recEvent]
@[simp] theorem recEvent_pfFresh (k : Nat) (b : Bytes) : (recEvent k b s).pfFresh = s.pfFresh := by simp [recEvent]
@[simp] theorem recEvent_psnNext (k : Nat) (b : Bytes) : (recEvent k b s).psnNext = s.psnNext := by simp [recEvent]
@[simp] theorem recEvent_psnCeil (k : Nat) (b : Bytes) : (recEvent k b s).psnCeil = s.psnCeil := by simp [recEvent]
@[simp] theorem recEvent_psnWriting (k : Nat) (b : Bytes) : (recEvent k b s).psnWriting = s.psnWriting := by simp [recEvent]
@[simp] theorem recEvent_ledgers (k : Nat) (b : Bytes) : (recEvent k b s).ledgers = s.ledgers := by simp [recEvent]
@[simp] theorem recEvent_pkg (k : Nat) (b : Bytes) : (recEvent k b s).pkg = s.pkg := by simp [recEvent]
@[simp] theorem recEvent_pkgFinal (k : Nat) (b : Bytes) : (recEvent k b s).pkgFinal = s.pkgFinal := by simp [recEvent]
@[simp] theorem recEvent_pages (k : Nat) (b : Bytes) : (recEvent k b s).pages = s.pages := by simp [recEvent]
@[simp] theorem recEvent_pageNo (k : Nat) (b : Bytes) : (recEvent k b s).pageNo = s.pageNo := by simp [recEvent]
@[simp] theorem recEvent_pd (k : Nat) (b : Bytes) : (recEvent k b s).pd = s.pd := by simp [recEvent]
@[simp] theorem recEvent_epochIdx (k : Nat) (b : Bytes) : (recEvent k b s).epochIdx = s.epochIdx := by simp [recEvent]
@[simp] theorem recEvent_rootStore (k : Nat) (b : Bytes) : (recEvent k b s).rootStore = s.rootStore := by simp [recEvent]
@[simp] theorem recEvent_lrings (k : Nat) (b : Bytes) : (recEvent k b s).lrings = s.lrings := by simp [recEvent]
@[simp] theorem recEvent_signQ (k : Nat) (b : Bytes) : (recEvent k b s).signQ = s.signQ := by simp [recEvent]
@[simp] theorem recEvent_batchNo (k : Nat) (b : Bytes) : (recEvent k b s).batchNo = s.batchNo := by simp [recEvent]
@[simp] theorem recEvent_elig (k : Nat) (b : Bytes) : (recEvent k b s).elig = s.elig := by simp [recEvent]
@[simp] theorem recEvent_ingress (k : Nat) (b : Bytes) : (recEvent k b s).ingress = s.ingress := by simp [recEvent]
@[simp] theorem recEvent_appended (k : Nat) (b : Bytes) : (recEvent k b s).appended = s.appended := by simp [recEvent]
@[simp] theorem recEvent_jsBase (k : Nat) (b : Bytes) : (recEvent k b s).jsBase = s.jsBase := by simp [recEvent]
@[simp] theorem recEvent_jsLog2 (k : Nat) (b : Bytes) : (recEvent k b s).jsLog2 = s.jsLog2 := by simp [recEvent]
@[simp] theorem recEvent_jsActive (k : Nat) (b : Bytes) : (recEvent k b s).jsActive = s.jsActive := by simp [recEvent]
@[simp] theorem recEvent_jsBad (k : Nat) (b : Bytes) : (recEvent k b s).jsBad = s.jsBad := by simp [recEvent]
@[simp] theorem recEvent_storeFault (k : Nat) (b : Bytes) : (recEvent k b s).storeFault = s.storeFault := by simp [recEvent]
@[simp] theorem recEvent_storeStall (k : Nat) (b : Bytes) : (recEvent k b s).storeStall = s.storeStall := by simp [recEvent]
@[simp] theorem recEvent_quiesced (k : Nat) (b : Bytes) : (recEvent k b s).quiesced = s.quiesced := by simp [recEvent]
@[simp] theorem recEvent_ckptOverdue (k : Nat) (b : Bytes) : (recEvent k b s).ckptOverdue = s.ckptOverdue := by simp [recEvent]
@[simp] theorem recEvent_ckptAt (k : Nat) (b : Bytes) : (recEvent k b s).ckptAt = s.ckptAt := by simp [recEvent]
@[simp] theorem recEvent_ckptReq (k : Nat) (b : Bytes) : (recEvent k b s).ckptReq = s.ckptReq := by simp [recEvent]
@[simp] theorem recEvent_ckptDirty (k : Nat) (b : Bytes) : (recEvent k b s).ckptDirty = s.ckptDirty := by simp [recEvent]
@[simp] theorem recEvent_lastCkptSec (k : Nat) (b : Bytes) : (recEvent k b s).lastCkptSec = s.lastCkptSec := by simp [recEvent]
@[simp] theorem recEvent_draws (k : Nat) (b : Bytes) : (recEvent k b s).draws = s.draws := by simp [recEvent]
@[simp] theorem recEvent_rngPeriod (k : Nat) (b : Bytes) : (recEvent k b s).rngPeriod = s.rngPeriod := by simp [recEvent]
@[simp] theorem recEvent_rngT0 (k : Nat) (b : Bytes) : (recEvent k b s).rngT0 = s.rngT0 := by simp [recEvent]
@[simp] theorem recEvent_vault (k : Nat) (b : Bytes) : (recEvent k b s).vault = s.vault := by simp [recEvent]
@[simp] theorem recEvent_images (k : Nat) (b : Bytes) : (recEvent k b s).images = s.images := by simp [recEvent]
@[simp] theorem recEvent_ports (k : Nat) (b : Bytes) : (recEvent k b s).ports = s.ports := by simp [recEvent]
@[simp] theorem recEvent_lcs (k : Nat) (b : Bytes) : (recEvent k b s).lcs = s.lcs := by simp [recEvent]
@[simp] theorem recEvent_otp (k : Nat) (b : Bytes) : (recEvent k b s).otp = s.otp := by simp [recEvent]
@[simp] theorem recEvent_life (k : Nat) (b : Bytes) : (recEvent k b s).life = s.life := by simp [recEvent]
@[simp] theorem recEvent_lining (k : Nat) (b : Bytes) : (recEvent k b s).lining = s.lining := by simp [recEvent]
@[simp] theorem recEvent_locked (k : Nat) (b : Bytes) : (recEvent k b s).locked = s.locked := by simp [recEvent]
@[simp] theorem recEvent_tamper (k : Nat) (b : Bytes) : (recEvent k b s).tamper = s.tamper := by simp [recEvent]
@[simp] theorem recEvent_fw (k : Nat) (b : Bytes) : (recEvent k b s).fw = s.fw := by simp [recEvent]
@[simp] theorem recEvent_hatter (k : Nat) (b : Bytes) : (recEvent k b s).hatter = s.hatter := by simp [recEvent]
@[simp] theorem recEvent_snap (k : Nat) (b : Bytes) : (recEvent k b s).snap = s.snap := by simp [recEvent]
@[simp] theorem recEvent_pwr (k : Nat) (b : Bytes) : (recEvent k b s).pwr = s.pwr := by simp [recEvent]
@[simp] theorem recEvent_startStep (k : Nat) (b : Bytes) : (recEvent k b s).startStep = s.startStep := by simp [recEvent]
@[simp] theorem recEvent_pwrState (k : Nat) (b : Bytes) : (recEvent k b s).pwrState = s.pwrState := by simp [recEvent]
@[simp] theorem recEvent_hold (k : Nat) (b : Bytes) : (recEvent k b s).hold = s.hold := by simp [recEvent]
@[simp] theorem recEvent_free (k : Nat) (b : Bytes) : (recEvent k b s).free = s.free := by simp [recEvent]
@[simp] theorem recEvent_out (k : Nat) (b : Bytes) : (recEvent k b s).out = s.out := by simp [recEvent]
@[simp] theorem recEvent_pending (k : Nat) (b : Bytes) : (recEvent k b s).pending = s.pending := by simp [recEvent]

@[simp] theorem signal_part (n v : Nat) : (signal n v s).part = s.part := by unfold signal; simp only; (repeat' split) <;> rfl
@[simp] theorem signal_grade (n v : Nat) : (signal n v s).grade = s.grade := by unfold signal; simp only; (repeat' split) <;> rfl
@[simp] theorem signal_rev (n v : Nat) : (signal n v s).rev = s.rev := by unfold signal; simp only; (repeat' split) <;> rfl
@[simp] theorem signal_time (n v : Nat) : (signal n v s).time = s.time := by unfold signal; simp only; (repeat' split) <;> rfl
@[simp] theorem signal_ecfg (n v : Nat) : (signal n v s).ecfg = s.ecfg := by unfold signal; simp only; (repeat' split) <;> rfl
@[simp] theorem signal_epc (n v : Nat) : (signal n v s).epc = s.epc := by unfold signal; simp only; (repeat' split) <;> rfl
@[simp] theorem signal_authorities (n v : Nat) : (signal n v s).authorities = s.authorities := by unfold signal; simp only; (repeat' split) <;> rfl
@[simp] theorem signal_vfEnable (n v : Nat) : (signal n v s).vfEnable = s.vfEnable := by unfold signal; simp only; (repeat' split) <;> rfl
@[simp] theorem signal_numVfs (n v : Nat) : (signal n v s).numVfs = s.numVfs := by unfold signal; simp only; (repeat' split) <;> rfl
@[simp] theorem signal_page64 (n v : Nat) : (signal n v s).page64 = s.page64 := by unfold signal; simp only; (repeat' split) <;> rfl
@[simp] theorem signal_tenants (n v : Nat) : (signal n v s).tenants = s.tenants := by unfold signal; simp only; (repeat' split) <;> rfl
@[simp] theorem signal_jobs (n v : Nat) : (signal n v s).jobs = s.jobs := by unfold signal; simp only; (repeat' split) <;> rfl
@[simp] theorem signal_nextJob (n v : Nat) : (signal n v s).nextJob = s.nextJob := by unfold signal; simp only; (repeat' split) <;> rfl
@[simp] theorem signal_nextCreation (n v : Nat) : (signal n v s).nextCreation = s.nextCreation := by unfold signal; simp only; (repeat' split) <;> rfl
@[simp] theorem signal_rrAdmin (n v : Nat) : (signal n v s).rrAdmin = s.rrAdmin := by unfold signal; simp only; (repeat' split) <;> rfl
@[simp] theorem signal_rrService (n v : Nat) : (signal n v s).rrService = s.rrService := by unfold signal; simp only; (repeat' split) <;> rfl
@[simp] theorem signal_rrWork (n v : Nat) : (signal n v s).rrWork = s.rrWork := by unfold signal; simp only; (repeat' split) <;> rfl
@[simp] theorem signal_visit (n v : Nat) : (signal n v s).visit = s.visit := by unfold signal; simp only; (repeat' split) <;> rfl
@[simp] theorem signal_takeUs (n v : Nat) : (signal n v s).takeUs = s.takeUs := by unfold signal; simp only; (repeat' split) <;> rfl
@[simp] theorem signal_takeCount (n v : Nat) : (signal n v s).takeCount = s.takeCount := by unfold signal; simp only; (repeat' split) <;> rfl
@[simp] theorem signal_takeSvc (n v : Nat) : (signal n v s).takeSvc = s.takeSvc := by unfold signal; simp only; (repeat' split) <;> rfl
@[simp] theorem signal_dieChanged (n v : Nat) : (signal n v s).dieChanged = s.dieChanged := by unfold signal; simp only; (repeat' split) <;> rfl
@[simp] theorem signal_crownFault (n v : Nat) : (signal n v s).crownFault = s.crownFault := by unfold signal; simp only; (repeat' split) <;> rfl
@[simp] theorem signal_fence (n v : Nat) : (signal n v s).fence = s.fence := by unfold signal; simp only; (repeat' split) <;> rfl
@[simp] theorem signal_fnEvent (n v : Nat) : (signal n v s).fnEvent = s.fnEvent := by unfold signal; simp only; (repeat' split) <;> rfl
@[simp] theorem signal_badOffset (n v : Nat) : (signal n v s).badOffset = s.badOffset := by unfold signal; simp only; (repeat' split) <;> rfl
@[simp] theorem signal_badCount (n v : Nat) : (signal n v s).badCount = s.badCount := by unfold signal; simp only; (repeat' split) <;> rfl
@[simp] theorem signal_latches (n v : Nat) : (signal n v s).latches = s.latches := by unfold signal; simp only; (repeat' split) <;> rfl
@[simp] theorem signal_linkWidth (n v : Nat) : (signal n v s).linkWidth = s.linkWidth := by unfold signal; simp only; (repeat' split) <;> rfl
@[simp] theorem signal_linkSpeed (n v : Nat) : (signal n v s).linkSpeed = s.linkSpeed := by unfold signal; simp only; (repeat' split) <;> rfl
@[simp] theorem signal_linkFatal (n v : Nat) : (signal n v s).linkFatal = s.linkFatal := by unfold signal; simp only; (repeat' split) <;> rfl
@[simp] theorem signal_evBuf (n v : Nat) : (signal n v s).evBuf = s.evBuf := by unfold signal; simp only; (repeat' split) <;> rfl
@[simp] theorem signal_evFlash (n v : Nat) : (signal n v s).evFlash = s.evFlash := by unfold signal; simp only; (repeat' split) <;> rfl
@[simp] theorem signal_evNext (n v : Nat) : (signal n v s).evNext = s.evNext := by unfold signal; simp only; (repeat' split) <;> rfl
@[simp] theorem signal_evSuppressed (n v : Nat) : (signal n v s).evSuppressed = s.evSuppressed := by unfold signal; simp only; (repeat' split) <;> rfl
@[simp] theorem signal_evBursts (n v : Nat) : (signal n v s).evBursts = s.evBursts := by unfold signal; simp only; (repeat' split) <;> rfl
@[simp] theorem signal_pfFresh (n v : Nat) : (signal n v s).pfFresh = s.pfFresh := by unfold signal; simp only; (repeat' split) <;> rfl
@[simp] theorem signal_psnNext (n v : Nat) : (signal n v s).psnNext = s.psnNext := by unfold signal; simp only; (repeat' split) <;> rfl
@[simp] theorem signal_psnCeil (n v : Nat) : (signal n v s).psnCeil = s.psnCeil := by unfold signal; simp only; (repeat' split) <;> rfl
@[simp] theorem signal_psnWriting (n v : Nat) : (signal n v s).psnWriting = s.psnWriting := by unfold signal; simp only; (repeat' split) <;> rfl
@[simp] theorem signal_ledgers (n v : Nat) : (signal n v s).ledgers = s.ledgers := by unfold signal; simp only; (repeat' split) <;> rfl
@[simp] theorem signal_pkg (n v : Nat) : (signal n v s).pkg = s.pkg := by unfold signal; simp only; (repeat' split) <;> rfl
@[simp] theorem signal_pkgFinal (n v : Nat) : (signal n v s).pkgFinal = s.pkgFinal := by unfold signal; simp only; (repeat' split) <;> rfl
@[simp] theorem signal_pages (n v : Nat) : (signal n v s).pages = s.pages := by unfold signal; simp only; (repeat' split) <;> rfl
@[simp] theorem signal_pageNo (n v : Nat) : (signal n v s).pageNo = s.pageNo := by unfold signal; simp only; (repeat' split) <;> rfl
@[simp] theorem signal_pd (n v : Nat) : (signal n v s).pd = s.pd := by unfold signal; simp only; (repeat' split) <;> rfl
@[simp] theorem signal_epochIdx (n v : Nat) : (signal n v s).epochIdx = s.epochIdx := by unfold signal; simp only; (repeat' split) <;> rfl
@[simp] theorem signal_rootStore (n v : Nat) : (signal n v s).rootStore = s.rootStore := by unfold signal; simp only; (repeat' split) <;> rfl
@[simp] theorem signal_lrings (n v : Nat) : (signal n v s).lrings = s.lrings := by unfold signal; simp only; (repeat' split) <;> rfl
@[simp] theorem signal_signQ (n v : Nat) : (signal n v s).signQ = s.signQ := by unfold signal; simp only; (repeat' split) <;> rfl
@[simp] theorem signal_batchNo (n v : Nat) : (signal n v s).batchNo = s.batchNo := by unfold signal; simp only; (repeat' split) <;> rfl
@[simp] theorem signal_elig (n v : Nat) : (signal n v s).elig = s.elig := by unfold signal; simp only; (repeat' split) <;> rfl
@[simp] theorem signal_ingress (n v : Nat) : (signal n v s).ingress = s.ingress := by unfold signal; simp only; (repeat' split) <;> rfl
@[simp] theorem signal_appended (n v : Nat) : (signal n v s).appended = s.appended := by unfold signal; simp only; (repeat' split) <;> rfl
@[simp] theorem signal_jsBase (n v : Nat) : (signal n v s).jsBase = s.jsBase := by unfold signal; simp only; (repeat' split) <;> rfl
@[simp] theorem signal_jsLog2 (n v : Nat) : (signal n v s).jsLog2 = s.jsLog2 := by unfold signal; simp only; (repeat' split) <;> rfl
@[simp] theorem signal_jsActive (n v : Nat) : (signal n v s).jsActive = s.jsActive := by unfold signal; simp only; (repeat' split) <;> rfl
@[simp] theorem signal_jsBad (n v : Nat) : (signal n v s).jsBad = s.jsBad := by unfold signal; simp only; (repeat' split) <;> rfl
@[simp] theorem signal_storeFault (n v : Nat) : (signal n v s).storeFault = s.storeFault := by unfold signal; simp only; (repeat' split) <;> rfl
@[simp] theorem signal_storeStall (n v : Nat) : (signal n v s).storeStall = s.storeStall := by unfold signal; simp only; (repeat' split) <;> rfl
@[simp] theorem signal_quiesced (n v : Nat) : (signal n v s).quiesced = s.quiesced := by unfold signal; simp only; (repeat' split) <;> rfl
@[simp] theorem signal_ckptOverdue (n v : Nat) : (signal n v s).ckptOverdue = s.ckptOverdue := by unfold signal; simp only; (repeat' split) <;> rfl
@[simp] theorem signal_ckptAt (n v : Nat) : (signal n v s).ckptAt = s.ckptAt := by unfold signal; simp only; (repeat' split) <;> rfl
@[simp] theorem signal_ckptReq (n v : Nat) : (signal n v s).ckptReq = s.ckptReq := by unfold signal; simp only; (repeat' split) <;> rfl
@[simp] theorem signal_ckptDirty (n v : Nat) : (signal n v s).ckptDirty = s.ckptDirty := by unfold signal; simp only; (repeat' split) <;> rfl
@[simp] theorem signal_lastCkptSec (n v : Nat) : (signal n v s).lastCkptSec = s.lastCkptSec := by unfold signal; simp only; (repeat' split) <;> rfl
@[simp] theorem signal_draws (n v : Nat) : (signal n v s).draws = s.draws := by unfold signal; simp only; (repeat' split) <;> rfl
@[simp] theorem signal_rngPeriod (n v : Nat) : (signal n v s).rngPeriod = s.rngPeriod := by unfold signal; simp only; (repeat' split) <;> rfl
@[simp] theorem signal_rngT0 (n v : Nat) : (signal n v s).rngT0 = s.rngT0 := by unfold signal; simp only; (repeat' split) <;> rfl
@[simp] theorem signal_vault (n v : Nat) : (signal n v s).vault = s.vault := by unfold signal; simp only; (repeat' split) <;> rfl
@[simp] theorem signal_images (n v : Nat) : (signal n v s).images = s.images := by unfold signal; simp only; (repeat' split) <;> rfl
@[simp] theorem signal_ports (n v : Nat) : (signal n v s).ports = s.ports := by unfold signal; simp only; (repeat' split) <;> rfl
@[simp] theorem signal_lcs (n v : Nat) : (signal n v s).lcs = s.lcs := by unfold signal; simp only; (repeat' split) <;> rfl
@[simp] theorem signal_otp (n v : Nat) : (signal n v s).otp = s.otp := by unfold signal; simp only; (repeat' split) <;> rfl
@[simp] theorem signal_life (n v : Nat) : (signal n v s).life = s.life := by unfold signal; simp only; (repeat' split) <;> rfl
@[simp] theorem signal_lining (n v : Nat) : (signal n v s).lining = s.lining := by unfold signal; simp only; (repeat' split) <;> rfl
@[simp] theorem signal_locked (n v : Nat) : (signal n v s).locked = s.locked := by unfold signal; simp only; (repeat' split) <;> rfl
@[simp] theorem signal_tamper (n v : Nat) : (signal n v s).tamper = s.tamper := by unfold signal; simp only; (repeat' split) <;> rfl
@[simp] theorem signal_fw (n v : Nat) : (signal n v s).fw = s.fw := by unfold signal; simp only; (repeat' split) <;> rfl
@[simp] theorem signal_hatter (n v : Nat) : (signal n v s).hatter = s.hatter := by unfold signal; simp only; (repeat' split) <;> rfl
@[simp] theorem signal_snap (n v : Nat) : (signal n v s).snap = s.snap := by unfold signal; simp only; (repeat' split) <;> rfl
@[simp] theorem signal_pwr (n v : Nat) : (signal n v s).pwr = s.pwr := by unfold signal; simp only; (repeat' split) <;> rfl
@[simp] theorem signal_startStep (n v : Nat) : (signal n v s).startStep = s.startStep := by unfold signal; simp only; (repeat' split) <;> rfl
@[simp] theorem signal_pwrState (n v : Nat) : (signal n v s).pwrState = s.pwrState := by unfold signal; simp only; (repeat' split) <;> rfl
@[simp] theorem signal_hold (n v : Nat) : (signal n v s).hold = s.hold := by unfold signal; simp only; (repeat' split) <;> rfl
@[simp] theorem signal_free (n v : Nat) : (signal n v s).free = s.free := by unfold signal; simp only; (repeat' split) <;> rfl
@[simp] theorem signal_pending (n v : Nat) : (signal n v s).pending = s.pending := by unfold signal; simp only; (repeat' split) <;> rfl

@[simp] theorem raiseFnEvent_part (i : Nat) : (raiseFnEvent i s).part = s.part := by unfold raiseFnEvent; split <;> simp
@[simp] theorem raiseFnEvent_grade (i : Nat) : (raiseFnEvent i s).grade = s.grade := by unfold raiseFnEvent; split <;> simp
@[simp] theorem raiseFnEvent_rev (i : Nat) : (raiseFnEvent i s).rev = s.rev := by unfold raiseFnEvent; split <;> simp
@[simp] theorem raiseFnEvent_time (i : Nat) : (raiseFnEvent i s).time = s.time := by unfold raiseFnEvent; split <;> simp
@[simp] theorem raiseFnEvent_ecfg (i : Nat) : (raiseFnEvent i s).ecfg = s.ecfg := by unfold raiseFnEvent; split <;> simp
@[simp] theorem raiseFnEvent_epc (i : Nat) : (raiseFnEvent i s).epc = s.epc := by unfold raiseFnEvent; split <;> simp
@[simp] theorem raiseFnEvent_authorities (i : Nat) : (raiseFnEvent i s).authorities = s.authorities := by unfold raiseFnEvent; split <;> simp
@[simp] theorem raiseFnEvent_vfEnable (i : Nat) : (raiseFnEvent i s).vfEnable = s.vfEnable := by unfold raiseFnEvent; split <;> simp
@[simp] theorem raiseFnEvent_numVfs (i : Nat) : (raiseFnEvent i s).numVfs = s.numVfs := by unfold raiseFnEvent; split <;> simp
@[simp] theorem raiseFnEvent_page64 (i : Nat) : (raiseFnEvent i s).page64 = s.page64 := by unfold raiseFnEvent; split <;> simp
@[simp] theorem raiseFnEvent_tenants (i : Nat) : (raiseFnEvent i s).tenants = s.tenants := by unfold raiseFnEvent; split <;> simp
@[simp] theorem raiseFnEvent_jobs (i : Nat) : (raiseFnEvent i s).jobs = s.jobs := by unfold raiseFnEvent; split <;> simp
@[simp] theorem raiseFnEvent_nextJob (i : Nat) : (raiseFnEvent i s).nextJob = s.nextJob := by unfold raiseFnEvent; split <;> simp
@[simp] theorem raiseFnEvent_nextCreation (i : Nat) : (raiseFnEvent i s).nextCreation = s.nextCreation := by unfold raiseFnEvent; split <;> simp
@[simp] theorem raiseFnEvent_rrAdmin (i : Nat) : (raiseFnEvent i s).rrAdmin = s.rrAdmin := by unfold raiseFnEvent; split <;> simp
@[simp] theorem raiseFnEvent_rrService (i : Nat) : (raiseFnEvent i s).rrService = s.rrService := by unfold raiseFnEvent; split <;> simp
@[simp] theorem raiseFnEvent_rrWork (i : Nat) : (raiseFnEvent i s).rrWork = s.rrWork := by unfold raiseFnEvent; split <;> simp
@[simp] theorem raiseFnEvent_visit (i : Nat) : (raiseFnEvent i s).visit = s.visit := by unfold raiseFnEvent; split <;> simp
@[simp] theorem raiseFnEvent_takeUs (i : Nat) : (raiseFnEvent i s).takeUs = s.takeUs := by unfold raiseFnEvent; split <;> simp
@[simp] theorem raiseFnEvent_takeCount (i : Nat) : (raiseFnEvent i s).takeCount = s.takeCount := by unfold raiseFnEvent; split <;> simp
@[simp] theorem raiseFnEvent_takeSvc (i : Nat) : (raiseFnEvent i s).takeSvc = s.takeSvc := by unfold raiseFnEvent; split <;> simp
@[simp] theorem raiseFnEvent_dieChanged (i : Nat) : (raiseFnEvent i s).dieChanged = s.dieChanged := by unfold raiseFnEvent; split <;> simp
@[simp] theorem raiseFnEvent_crownFault (i : Nat) : (raiseFnEvent i s).crownFault = s.crownFault := by unfold raiseFnEvent; split <;> simp
@[simp] theorem raiseFnEvent_fence (i : Nat) : (raiseFnEvent i s).fence = s.fence := by unfold raiseFnEvent; split <;> simp
@[simp] theorem raiseFnEvent_badOffset (i : Nat) : (raiseFnEvent i s).badOffset = s.badOffset := by unfold raiseFnEvent; split <;> simp
@[simp] theorem raiseFnEvent_badCount (i : Nat) : (raiseFnEvent i s).badCount = s.badCount := by unfold raiseFnEvent; split <;> simp
@[simp] theorem raiseFnEvent_latches (i : Nat) : (raiseFnEvent i s).latches = s.latches := by unfold raiseFnEvent; split <;> simp
@[simp] theorem raiseFnEvent_linkWidth (i : Nat) : (raiseFnEvent i s).linkWidth = s.linkWidth := by unfold raiseFnEvent; split <;> simp
@[simp] theorem raiseFnEvent_linkSpeed (i : Nat) : (raiseFnEvent i s).linkSpeed = s.linkSpeed := by unfold raiseFnEvent; split <;> simp
@[simp] theorem raiseFnEvent_linkFatal (i : Nat) : (raiseFnEvent i s).linkFatal = s.linkFatal := by unfold raiseFnEvent; split <;> simp
@[simp] theorem raiseFnEvent_evBuf (i : Nat) : (raiseFnEvent i s).evBuf = s.evBuf := by unfold raiseFnEvent; split <;> simp
@[simp] theorem raiseFnEvent_evFlash (i : Nat) : (raiseFnEvent i s).evFlash = s.evFlash := by unfold raiseFnEvent; split <;> simp
@[simp] theorem raiseFnEvent_evNext (i : Nat) : (raiseFnEvent i s).evNext = s.evNext := by unfold raiseFnEvent; split <;> simp
@[simp] theorem raiseFnEvent_evSuppressed (i : Nat) : (raiseFnEvent i s).evSuppressed = s.evSuppressed := by unfold raiseFnEvent; split <;> simp
@[simp] theorem raiseFnEvent_evBursts (i : Nat) : (raiseFnEvent i s).evBursts = s.evBursts := by unfold raiseFnEvent; split <;> simp
@[simp] theorem raiseFnEvent_pfFresh (i : Nat) : (raiseFnEvent i s).pfFresh = s.pfFresh := by unfold raiseFnEvent; split <;> simp
@[simp] theorem raiseFnEvent_psnNext (i : Nat) : (raiseFnEvent i s).psnNext = s.psnNext := by unfold raiseFnEvent; split <;> simp
@[simp] theorem raiseFnEvent_psnCeil (i : Nat) : (raiseFnEvent i s).psnCeil = s.psnCeil := by unfold raiseFnEvent; split <;> simp
@[simp] theorem raiseFnEvent_psnWriting (i : Nat) : (raiseFnEvent i s).psnWriting = s.psnWriting := by unfold raiseFnEvent; split <;> simp
@[simp] theorem raiseFnEvent_ledgers (i : Nat) : (raiseFnEvent i s).ledgers = s.ledgers := by unfold raiseFnEvent; split <;> simp
@[simp] theorem raiseFnEvent_pkg (i : Nat) : (raiseFnEvent i s).pkg = s.pkg := by unfold raiseFnEvent; split <;> simp
@[simp] theorem raiseFnEvent_pkgFinal (i : Nat) : (raiseFnEvent i s).pkgFinal = s.pkgFinal := by unfold raiseFnEvent; split <;> simp
@[simp] theorem raiseFnEvent_pages (i : Nat) : (raiseFnEvent i s).pages = s.pages := by unfold raiseFnEvent; split <;> simp
@[simp] theorem raiseFnEvent_pageNo (i : Nat) : (raiseFnEvent i s).pageNo = s.pageNo := by unfold raiseFnEvent; split <;> simp
@[simp] theorem raiseFnEvent_pd (i : Nat) : (raiseFnEvent i s).pd = s.pd := by unfold raiseFnEvent; split <;> simp
@[simp] theorem raiseFnEvent_epochIdx (i : Nat) : (raiseFnEvent i s).epochIdx = s.epochIdx := by unfold raiseFnEvent; split <;> simp
@[simp] theorem raiseFnEvent_rootStore (i : Nat) : (raiseFnEvent i s).rootStore = s.rootStore := by unfold raiseFnEvent; split <;> simp
@[simp] theorem raiseFnEvent_lrings (i : Nat) : (raiseFnEvent i s).lrings = s.lrings := by unfold raiseFnEvent; split <;> simp
@[simp] theorem raiseFnEvent_signQ (i : Nat) : (raiseFnEvent i s).signQ = s.signQ := by unfold raiseFnEvent; split <;> simp
@[simp] theorem raiseFnEvent_batchNo (i : Nat) : (raiseFnEvent i s).batchNo = s.batchNo := by unfold raiseFnEvent; split <;> simp
@[simp] theorem raiseFnEvent_elig (i : Nat) : (raiseFnEvent i s).elig = s.elig := by unfold raiseFnEvent; split <;> simp
@[simp] theorem raiseFnEvent_ingress (i : Nat) : (raiseFnEvent i s).ingress = s.ingress := by unfold raiseFnEvent; split <;> simp
@[simp] theorem raiseFnEvent_appended (i : Nat) : (raiseFnEvent i s).appended = s.appended := by unfold raiseFnEvent; split <;> simp
@[simp] theorem raiseFnEvent_jsBase (i : Nat) : (raiseFnEvent i s).jsBase = s.jsBase := by unfold raiseFnEvent; split <;> simp
@[simp] theorem raiseFnEvent_jsLog2 (i : Nat) : (raiseFnEvent i s).jsLog2 = s.jsLog2 := by unfold raiseFnEvent; split <;> simp
@[simp] theorem raiseFnEvent_jsActive (i : Nat) : (raiseFnEvent i s).jsActive = s.jsActive := by unfold raiseFnEvent; split <;> simp
@[simp] theorem raiseFnEvent_jsBad (i : Nat) : (raiseFnEvent i s).jsBad = s.jsBad := by unfold raiseFnEvent; split <;> simp
@[simp] theorem raiseFnEvent_storeFault (i : Nat) : (raiseFnEvent i s).storeFault = s.storeFault := by unfold raiseFnEvent; split <;> simp
@[simp] theorem raiseFnEvent_storeStall (i : Nat) : (raiseFnEvent i s).storeStall = s.storeStall := by unfold raiseFnEvent; split <;> simp
@[simp] theorem raiseFnEvent_quiesced (i : Nat) : (raiseFnEvent i s).quiesced = s.quiesced := by unfold raiseFnEvent; split <;> simp
@[simp] theorem raiseFnEvent_ckptOverdue (i : Nat) : (raiseFnEvent i s).ckptOverdue = s.ckptOverdue := by unfold raiseFnEvent; split <;> simp
@[simp] theorem raiseFnEvent_ckptAt (i : Nat) : (raiseFnEvent i s).ckptAt = s.ckptAt := by unfold raiseFnEvent; split <;> simp
@[simp] theorem raiseFnEvent_ckptReq (i : Nat) : (raiseFnEvent i s).ckptReq = s.ckptReq := by unfold raiseFnEvent; split <;> simp
@[simp] theorem raiseFnEvent_ckptDirty (i : Nat) : (raiseFnEvent i s).ckptDirty = s.ckptDirty := by unfold raiseFnEvent; split <;> simp
@[simp] theorem raiseFnEvent_lastCkptSec (i : Nat) : (raiseFnEvent i s).lastCkptSec = s.lastCkptSec := by unfold raiseFnEvent; split <;> simp
@[simp] theorem raiseFnEvent_draws (i : Nat) : (raiseFnEvent i s).draws = s.draws := by unfold raiseFnEvent; split <;> simp
@[simp] theorem raiseFnEvent_rngPeriod (i : Nat) : (raiseFnEvent i s).rngPeriod = s.rngPeriod := by unfold raiseFnEvent; split <;> simp
@[simp] theorem raiseFnEvent_rngT0 (i : Nat) : (raiseFnEvent i s).rngT0 = s.rngT0 := by unfold raiseFnEvent; split <;> simp
@[simp] theorem raiseFnEvent_vault (i : Nat) : (raiseFnEvent i s).vault = s.vault := by unfold raiseFnEvent; split <;> simp
@[simp] theorem raiseFnEvent_images (i : Nat) : (raiseFnEvent i s).images = s.images := by unfold raiseFnEvent; split <;> simp
@[simp] theorem raiseFnEvent_ports (i : Nat) : (raiseFnEvent i s).ports = s.ports := by unfold raiseFnEvent; split <;> simp
@[simp] theorem raiseFnEvent_lcs (i : Nat) : (raiseFnEvent i s).lcs = s.lcs := by unfold raiseFnEvent; split <;> simp
@[simp] theorem raiseFnEvent_otp (i : Nat) : (raiseFnEvent i s).otp = s.otp := by unfold raiseFnEvent; split <;> simp
@[simp] theorem raiseFnEvent_life (i : Nat) : (raiseFnEvent i s).life = s.life := by unfold raiseFnEvent; split <;> simp
@[simp] theorem raiseFnEvent_lining (i : Nat) : (raiseFnEvent i s).lining = s.lining := by unfold raiseFnEvent; split <;> simp
@[simp] theorem raiseFnEvent_locked (i : Nat) : (raiseFnEvent i s).locked = s.locked := by unfold raiseFnEvent; split <;> simp
@[simp] theorem raiseFnEvent_tamper (i : Nat) : (raiseFnEvent i s).tamper = s.tamper := by unfold raiseFnEvent; split <;> simp
@[simp] theorem raiseFnEvent_fw (i : Nat) : (raiseFnEvent i s).fw = s.fw := by unfold raiseFnEvent; split <;> simp
@[simp] theorem raiseFnEvent_hatter (i : Nat) : (raiseFnEvent i s).hatter = s.hatter := by unfold raiseFnEvent; split <;> simp
@[simp] theorem raiseFnEvent_snap (i : Nat) : (raiseFnEvent i s).snap = s.snap := by unfold raiseFnEvent; split <;> simp
@[simp] theorem raiseFnEvent_pwr (i : Nat) : (raiseFnEvent i s).pwr = s.pwr := by unfold raiseFnEvent; split <;> simp
@[simp] theorem raiseFnEvent_startStep (i : Nat) : (raiseFnEvent i s).startStep = s.startStep := by unfold raiseFnEvent; split <;> simp
@[simp] theorem raiseFnEvent_pwrState (i : Nat) : (raiseFnEvent i s).pwrState = s.pwrState := by unfold raiseFnEvent; split <;> simp
@[simp] theorem raiseFnEvent_hold (i : Nat) : (raiseFnEvent i s).hold = s.hold := by unfold raiseFnEvent; split <;> simp
@[simp] theorem raiseFnEvent_free (i : Nat) : (raiseFnEvent i s).free = s.free := by unfold raiseFnEvent; split <;> simp
@[simp] theorem raiseFnEvent_pending (i : Nat) : (raiseFnEvent i s).pending = s.pending := by unfold raiseFnEvent; split <;> simp

@[simp] theorem refreshTrust_part  : (refreshTrust s).part = s.part := by unfold refreshTrust; simp only; split <;> simp
@[simp] theorem refreshTrust_grade  : (refreshTrust s).grade = s.grade := by unfold refreshTrust; simp only; split <;> simp
@[simp] theorem refreshTrust_rev  : (refreshTrust s).rev = s.rev := by unfold refreshTrust; simp only; split <;> simp
@[simp] theorem refreshTrust_ecfg  : (refreshTrust s).ecfg = s.ecfg := by unfold refreshTrust; simp only; split <;> simp
@[simp] theorem refreshTrust_epc  : (refreshTrust s).epc = s.epc := by unfold refreshTrust; simp only; split <;> simp
@[simp] theorem refreshTrust_authorities  : (refreshTrust s).authorities = s.authorities := by unfold refreshTrust; simp only; split <;> simp
@[simp] theorem refreshTrust_vfEnable  : (refreshTrust s).vfEnable = s.vfEnable := by unfold refreshTrust; simp only; split <;> simp
@[simp] theorem refreshTrust_numVfs  : (refreshTrust s).numVfs = s.numVfs := by unfold refreshTrust; simp only; split <;> simp
@[simp] theorem refreshTrust_page64  : (refreshTrust s).page64 = s.page64 := by unfold refreshTrust; simp only; split <;> simp
@[simp] theorem refreshTrust_tenants  : (refreshTrust s).tenants = s.tenants := by unfold refreshTrust; simp only; split <;> simp
@[simp] theorem refreshTrust_jobs  : (refreshTrust s).jobs = s.jobs := by unfold refreshTrust; simp only; split <;> simp
@[simp] theorem refreshTrust_nextJob  : (refreshTrust s).nextJob = s.nextJob := by unfold refreshTrust; simp only; split <;> simp
@[simp] theorem refreshTrust_nextCreation  : (refreshTrust s).nextCreation = s.nextCreation := by unfold refreshTrust; simp only; split <;> simp
@[simp] theorem refreshTrust_rrAdmin  : (refreshTrust s).rrAdmin = s.rrAdmin := by unfold refreshTrust; simp only; split <;> simp
@[simp] theorem refreshTrust_rrService  : (refreshTrust s).rrService = s.rrService := by unfold refreshTrust; simp only; split <;> simp
@[simp] theorem refreshTrust_rrWork  : (refreshTrust s).rrWork = s.rrWork := by unfold refreshTrust; simp only; split <;> simp
@[simp] theorem refreshTrust_visit  : (refreshTrust s).visit = s.visit := by unfold refreshTrust; simp only; split <;> simp
@[simp] theorem refreshTrust_takeUs  : (refreshTrust s).takeUs = s.takeUs := by unfold refreshTrust; simp only; split <;> simp
@[simp] theorem refreshTrust_takeCount  : (refreshTrust s).takeCount = s.takeCount := by unfold refreshTrust; simp only; split <;> simp
@[simp] theorem refreshTrust_takeSvc  : (refreshTrust s).takeSvc = s.takeSvc := by unfold refreshTrust; simp only; split <;> simp
@[simp] theorem refreshTrust_dieChanged  : (refreshTrust s).dieChanged = s.dieChanged := by unfold refreshTrust; simp only; split <;> simp
@[simp] theorem refreshTrust_crownFault  : (refreshTrust s).crownFault = s.crownFault := by unfold refreshTrust; simp only; split <;> simp
@[simp] theorem refreshTrust_fence  : (refreshTrust s).fence = s.fence := by unfold refreshTrust; simp only; split <;> simp
@[simp] theorem refreshTrust_badOffset  : (refreshTrust s).badOffset = s.badOffset := by unfold refreshTrust; simp only; split <;> simp
@[simp] theorem refreshTrust_badCount  : (refreshTrust s).badCount = s.badCount := by unfold refreshTrust; simp only; split <;> simp
@[simp] theorem refreshTrust_latches  : (refreshTrust s).latches = s.latches := by unfold refreshTrust; simp only; split <;> simp
@[simp] theorem refreshTrust_linkWidth  : (refreshTrust s).linkWidth = s.linkWidth := by unfold refreshTrust; simp only; split <;> simp
@[simp] theorem refreshTrust_linkSpeed  : (refreshTrust s).linkSpeed = s.linkSpeed := by unfold refreshTrust; simp only; split <;> simp
@[simp] theorem refreshTrust_linkFatal  : (refreshTrust s).linkFatal = s.linkFatal := by unfold refreshTrust; simp only; split <;> simp
@[simp] theorem refreshTrust_evFlash  : (refreshTrust s).evFlash = s.evFlash := by unfold refreshTrust; simp only; split <;> simp
@[simp] theorem refreshTrust_evNext  : (refreshTrust s).evNext = s.evNext := by unfold refreshTrust; simp only; split <;> simp
@[simp] theorem refreshTrust_pfFresh  : (refreshTrust s).pfFresh = s.pfFresh := by unfold refreshTrust; simp only; split <;> simp
@[simp] theorem refreshTrust_psnNext  : (refreshTrust s).psnNext = s.psnNext := by unfold refreshTrust; simp only; split <;> simp
@[simp] theorem refreshTrust_psnCeil  : (refreshTrust s).psnCeil = s.psnCeil := by unfold refreshTrust; simp only; split <;> simp
@[simp] theorem refreshTrust_psnWriting  : (refreshTrust s).psnWriting = s.psnWriting := by unfold refreshTrust; simp only; split <;> simp
@[simp] theorem refreshTrust_ledgers  : (refreshTrust s).ledgers = s.ledgers := by unfold refreshTrust; simp only; split <;> simp
@[simp] theorem refreshTrust_pkg  : (refreshTrust s).pkg = s.pkg := by unfold refreshTrust; simp only; split <;> simp
@[simp] theorem refreshTrust_pkgFinal  : (refreshTrust s).pkgFinal = s.pkgFinal := by unfold refreshTrust; simp only; split <;> simp
@[simp] theorem refreshTrust_pages  : (refreshTrust s).pages = s.pages := by unfold refreshTrust; simp only; split <;> simp
@[simp] theorem refreshTrust_pageNo  : (refreshTrust s).pageNo = s.pageNo := by unfold refreshTrust; simp only; split <;> simp
@[simp] theorem refreshTrust_pd  : (refreshTrust s).pd = s.pd := by unfold refreshTrust; simp only; split <;> simp
@[simp] theorem refreshTrust_epochIdx  : (refreshTrust s).epochIdx = s.epochIdx := by unfold refreshTrust; simp only; split <;> simp
@[simp] theorem refreshTrust_rootStore  : (refreshTrust s).rootStore = s.rootStore := by unfold refreshTrust; simp only; split <;> simp
@[simp] theorem refreshTrust_lrings  : (refreshTrust s).lrings = s.lrings := by unfold refreshTrust; simp only; split <;> simp
@[simp] theorem refreshTrust_signQ  : (refreshTrust s).signQ = s.signQ := by unfold refreshTrust; simp only; split <;> simp
@[simp] theorem refreshTrust_batchNo  : (refreshTrust s).batchNo = s.batchNo := by unfold refreshTrust; simp only; split <;> simp
@[simp] theorem refreshTrust_elig  : (refreshTrust s).elig = s.elig := by unfold refreshTrust; simp only; split <;> simp
@[simp] theorem refreshTrust_ingress  : (refreshTrust s).ingress = s.ingress := by unfold refreshTrust; simp only; split <;> simp
@[simp] theorem refreshTrust_appended  : (refreshTrust s).appended = s.appended := by unfold refreshTrust; simp only; split <;> simp
@[simp] theorem refreshTrust_jsBase  : (refreshTrust s).jsBase = s.jsBase := by unfold refreshTrust; simp only; split <;> simp
@[simp] theorem refreshTrust_jsLog2  : (refreshTrust s).jsLog2 = s.jsLog2 := by unfold refreshTrust; simp only; split <;> simp
@[simp] theorem refreshTrust_jsActive  : (refreshTrust s).jsActive = s.jsActive := by unfold refreshTrust; simp only; split <;> simp
@[simp] theorem refreshTrust_jsBad  : (refreshTrust s).jsBad = s.jsBad := by unfold refreshTrust; simp only; split <;> simp
@[simp] theorem refreshTrust_storeFault  : (refreshTrust s).storeFault = s.storeFault := by unfold refreshTrust; simp only; split <;> simp
@[simp] theorem refreshTrust_storeStall  : (refreshTrust s).storeStall = s.storeStall := by unfold refreshTrust; simp only; split <;> simp
@[simp] theorem refreshTrust_quiesced  : (refreshTrust s).quiesced = s.quiesced := by unfold refreshTrust; simp only; split <;> simp
@[simp] theorem refreshTrust_ckptOverdue  : (refreshTrust s).ckptOverdue = s.ckptOverdue := by unfold refreshTrust; simp only; split <;> simp
@[simp] theorem refreshTrust_ckptAt  : (refreshTrust s).ckptAt = s.ckptAt := by unfold refreshTrust; simp only; split <;> simp
@[simp] theorem refreshTrust_ckptReq  : (refreshTrust s).ckptReq = s.ckptReq := by unfold refreshTrust; simp only; split <;> simp
@[simp] theorem refreshTrust_ckptDirty  : (refreshTrust s).ckptDirty = s.ckptDirty := by unfold refreshTrust; simp only; split <;> simp
@[simp] theorem refreshTrust_lastCkptSec  : (refreshTrust s).lastCkptSec = s.lastCkptSec := by unfold refreshTrust; simp only; split <;> simp
@[simp] theorem refreshTrust_draws  : (refreshTrust s).draws = s.draws := by unfold refreshTrust; simp only; split <;> simp
@[simp] theorem refreshTrust_rngPeriod  : (refreshTrust s).rngPeriod = s.rngPeriod := by unfold refreshTrust; simp only; split <;> simp
@[simp] theorem refreshTrust_rngT0  : (refreshTrust s).rngT0 = s.rngT0 := by unfold refreshTrust; simp only; split <;> simp
@[simp] theorem refreshTrust_vault  : (refreshTrust s).vault = s.vault := by unfold refreshTrust; simp only; split <;> simp
@[simp] theorem refreshTrust_images  : (refreshTrust s).images = s.images := by unfold refreshTrust; simp only; split <;> simp
@[simp] theorem refreshTrust_ports  : (refreshTrust s).ports = s.ports := by unfold refreshTrust; simp only; split <;> simp
@[simp] theorem refreshTrust_lcs  : (refreshTrust s).lcs = s.lcs := by unfold refreshTrust; simp only; split <;> simp
@[simp] theorem refreshTrust_otp  : (refreshTrust s).otp = s.otp := by unfold refreshTrust; simp only; split <;> simp
@[simp] theorem refreshTrust_life  : (refreshTrust s).life = s.life := by unfold refreshTrust; simp only; split <;> simp
@[simp] theorem refreshTrust_lining  : (refreshTrust s).lining = s.lining := by unfold refreshTrust; simp only; split <;> simp
@[simp] theorem refreshTrust_locked  : (refreshTrust s).locked = s.locked := by unfold refreshTrust; simp only; split <;> simp
@[simp] theorem refreshTrust_tamper  : (refreshTrust s).tamper = s.tamper := by unfold refreshTrust; simp only; split <;> simp
@[simp] theorem refreshTrust_fw  : (refreshTrust s).fw = s.fw := by unfold refreshTrust; simp only; split <;> simp
@[simp] theorem refreshTrust_hatter  : (refreshTrust s).hatter = s.hatter := by unfold refreshTrust; simp only; split <;> simp
@[simp] theorem refreshTrust_snap  : (refreshTrust s).snap = s.snap := by unfold refreshTrust; simp only; split <;> simp
@[simp] theorem refreshTrust_pwr  : (refreshTrust s).pwr = s.pwr := by unfold refreshTrust; simp only; split <;> simp
@[simp] theorem refreshTrust_startStep  : (refreshTrust s).startStep = s.startStep := by unfold refreshTrust; simp only; split <;> simp
@[simp] theorem refreshTrust_pwrState  : (refreshTrust s).pwrState = s.pwrState := by unfold refreshTrust; simp only; split <;> simp
@[simp] theorem refreshTrust_hold  : (refreshTrust s).hold = s.hold := by unfold refreshTrust; simp only; split <;> simp
@[simp] theorem refreshTrust_free  : (refreshTrust s).free = s.free := by unfold refreshTrust; simp only; split <;> simp
@[simp] theorem refreshTrust_pending  : (refreshTrust s).pending = s.pending := by unfold refreshTrust; simp only; split <;> simp

@[simp] theorem flushOow_part  : (flushOow s).part = s.part := by unfold flushOow; split <;> simp
@[simp] theorem flushOow_grade  : (flushOow s).grade = s.grade := by unfold flushOow; split <;> simp
@[simp] theorem flushOow_rev  : (flushOow s).rev = s.rev := by unfold flushOow; split <;> simp
@[simp] theorem flushOow_ecfg  : (flushOow s).ecfg = s.ecfg := by unfold flushOow; split <;> simp
@[simp] theorem flushOow_epc  : (flushOow s).epc = s.epc := by unfold flushOow; split <;> simp
@[simp] theorem flushOow_authorities  : (flushOow s).authorities = s.authorities := by unfold flushOow; split <;> simp
@[simp] theorem flushOow_fns  : (flushOow s).fns = s.fns := by unfold flushOow; split <;> simp
@[simp] theorem flushOow_vfEnable  : (flushOow s).vfEnable = s.vfEnable := by unfold flushOow; split <;> simp
@[simp] theorem flushOow_numVfs  : (flushOow s).numVfs = s.numVfs := by unfold flushOow; split <;> simp
@[simp] theorem flushOow_page64  : (flushOow s).page64 = s.page64 := by unfold flushOow; split <;> simp
@[simp] theorem flushOow_tenants  : (flushOow s).tenants = s.tenants := by unfold flushOow; split <;> simp
@[simp] theorem flushOow_jobs  : (flushOow s).jobs = s.jobs := by unfold flushOow; split <;> simp
@[simp] theorem flushOow_nextJob  : (flushOow s).nextJob = s.nextJob := by unfold flushOow; split <;> simp
@[simp] theorem flushOow_nextCreation  : (flushOow s).nextCreation = s.nextCreation := by unfold flushOow; split <;> simp
@[simp] theorem flushOow_rrAdmin  : (flushOow s).rrAdmin = s.rrAdmin := by unfold flushOow; split <;> simp
@[simp] theorem flushOow_rrService  : (flushOow s).rrService = s.rrService := by unfold flushOow; split <;> simp
@[simp] theorem flushOow_rrWork  : (flushOow s).rrWork = s.rrWork := by unfold flushOow; split <;> simp
@[simp] theorem flushOow_visit  : (flushOow s).visit = s.visit := by unfold flushOow; split <;> simp
@[simp] theorem flushOow_takeUs  : (flushOow s).takeUs = s.takeUs := by unfold flushOow; split <;> simp
@[simp] theorem flushOow_takeCount  : (flushOow s).takeCount = s.takeCount := by unfold flushOow; split <;> simp
@[simp] theorem flushOow_takeSvc  : (flushOow s).takeSvc = s.takeSvc := by unfold flushOow; split <;> simp
@[simp] theorem flushOow_dies  : (flushOow s).dies = s.dies := by unfold flushOow; split <;> simp
@[simp] theorem flushOow_dieChanged  : (flushOow s).dieChanged = s.dieChanged := by unfold flushOow; split <;> simp
@[simp] theorem flushOow_crownFault  : (flushOow s).crownFault = s.crownFault := by unfold flushOow; split <;> simp
@[simp] theorem flushOow_fence  : (flushOow s).fence = s.fence := by unfold flushOow; split <;> simp
@[simp] theorem flushOow_fnEvent  : (flushOow s).fnEvent = s.fnEvent := by unfold flushOow; split <;> simp
@[simp] theorem flushOow_badOffset  : (flushOow s).badOffset = s.badOffset := by unfold flushOow; split <;> simp
@[simp] theorem flushOow_badCount  : (flushOow s).badCount = s.badCount := by unfold flushOow; split <;> simp
@[simp] theorem flushOow_latches  : (flushOow s).latches = s.latches := by unfold flushOow; split <;> simp
@[simp] theorem flushOow_linkWidth  : (flushOow s).linkWidth = s.linkWidth := by unfold flushOow; split <;> simp
@[simp] theorem flushOow_linkSpeed  : (flushOow s).linkSpeed = s.linkSpeed := by unfold flushOow; split <;> simp
@[simp] theorem flushOow_linkFatal  : (flushOow s).linkFatal = s.linkFatal := by unfold flushOow; split <;> simp
@[simp] theorem flushOow_evFlash  : (flushOow s).evFlash = s.evFlash := by unfold flushOow; split <;> simp
@[simp] theorem flushOow_evNext  : (flushOow s).evNext = s.evNext := by unfold flushOow; split <;> simp
@[simp] theorem flushOow_pfFresh  : (flushOow s).pfFresh = s.pfFresh := by unfold flushOow; split <;> simp
@[simp] theorem flushOow_psnNext  : (flushOow s).psnNext = s.psnNext := by unfold flushOow; split <;> simp
@[simp] theorem flushOow_psnCeil  : (flushOow s).psnCeil = s.psnCeil := by unfold flushOow; split <;> simp
@[simp] theorem flushOow_psnWriting  : (flushOow s).psnWriting = s.psnWriting := by unfold flushOow; split <;> simp
@[simp] theorem flushOow_ledgers  : (flushOow s).ledgers = s.ledgers := by unfold flushOow; split <;> simp
@[simp] theorem flushOow_pkg  : (flushOow s).pkg = s.pkg := by unfold flushOow; split <;> simp
@[simp] theorem flushOow_pkgFinal  : (flushOow s).pkgFinal = s.pkgFinal := by unfold flushOow; split <;> simp
@[simp] theorem flushOow_pages  : (flushOow s).pages = s.pages := by unfold flushOow; split <;> simp
@[simp] theorem flushOow_pageNo  : (flushOow s).pageNo = s.pageNo := by unfold flushOow; split <;> simp
@[simp] theorem flushOow_pd  : (flushOow s).pd = s.pd := by unfold flushOow; split <;> simp
@[simp] theorem flushOow_epochIdx  : (flushOow s).epochIdx = s.epochIdx := by unfold flushOow; split <;> simp
@[simp] theorem flushOow_rootStore  : (flushOow s).rootStore = s.rootStore := by unfold flushOow; split <;> simp
@[simp] theorem flushOow_lrings  : (flushOow s).lrings = s.lrings := by unfold flushOow; split <;> simp
@[simp] theorem flushOow_signQ  : (flushOow s).signQ = s.signQ := by unfold flushOow; split <;> simp
@[simp] theorem flushOow_batchNo  : (flushOow s).batchNo = s.batchNo := by unfold flushOow; split <;> simp
@[simp] theorem flushOow_elig  : (flushOow s).elig = s.elig := by unfold flushOow; split <;> simp
@[simp] theorem flushOow_ingress  : (flushOow s).ingress = s.ingress := by unfold flushOow; split <;> simp
@[simp] theorem flushOow_appended  : (flushOow s).appended = s.appended := by unfold flushOow; split <;> simp
@[simp] theorem flushOow_jsBase  : (flushOow s).jsBase = s.jsBase := by unfold flushOow; split <;> simp
@[simp] theorem flushOow_jsLog2  : (flushOow s).jsLog2 = s.jsLog2 := by unfold flushOow; split <;> simp
@[simp] theorem flushOow_jsActive  : (flushOow s).jsActive = s.jsActive := by unfold flushOow; split <;> simp
@[simp] theorem flushOow_jsBad  : (flushOow s).jsBad = s.jsBad := by unfold flushOow; split <;> simp
@[simp] theorem flushOow_storeFault  : (flushOow s).storeFault = s.storeFault := by unfold flushOow; split <;> simp
@[simp] theorem flushOow_storeStall  : (flushOow s).storeStall = s.storeStall := by unfold flushOow; split <;> simp
@[simp] theorem flushOow_quiesced  : (flushOow s).quiesced = s.quiesced := by unfold flushOow; split <;> simp
@[simp] theorem flushOow_ckptOverdue  : (flushOow s).ckptOverdue = s.ckptOverdue := by unfold flushOow; split <;> simp
@[simp] theorem flushOow_ckptAt  : (flushOow s).ckptAt = s.ckptAt := by unfold flushOow; split <;> simp
@[simp] theorem flushOow_ckptReq  : (flushOow s).ckptReq = s.ckptReq := by unfold flushOow; split <;> simp
@[simp] theorem flushOow_ckptDirty  : (flushOow s).ckptDirty = s.ckptDirty := by unfold flushOow; split <;> simp
@[simp] theorem flushOow_lastCkptSec  : (flushOow s).lastCkptSec = s.lastCkptSec := by unfold flushOow; split <;> simp
@[simp] theorem flushOow_draws  : (flushOow s).draws = s.draws := by unfold flushOow; split <;> simp
@[simp] theorem flushOow_rngPeriod  : (flushOow s).rngPeriod = s.rngPeriod := by unfold flushOow; split <;> simp
@[simp] theorem flushOow_rngT0  : (flushOow s).rngT0 = s.rngT0 := by unfold flushOow; split <;> simp
@[simp] theorem flushOow_vault  : (flushOow s).vault = s.vault := by unfold flushOow; split <;> simp
@[simp] theorem flushOow_images  : (flushOow s).images = s.images := by unfold flushOow; split <;> simp
@[simp] theorem flushOow_ports  : (flushOow s).ports = s.ports := by unfold flushOow; split <;> simp
@[simp] theorem flushOow_lcs  : (flushOow s).lcs = s.lcs := by unfold flushOow; split <;> simp
@[simp] theorem flushOow_otp  : (flushOow s).otp = s.otp := by unfold flushOow; split <;> simp
@[simp] theorem flushOow_life  : (flushOow s).life = s.life := by unfold flushOow; split <;> simp
@[simp] theorem flushOow_lining  : (flushOow s).lining = s.lining := by unfold flushOow; split <;> simp
@[simp] theorem flushOow_locked  : (flushOow s).locked = s.locked := by unfold flushOow; split <;> simp
@[simp] theorem flushOow_tamper  : (flushOow s).tamper = s.tamper := by unfold flushOow; split <;> simp
@[simp] theorem flushOow_fw  : (flushOow s).fw = s.fw := by unfold flushOow; split <;> simp
@[simp] theorem flushOow_hatter  : (flushOow s).hatter = s.hatter := by unfold flushOow; split <;> simp
@[simp] theorem flushOow_snap  : (flushOow s).snap = s.snap := by unfold flushOow; split <;> simp
@[simp] theorem flushOow_pwr  : (flushOow s).pwr = s.pwr := by unfold flushOow; split <;> simp
@[simp] theorem flushOow_startStep  : (flushOow s).startStep = s.startStep := by unfold flushOow; split <;> simp
@[simp] theorem flushOow_pwrState  : (flushOow s).pwrState = s.pwrState := by unfold flushOow; split <;> simp
@[simp] theorem flushOow_hold  : (flushOow s).hold = s.hold := by unfold flushOow; split <;> simp
@[simp] theorem flushOow_free  : (flushOow s).free = s.free := by unfold flushOow; split <;> simp
@[simp] theorem flushOow_out  : (flushOow s).out = s.out := by unfold flushOow; split <;> simp
@[simp] theorem flushOow_pending  : (flushOow s).pending = s.pending := by unfold flushOow; split <;> simp

@[simp] theorem tick_part (t : Nat) : (tick t s).part = s.part := by simp [tick]
@[simp] theorem tick_grade (t : Nat) : (tick t s).grade = s.grade := by simp [tick]
@[simp] theorem tick_rev (t : Nat) : (tick t s).rev = s.rev := by simp [tick]
@[simp] theorem tick_ecfg (t : Nat) : (tick t s).ecfg = s.ecfg := by simp [tick]
@[simp] theorem tick_epc (t : Nat) : (tick t s).epc = s.epc := by simp [tick]
@[simp] theorem tick_authorities (t : Nat) : (tick t s).authorities = s.authorities := by simp [tick]
@[simp] theorem tick_vfEnable (t : Nat) : (tick t s).vfEnable = s.vfEnable := by simp [tick]
@[simp] theorem tick_numVfs (t : Nat) : (tick t s).numVfs = s.numVfs := by simp [tick]
@[simp] theorem tick_page64 (t : Nat) : (tick t s).page64 = s.page64 := by simp [tick]
@[simp] theorem tick_tenants (t : Nat) : (tick t s).tenants = s.tenants := by simp [tick]
@[simp] theorem tick_jobs (t : Nat) : (tick t s).jobs = s.jobs := by simp [tick]
@[simp] theorem tick_nextJob (t : Nat) : (tick t s).nextJob = s.nextJob := by simp [tick]
@[simp] theorem tick_nextCreation (t : Nat) : (tick t s).nextCreation = s.nextCreation := by simp [tick]
@[simp] theorem tick_rrAdmin (t : Nat) : (tick t s).rrAdmin = s.rrAdmin := by simp [tick]
@[simp] theorem tick_rrService (t : Nat) : (tick t s).rrService = s.rrService := by simp [tick]
@[simp] theorem tick_rrWork (t : Nat) : (tick t s).rrWork = s.rrWork := by simp [tick]
@[simp] theorem tick_visit (t : Nat) : (tick t s).visit = s.visit := by simp [tick]
@[simp] theorem tick_takeUs (t : Nat) : (tick t s).takeUs = s.takeUs := by simp [tick]
@[simp] theorem tick_takeCount (t : Nat) : (tick t s).takeCount = s.takeCount := by simp [tick]
@[simp] theorem tick_takeSvc (t : Nat) : (tick t s).takeSvc = s.takeSvc := by simp [tick]
@[simp] theorem tick_dieChanged (t : Nat) : (tick t s).dieChanged = s.dieChanged := by simp [tick]
@[simp] theorem tick_crownFault (t : Nat) : (tick t s).crownFault = s.crownFault := by simp [tick]
@[simp] theorem tick_fence (t : Nat) : (tick t s).fence = s.fence := by simp [tick]
@[simp] theorem tick_badOffset (t : Nat) : (tick t s).badOffset = s.badOffset := by simp [tick]
@[simp] theorem tick_badCount (t : Nat) : (tick t s).badCount = s.badCount := by simp [tick]
@[simp] theorem tick_latches (t : Nat) : (tick t s).latches = s.latches := by simp [tick]
@[simp] theorem tick_linkWidth (t : Nat) : (tick t s).linkWidth = s.linkWidth := by simp [tick]
@[simp] theorem tick_linkSpeed (t : Nat) : (tick t s).linkSpeed = s.linkSpeed := by simp [tick]
@[simp] theorem tick_linkFatal (t : Nat) : (tick t s).linkFatal = s.linkFatal := by simp [tick]
@[simp] theorem tick_evFlash (t : Nat) : (tick t s).evFlash = s.evFlash := by simp [tick]
@[simp] theorem tick_evNext (t : Nat) : (tick t s).evNext = s.evNext := by simp [tick]
@[simp] theorem tick_pfFresh (t : Nat) : (tick t s).pfFresh = s.pfFresh := by simp [tick]
@[simp] theorem tick_psnNext (t : Nat) : (tick t s).psnNext = s.psnNext := by simp [tick]
@[simp] theorem tick_psnCeil (t : Nat) : (tick t s).psnCeil = s.psnCeil := by simp [tick]
@[simp] theorem tick_psnWriting (t : Nat) : (tick t s).psnWriting = s.psnWriting := by simp [tick]
@[simp] theorem tick_ledgers (t : Nat) : (tick t s).ledgers = s.ledgers := by simp [tick]
@[simp] theorem tick_pkg (t : Nat) : (tick t s).pkg = s.pkg := by simp [tick]
@[simp] theorem tick_pkgFinal (t : Nat) : (tick t s).pkgFinal = s.pkgFinal := by simp [tick]
@[simp] theorem tick_pages (t : Nat) : (tick t s).pages = s.pages := by simp [tick]
@[simp] theorem tick_pageNo (t : Nat) : (tick t s).pageNo = s.pageNo := by simp [tick]
@[simp] theorem tick_pd (t : Nat) : (tick t s).pd = s.pd := by simp [tick]
@[simp] theorem tick_epochIdx (t : Nat) : (tick t s).epochIdx = s.epochIdx := by simp [tick]
@[simp] theorem tick_rootStore (t : Nat) : (tick t s).rootStore = s.rootStore := by simp [tick]
@[simp] theorem tick_lrings (t : Nat) : (tick t s).lrings = s.lrings := by simp [tick]
@[simp] theorem tick_signQ (t : Nat) : (tick t s).signQ = s.signQ := by simp [tick]
@[simp] theorem tick_batchNo (t : Nat) : (tick t s).batchNo = s.batchNo := by simp [tick]
@[simp] theorem tick_elig (t : Nat) : (tick t s).elig = s.elig := by simp [tick]
@[simp] theorem tick_ingress (t : Nat) : (tick t s).ingress = s.ingress := by simp [tick]
@[simp] theorem tick_appended (t : Nat) : (tick t s).appended = s.appended := by simp [tick]
@[simp] theorem tick_jsBase (t : Nat) : (tick t s).jsBase = s.jsBase := by simp [tick]
@[simp] theorem tick_jsLog2 (t : Nat) : (tick t s).jsLog2 = s.jsLog2 := by simp [tick]
@[simp] theorem tick_jsActive (t : Nat) : (tick t s).jsActive = s.jsActive := by simp [tick]
@[simp] theorem tick_jsBad (t : Nat) : (tick t s).jsBad = s.jsBad := by simp [tick]
@[simp] theorem tick_storeFault (t : Nat) : (tick t s).storeFault = s.storeFault := by simp [tick]
@[simp] theorem tick_storeStall (t : Nat) : (tick t s).storeStall = s.storeStall := by simp [tick]
@[simp] theorem tick_quiesced (t : Nat) : (tick t s).quiesced = s.quiesced := by simp [tick]
@[simp] theorem tick_ckptOverdue (t : Nat) : (tick t s).ckptOverdue = s.ckptOverdue := by simp [tick]
@[simp] theorem tick_ckptAt (t : Nat) : (tick t s).ckptAt = s.ckptAt := by simp [tick]
@[simp] theorem tick_ckptReq (t : Nat) : (tick t s).ckptReq = s.ckptReq := by simp [tick]
@[simp] theorem tick_ckptDirty (t : Nat) : (tick t s).ckptDirty = s.ckptDirty := by simp [tick]
@[simp] theorem tick_lastCkptSec (t : Nat) : (tick t s).lastCkptSec = s.lastCkptSec := by simp [tick]
@[simp] theorem tick_draws (t : Nat) : (tick t s).draws = s.draws := by simp [tick]
@[simp] theorem tick_rngPeriod (t : Nat) : (tick t s).rngPeriod = s.rngPeriod := by simp [tick]
@[simp] theorem tick_rngT0 (t : Nat) : (tick t s).rngT0 = s.rngT0 := by simp [tick]
@[simp] theorem tick_vault (t : Nat) : (tick t s).vault = s.vault := by simp [tick]
@[simp] theorem tick_images (t : Nat) : (tick t s).images = s.images := by simp [tick]
@[simp] theorem tick_ports (t : Nat) : (tick t s).ports = s.ports := by simp [tick]
@[simp] theorem tick_lcs (t : Nat) : (tick t s).lcs = s.lcs := by simp [tick]
@[simp] theorem tick_otp (t : Nat) : (tick t s).otp = s.otp := by simp [tick]
@[simp] theorem tick_life (t : Nat) : (tick t s).life = s.life := by simp [tick]
@[simp] theorem tick_lining (t : Nat) : (tick t s).lining = s.lining := by simp [tick]
@[simp] theorem tick_locked (t : Nat) : (tick t s).locked = s.locked := by simp [tick]
@[simp] theorem tick_tamper (t : Nat) : (tick t s).tamper = s.tamper := by simp [tick]
@[simp] theorem tick_fw (t : Nat) : (tick t s).fw = s.fw := by simp [tick]
@[simp] theorem tick_hatter (t : Nat) : (tick t s).hatter = s.hatter := by simp [tick]
@[simp] theorem tick_snap (t : Nat) : (tick t s).snap = s.snap := by simp [tick]
@[simp] theorem tick_pwr (t : Nat) : (tick t s).pwr = s.pwr := by simp [tick]
@[simp] theorem tick_startStep (t : Nat) : (tick t s).startStep = s.startStep := by simp [tick]
@[simp] theorem tick_pwrState (t : Nat) : (tick t s).pwrState = s.pwrState := by simp [tick]
@[simp] theorem tick_hold (t : Nat) : (tick t s).hold = s.hold := by simp [tick]
@[simp] theorem tick_free (t : Nat) : (tick t s).free = s.free := by simp [tick]
@[simp] theorem tick_pending (t : Nat) : (tick t s).pending = s.pending := by simp [tick]

/-! ## What an accessor reads after an update -/

/-- A changed function reads as changed. -/
@[simp] theorem getFn_modFn_same (n : Nat) (f : FnState → FnState) : getFn (modFn n f s) n = f (getFn s n) := by simp [getFn, modFn]

/-- Every other function reads as before. -/
theorem getFn_modFn_ne (n m : Nat) (f : FnState → FnState) (h : m ≠ n) : getFn (modFn n f s) m = getFn s m := by
  simp [getFn, modFn, mget_mset_ne _ _ _ _ h]

/-- A changed queue reads as changed. -/
@[simp] theorem getQ_modQ_same (q : QRef) (f : Queue → Queue) : getQ (modQ q f s) q = f (getQ s q) := by
  simp [getQ, modQ, FnState.queue]

/-- Every other queue reads as before. -/
theorem getQ_modQ_ne (q r : QRef) (f : Queue → Queue) (h : r ≠ q) : getQ (modQ q f s) r = getQ s r := by
  by_cases hf : r.fn = q.fn
  · have hr : r.ring ≠ q.ring := fun e => h (by cases r; cases q; simp_all)
    simp [getQ, modQ, hf, FnState.queue, mget_mset_ne _ _ _ _ hr]
  · simp [getQ, modQ, getFn_modFn_ne _ _ _ _ hf]

/-- Changing a completion ring leaves every queue as it was. -/
@[simp] theorem getQ_modCq (n c : Nat) (f : Cq → Cq) (q : QRef) : getQ (modCq n c f s) q = getQ s q := by
  by_cases h : q.fn = n
  · subst h; simp [getQ, modCq, FnState.queue]
  · simp [getQ, modCq, getFn_modFn_ne _ _ _ _ h]

/-- A changed completion ring reads as changed. -/
@[simp] theorem cq_modCq_same (n c : Nat) (f : Cq → Cq) : (getFn (modCq n c f s) n).cq c = f ((getFn s n).cq c) := by
  simp [modCq, FnState.cq]

/-- Changing a queue leaves every completion ring as it was. -/
@[simp] theorem cq_modQ (q : QRef) (f : Queue → Queue) (n c : Nat) : (getFn (modQ q f s) n).cq c = (getFn s n).cq c := by
  by_cases h : n = q.fn
  · subst h; simp [modQ, FnState.cq]
  · simp [modQ, getFn_modFn_ne _ _ _ _ h]

/-- A changed die of the part reads as changed. -/
theorem getDie_modDie_same (d : Nat) (f : Die → Die) (h : d < s.dies.length) : getDie (modDie d f s) d = f (getDie s d) := by
  simp only [getDie, modDie]; exact lset_getD_same _ _ _ _ h

/-- Every other die reads as before. -/
theorem getDie_modDie_ne (d e : Nat) (f : Die → Die) (h : e ≠ d) : getDie (modDie d f s) e = getDie s e := by
  simp only [getDie, modDie]; exact lset_getD_ne _ _ _ _ _ h

/-- No update of a die changes how many dies there are. -/
@[simp] theorem modDie_dies_length (d : Nat) (f : Die → Die) : (modDie d f s).dies.length = s.dies.length := by simp [modDie]

/-- A changed tenant reads as changed. -/
@[simp] theorem getTenant_modTenant_same (t : Nat) (f : Tenant → Tenant) : getTenant (modTenant t f s) t = f (getTenant s t) := by
  simp [getTenant, modTenant]

/-- An AER report leaves queues as they were. -/
@[simp] theorem getQ_aerError (n c a : Nat) (q : QRef) : getQ (aerError n c a s) q = getQ s q := by
  by_cases h : q.fn = n
  · subst h; simp [getQ, aerError, FnState.queue]; simp [getFn]
  · simp [getQ, aerError, getFn_modFn_ne _ _ _ _ h]; simp [getFn]

/-- A message leaves queues and completion rings as they were: only MSI-X state of its function moves. -/
@[simp] theorem getQ_signal (n v : Nat) (q : QRef) : getQ (signal n v s) q = getQ s q := by
  unfold signal; simp only
  split
  · rfl
  · split
    · by_cases h : q.fn = n
      · subst h; simp [getQ, FnState.queue]
      · simp [getQ, getFn_modFn_ne _ _ _ _ h]
    · split
      · by_cases h : q.fn = n
        · subst h; simp [getQ, FnState.queue]
        · simp [getQ, getFn_modFn_ne _ _ _ _ h]
      · simp [getQ, getFn]

/-- The same for completion rings. -/
@[simp] theorem cq_signal (n v m c : Nat) : (getFn (signal n v s) m).cq c = (getFn s m).cq c := by
  unfold signal; simp only
  split
  · rfl
  · split
    · by_cases h : m = n
      · subst h; simp [FnState.cq]
      · simp [getFn_modFn_ne _ _ _ _ h]
    · split
      · by_cases h : m = n
        · subst h; simp [FnState.cq]
        · simp [getFn_modFn_ne _ _ _ _ h]
      · simp [getFn]

/-- A package event leaves every queue as it was. -/
@[simp] theorem getQ_raiseFnEvent (i : Nat) (q : QRef) : getQ (raiseFnEvent i s) q = getQ s q := by
  unfold raiseFnEvent; split
  · rfl
  · simp; rfl

/-- A package event leaves every completion ring as it was. -/
@[simp] theorem cq_raiseFnEvent (i m c : Nat) : (getFn (raiseFnEvent i s) m).cq c = (getFn s m).cq c := by
  unfold raiseFnEvent; split
  · rfl
  · simp; rfl

/-- A recorder entry changes no queue. -/
@[simp] theorem getQ_recEvent (k : Nat) (b : Bytes) (q : QRef) : getQ (recEvent k b s) q = getQ s q := by simp [getQ, getFn]

/-- Output changes no queue. -/
@[simp] theorem getQ_emit (o : Out) (q : QRef) : getQ (emit o s) q = getQ s q := rfl

/-- A count changes no queue. -/
@[simp] theorem getQ_countOn (d e n k : Nat) (q : QRef) : getQ (countOn d e n k s) q = getQ s q := rfl

end Sys2Proof.Machine
end

