-- ==== Sys2Proof/Laws/Rows.lean ====
section
/-! SUPPORT. What a descriptor row does, said once for every opcode: the way from the take to the operation, and from the operation to the
completion, so that a statement about one command speaks of its operation only. -/

namespace Sys2Proof.Machine

open Sys2Proof.Safety

/-- The job that a number names. -/
theorem getJob_of {s : State} {j : Nat} {x : Job} (h : mget s.jobs j = some x) : getJob s j = x := by rw [getJob, h, Option.getD_some]

/-- Setting a key twice is setting it once. -/
theorem mset_mset {α : Type} (m : KMap α) (k : Nat) (v w : α) : mset (mset m k v) k w = mset m k w := by
  induction m with
  | nil => simp [mset]
  | cons p m ih =>
    obtain ⟨a, u⟩ := p
    simp only [mset]
    split
    · simp [mset]
    · split
      · simp [mset]
      · rename_i h1 h2
        simp only [mset, h1, h2, if_false, ih]

/-- Changing a job twice is changing it once. -/
theorem modJob_modJob (id : Nat) (f g : Job → Job) (s : State) : modJob id g (modJob id f s) = modJob id (fun x => g (f x)) s := by
  cases h : mget s.jobs id with
  | none => simp only [modJob, h]
  | some x => simp only [modJob, h, mget_mset_same, mset_mset]

/-- A changed job. -/
theorem modJob_job (id : Nat) (f : Job → Job) (s : State) (x : Job) (h : mget s.jobs id = some x) : mget (modJob id f s).jobs id = some (f x) := by
  simp only [modJob, h, mget_mset_same]

/-- A byte's number is the number modulo 256. -/
theorem byte_toNat (n : Nat) : (byte n).toNat = n % 256 := by simp [byte]

/-- `withOp` sets the opcode, and the job's copy of the descriptor keeps it. -/
theorem op_withOp (d : Desc) (op : Nat) : (d.withOp op).op = op % 256 := by
  simp [Desc.withOp, Desc.op, Desc.f, field, slice, fit, leNat]

/-- Cutting to 64 bytes twice is cutting once. -/
theorem fit_fit (n : Nat) (b : Bytes) : fit n (fit n b) = fit n b := by
  have h : (fit n b).length = n := by simp [fit, zeros]; omega
  have : fit n (fit n b) = (fit n b).take n ++ zeros (n - (fit n b).length) := rfl
  rw [this, h, List.take_of_length_le (by omega)]; simp [zeros]

/-- The job's copy of a row's descriptor is the descriptor. -/
theorem fit_withOp (d : Desc) (op : Nat) : (⟨fit 64 (d.withOp op).bytes⟩ : Desc) = d.withOp op := by
  simp [Desc.withOp, fit_fit]

/-! ## The turn of the dispatcher -/

/-- Jobs, JOB_ID and clock are the same, and so are the tenant and the generation of every function. -/
def SameJobs (s v : State) : Prop := v.jobs = s.jobs ∧ v.nextJob = s.nextJob ∧ v.time = s.time
    ∧ ∀ n, (getFn v n).tenant = (getFn s n).tenant ∧ (getFn v n).gen = (getFn s n).gen

theorem SameJobs.rfl {s : State} : SameJobs s s := ⟨Eq.refl _, Eq.refl _, Eq.refl _, fun _ => ⟨Eq.refl _, Eq.refl _⟩⟩

theorem SameJobs.trans {s v w : State} (h : SameJobs s v) (g : SameJobs v w) : SameJobs s w :=
  ⟨g.1.trans h.1, g.2.1.trans h.2.1, g.2.2.1.trans h.2.2.1, fun n => ⟨(g.2.2.2 n).1.trans (h.2.2.2 n).1, (g.2.2.2 n).2.trans (h.2.2.2 n).2⟩⟩

/-- A queue's change is none of a job. -/
theorem SameJobs.modQ (q : QRef) (f : Queue → Queue) (s : State) : SameJobs s (Machine.modQ q f s) := by
  refine ⟨by simp, by simp, by simp, fun n => ?_⟩
  by_cases h : n = q.fn
  · subst h; simp [Machine.modQ]
  · simp [Machine.modQ, getFn_modFn_ne _ _ _ _ h]

/-- A completion ring's change is none of a job. -/
theorem SameJobs.modCq (m c : Nat) (f : Cq → Cq) (s : State) : SameJobs s (Machine.modCq m c f s) := by
  refine ⟨by simp, by simp, by simp, fun n => ?_⟩
  by_cases h : n = m
  · subst h; simp [Machine.modCq]
  · simp [Machine.modCq, getFn_modFn_ne _ _ _ _ h]

/-- Nor is the count of a new round. -/
theorem SameJobs.newRound (s : State) : SameJobs s (Machine.newRound s) := by
  refine ⟨Eq.refl _, Eq.refl _, Eq.refl _, fun n => ?_⟩
  simp only [Machine.newRound, getFn, mget_mmap]
  cases mget s.fns n <;> simp

/-- The dispatcher's turn changes no job. -/
theorem SameJobs.turn {s : State} {r : QRef × Desc × State} (h : Machine.turn s = some r) : SameJobs s r.2.2 := by
  have hw : SameJobs s (takeWindow s) := by unfold takeWindow; split <;> exact SameJobs.rfl
  have he : SameJobs s (endRound (takeWindow s)) := by
    unfold endRound; split
    · exact hw.trans (SameJobs.newRound _)
    · exact hw
  unfold Machine.turn at h
  generalize endRound (takeWindow s) = v at h he
  simp only at h
  split at h
  · cases h
  · split at h
    · cases h; exact he.trans SameJobs.rfl
    · split at h
      · cases h; exact he.trans SameJobs.rfl
      · have hc : SameJobs s { v with takeCount := v.takeCount + 1 } := he
        generalize ({ v with takeCount := v.takeCount + 1 } : State) = u at h hc
        unfold nextWork at h
        simp only at h
        split at h
        · rename_i y _
          cases h
          exact (show SameJobs s ({ u with visit := some (y.1.1, y.2 - 1) } : State) from hc).trans (SameJobs.modQ _ _ _)
        · obtain ⟨y, -, hy⟩ := Option.map_eq_some_iff.mp h
          subst hy
          have hn := hc.trans (SameJobs.newRound u)
          exact (show SameJobs s ({ Machine.newRound u with visit := some (y.1.1, y.2 - 1) } : State) from hn).trans (SameJobs.modQ _ _ _)

/-- The turn of a row that is taken. -/
theorem turnState_of (op : Nat) (x : Sub) (s : State) (h : Takes op x s) : taking x.q (x.d.withOp op) (tick x.t s) = some (turnState op x s) := by
  unfold Takes at h
  obtain ⟨v, hv⟩ := Option.isSome_iff_exists.mp h
  simp [turnState, hv]

/-- The turn of a row changes no job. -/
theorem SameJobs.turnState (op : Nat) (x : Sub) (s : State) : SameJobs (tick x.t s) (Safety.turnState op x s) := by
  unfold Safety.turnState
  cases h : taking x.q (x.d.withOp op) (tick x.t s) with
  | none => exact SameJobs.rfl
  | some v =>
    unfold taking at h
    split at h
    · rename_i r hr
      split at h
      · cases h
        exact (SameJobs.modQ _ _ _).trans (SameJobs.turn hr)
      · cases h
    · cases h

/-- JOB_ID of a row's job is the next one at its turn. -/
theorem turnState_nextJob (op : Nat) (x : Sub) (s : State) : (Safety.turnState op x s).nextJob = jobOf x s := (SameJobs.turnState op x s).2.1

/-! ## A stop leaves the jobs alone -/

/-- A message is none of a job. -/
theorem SameJobs.signal (fn v : Nat) (s : State) : SameJobs s (Machine.signal fn v s) := by
  have hm : ∀ f : FnState → FnState, (∀ x, (f x).tenant = x.tenant ∧ (f x).gen = x.gen) → SameJobs s (modFn fn f s) := by
    intro f hf
    refine ⟨by simp, by simp, by simp, fun n => ?_⟩
    by_cases h : n = fn
    · subst h; simp [hf]
    · simp [getFn_modFn_ne _ _ _ _ h]
  unfold Machine.signal; simp only
  split
  · exact SameJobs.rfl
  · split
    · exact hm _ fun _ => ⟨Eq.refl _, Eq.refl _⟩
    · split
      · exact hm _ fun _ => ⟨Eq.refl _, Eq.refl _⟩
      · exact ⟨by simp, by simp, by simp, fun n => by simp [getFn]⟩

/-- An event of the package is none of a job. -/
theorem SameJobs.raiseFnEvent (i : Nat) (s : State) : SameJobs s (Machine.raiseFnEvent i s) := by
  unfold Machine.raiseFnEvent; split
  · exact SameJobs.rfl
  · exact (show SameJobs s { s with fnEvent := lset s.fnEvent i true } from SameJobs.rfl).trans (SameJobs.signal _ _ _)

/-- A record is none of a job. -/
theorem SameJobs.recEvent (k : Nat) (b : Bytes) (s : State) : SameJobs s (Machine.recEvent k b s) :=
  ⟨by simp, by simp, by simp, fun n => by simp [getFn]⟩

/-- A completion owed for a stop is none of a job. -/
theorem SameJobs.settleOwed (q : QRef) (s : State) : SameJobs s (Machine.settleOwed q s) := by
  unfold Machine.settleOwed; simp only; split
  · exact SameJobs.rfl
  · split
    · exact (SameJobs.modQ _ _ _).trans ((SameJobs.modCq _ _ _ _).trans (SameJobs.modCq _ _ _ _))
    · exact SameJobs.rfl

/-- A stop of a queue touches no job. -/
theorem SameJobs.ringStop (q : QRef) (cause : Nat) (o : OwedStop) (b : Bytes) (s : State) : SameJobs s (Machine.ringStop q cause o b s) := by
  unfold Machine.ringStop
  exact (SameJobs.modQ _ _ _).trans ((SameJobs.signal _ _ _).trans ((SameJobs.raiseFnEvent _ _).trans ((SameJobs.recEvent _ _ _).trans (SameJobs.settleOwed _ _))))

/-- Nor does the stop at an entry that could not be read. -/
theorem SameJobs.fetchStop (q : QRef) (s : State) : SameJobs s (Machine.fetchStop q s) := by
  unfold Machine.fetchStop; simp only; split
  · exact (SameJobs.modQ _ _ _).trans (SameJobs.ringStop _ _ _ _ _)
  · exact SameJobs.rfl

/-! ## The take and the admission -/

/-- The job of a take exists, is the one of the row, and has the row's descriptor. -/
theorem takeEntry_id (q : QRef) (d : Desc) (s : State) : (takeEntry q d s).1 = s.nextJob := rfl

/-- A take's JOB_ID is the next one. -/
theorem takeJob_id (q : QRef) (d : Desc) (s : State) : (takeJob q d s).1 = s.nextJob := by unfold takeJob; rfl

/-- The job that a take makes. -/
theorem takeEntry_job (q : QRef) (d : Desc) (s : State) :
    mget (takeEntry q d s).2.jobs s.nextJob = some
      { fn := q.fn, tenant := (getFn s q.fn).tenant, ring := q.ring, gen := (getFn s q.fn).gen, idx := ((getFn s q.fn).queue q.ring).head
        creation := ((getFn s q.fn).queue q.ring).creation, d := ⟨fit 64 d.bytes⟩, takenAt := s.time.now, phase := .wait 0
        srcLen := if d.indirect then 0 else d.srcLen } := by
  simp only [takeEntry, (SameJobs.fetchStop _ _).1, countOn_jobs, modCq_jobs, modCq_nextJob, modQ_nextJob, mget_mset_same]

/-- A take touches no tenant and no generation. -/
theorem takeEntry_fn (q : QRef) (d : Desc) (s : State) (n : Nat) :
    (getFn (takeEntry q d s).2 n).tenant = (getFn s n).tenant ∧ (getFn (takeEntry q d s).2 n).gen = (getFn s n).gen := by
  simp only [takeEntry]
  rw [((SameJobs.fetchStop _ _).2.2.2 n).1, ((SameJobs.fetchStop _ _).2.2.2 n).2]
  simp only [getFn, countOn_fns]
  exact ((SameJobs.modQ q _ s).trans (SameJobs.modCq _ _ _ _)).2.2.2 n

/-- The job of a row at its take. -/
theorem takenState_job (op : Nat) (x : Sub) (s : State) :
    mget (takenState op x s).jobs (jobOf x s) = some
      { fn := x.q.fn, tenant := (getFn (turnState op x s) x.q.fn).tenant, ring := x.q.ring, gen := (getFn (turnState op x s) x.q.fn).gen
        idx := ((getFn (turnState op x s) x.q.fn).queue x.q.ring).head, creation := ((getFn (turnState op x s) x.q.fn).queue x.q.ring).creation
        d := x.d.withOp op, takenAt := (turnState op x s).time.now, phase := .wait 0
        srcLen := if (x.d.withOp op).indirect then 0 else (x.d.withOp op).srcLen } := by
  have := takeEntry_job x.q (x.d.withOp op) (turnState op x s)
  rw [turnState_nextJob, fit_withOp] at this
  exact this

/-- The job in the state of its admission checks. -/
theorem admitState_job (id : Nat) (s : State) (x : Job) (h : mget s.jobs id = some x) :
    ∃ b n, mget (admitState id s).jobs id = some { admittedJob s x with phase := .engine, sampled := b, admNo := n } := by
  refine ⟨(sampleJob x.die x.fn (wakeDie x.die s)).1, (getDie s x.die).admCount, ?_⟩
  simp only [admitState, h, countOn_jobs, modDie_jobs, mget_mset_same]

/-- A job that neither is in an internal ring, nor reads a table or source, nor is at an engine needs no work of the row. -/
theorem workJob_quiet (id : Nat) (x : Sub) (s : State) (hr : (mget s.jobs id).any (fun j => decide (j.phase = .ring)) = false)
    (ht : (getJob s id).phase ≠ .table) (hs : (getJob s id).phase ≠ .source) (he : (getJob s id).phase ≠ .engine) :
    workJob id x s = s := by
  have p : pollTo id 64 s = s := by simp [pollTo, hr]
  have f : feed id x s = s := by simp [feed, ht, hs]
  simp [workJob, p, f, endWork, he]

/-- Queues and completion rings are released without touching a job. -/
theorem settleOwed_jobs (q : QRef) (s : State) : (settleOwed q s).jobs = s.jobs := by
  unfold settleOwed; simp only; split
  · rfl
  · split <;> simp [pushReady]

/-- Folding steps that leave the jobs alone leaves the jobs alone. -/
theorem foldl_jobs {α : Type} (g : State → α → State) (hg : ∀ s a, (g s a).jobs = s.jobs) (l : List α) (s : State) :
    (l.foldl g s).jobs = s.jobs := by
  induction l generalizing s with
  | nil => rfl
  | cons a l ih => rw [List.foldl_cons, ih, hg]

/-- The release of finished jobs touches no job. -/
theorem releaseQueue_jobs (q : QRef) (s : State) : (releaseQueue q s).jobs = s.jobs := by
  unfold releaseQueue; simp only
  rw [settleOwed_jobs, foldl_jobs]
  · simp
  · intro s a; split <;> simp [pushReady]

/-- A finished job is done, or gone. -/
theorem finishJob_job (id st info : Nat) (r o : Bytes) (s : State) :
    mget (finishJob id st info r o s).jobs id = none ∨ ∃ j, mget (finishJob id st info r o s).jobs id = some j ∧ j.phase = .done := by
  unfold finishJob; split
  · rename_i h; exact Or.inl h
  · rename_i y hy
    generalize countOn y.die (if okStatus st then 3 else 4) y.fn 1 (freeInst id s) = v
    by_cases h : stale v y = true
    · simp only [h, if_true]; left; exact mget_mdel_same _ _
    · simp only [h]; right
      simp only [Bool.false_eq_true, if_false, releaseQueue_jobs, mget_mset_same]
      exact ⟨_, rfl, rfl⟩

/-- A finished job needs no work of the row. -/
theorem workJob_finish (id : Nat) (x : Sub) (st info : Nat) (r o : Bytes) (s : State) :
    workJob id x (finishJob id st info r o s) = finishJob id st info r o s := by
  rcases finishJob_job id st info r o s with h | ⟨j, h, hp⟩
  · apply workJob_quiet <;> simp [h, getJob]
  · apply workJob_quiet <;> simp [h, getJob, hp]

/-- A job that waits, for the fence or for something else, needs no work of the row. -/
theorem workJob_phase (id : Nat) (x : Sub) (s : State) (p : Phase) (h : ∃ j, mget s.jobs id = some j ∧ j.phase = p)
    (hp : p = .fence ∨ p = .done ∨ ∃ n, p = .wait n) : workJob id x s = s := by
  obtain ⟨j, h, hj⟩ := h
  rcases hp with hp | hp | ⟨n, hp⟩ <;> subst hp <;> apply workJob_quiet <;> simp [h, getJob, hj]

/-- The state after a row that is not taken: time has passed. -/
theorem runOp_waits (op : Nat) (x : Sub) (s : State) (h : ¬ Takes op x s) : runOp op x s = tick x.t s := by
  unfold Takes at h
  simp only [Bool.not_eq_true, Option.isSome_eq_false_iff, Option.isNone_iff_eq_none] at h
  simp [runOp, runDesc, h]

/-- A row that is taken. -/
theorem runOp_takes (op : Nat) (x : Sub) (s : State) (h : Takes op x s) :
    runOp op x s = ended x s (workJob (jobOf x s) x (takeJob x.q (x.d.withOp op) (turnState op x s)).2) := by
  simp only [runOp, runDesc, turnState_of op x s h, ended]
  rw [takeJob_id, turnState_nextJob]

/-- A service or admin command goes from its take to its world. -/
theorem takeJob_command (op : Nat) (x : Sub) (s : State) (hk : queueKind x.q.ring ≠ 0) :
    (takeJob x.q (x.d.withOp op) (turnState op x s)).2 = toWorld (jobOf x s) (takenState op x s) := by
  unfold takeJob takenState
  simp only [hk, if_false, takeEntry_id, turnState_nextJob]

/-- A command that reaches its admission at its take. -/
theorem runOp_reaches (op : Nat) (hop : op < 256) (x : Sub) (s : State) (h : Reaches op x s) :
    runOp op x s = ended x s (workJob (jobOf x s) x (admitJob (fullSem op) (jobOf x s) (takenState op x s))) := by
  obtain ⟨ht, hk, ha, hw⟩ := h
  rw [runOp_takes op x s ht, takeJob_command op x s hk]
  have hj := takenState_job op x s
  generalize takenState op x s = v at *
  generalize jobOf x s = id at *
  have hd : (getJob v id).d.op = op := by
    rw [getJob, hj, Option.getD_some]; exact (op_withOp _ _).trans (Nat.mod_eq_of_lt hop)
  have hr : (getJob v id).ring = x.q.ring := by
    rw [getJob, hj, Option.getD_some]
  have : toWorld id v = admitJob (fullSem op) id v := by
    unfold toWorld; simp only [hd, hr, ha, admitOwn]
    rw [if_neg]
    rintro ⟨-, h1, h2⟩
    rcases hw with hw | hw
    · exact h1 hw
    · exact hw h2
  rw [this]

/-- The operation of an accepted command without a source. -/
theorem runOp_accepted (op : Nat) (hop : op < 256) (x : Sub) (s : State) (h : Accepted op x s) :
    runOp op x s = ended x s (workJob (jobOf x s) x ((fullSem op).go (jobOf x s) (admission0 op x s))) := by
  obtain ⟨hr, ha, hs⟩ := h
  rw [runOp_reaches op hop x s hr]
  have hj := takenState_job op x s
  have hm : mget (takenState op x s).jobs (jobOf x s) = some (getJob (takenState op x s) (jobOf x s)) := by
    rw [getJob, hj, Option.getD_some]
  have ha' : admission (fullSem op) (admitState (jobOf x s) (takenState op x s))
      (admittedJob (takenState op x s) (getJob (takenState op x s) (jobOf x s))) = none := ha
  have hd : (getJob (takenState op x s) (jobOf x s)).d = x.d.withOp op := by
    simp only [getJob, hj, Option.getD_some]
  have : admitJob (fullSem op) (jobOf x s) (takenState op x s) = startSource (fullSem op) (jobOf x s) (admission0 op x s) := by
    simp only [admitJob, hm, ha']; rfl
  rw [this]
  obtain ⟨b, c, hb⟩ := admitState_job _ _ _ hm
  have hd2 : (getJob (admission0 op x s) (jobOf x s)).d = x.d.withOp op := by
    simp only [getJob, admission0, hb, Option.getD_some, admittedJob, ← hd]
  have : startSource (fullSem op) (jobOf x s) (admission0 op x s) = (fullSem op).go (jobOf x s) (admission0 op x s) := by
    unfold startSource; simp only [hd2]
    rw [if_pos]
    rcases hs with hs | hs
    · exact Or.inr (by simp [hs])
    · exact Or.inl hs
  rw [this]

/-- A command whose admission fails completes with that failure. -/
theorem runOp_refused (op : Nat) (hop : op < 256) (x : Sub) (s : State) (f : Fail) (h : Reaches op x s)
    (ha : admission (fullSem op) (admission0 op x s) (admittedAs op x s) = some f) :
    runOp op x s = ended x s (refuseJob (jobOf x s) f (admission0 op x s)) := by
  rw [runOp_reaches op hop x s h]
  have hj := takenState_job op x s
  have hm : mget (takenState op x s).jobs (jobOf x s) = some (getJob (takenState op x s) (jobOf x s)) := by
    rw [getJob, hj, Option.getD_some]
  have ha' : admission (fullSem op) (admitState (jobOf x s) (takenState op x s))
      (admittedJob (takenState op x s) (getJob (takenState op x s) (jobOf x s))) = some f := ha
  have : admitJob (fullSem op) (jobOf x s) (takenState op x s) = refuseJob (jobOf x s) f (admission0 op x s) := by
    simp only [admitJob, hm, ha']; rfl
  rw [this]; unfold refuseJob failJob; rw [workJob_finish]

/-- A job at its admission, as the row's take left it. -/
theorem admission0_raw (op : Nat) (x : Sub) (s : State) : ∃ b n, mget (admission0 op x s).jobs (jobOf x s) = some
    { admittedJob (takenState op x s) (getJob (takenState op x s) (jobOf x s)) with phase := .engine, sampled := b, admNo := n } := by
  have hj := takenState_job op x s
  have hm : mget (takenState op x s).jobs (jobOf x s) = some (getJob (takenState op x s) (jobOf x s)) := by
    rw [getJob, hj, Option.getD_some]
  exact admitState_job _ _ _ hm

/-- The job of a source that arrives while it is waited for. -/
theorem sourceArrive_source (sem : OpSem) (id : Nat) (src : Bytes) (s : State) (x : Job) (h : mget s.jobs id = some x) (hp : x.phase = .source) :
    sourceArrive sem id src s = sem.go id (countOn x.die 5 x.fn x.srcLen
        (modJob id (fun y => { y with phase := .engine, src := fit y.srcLen src, arrived := some (jobStamp s y) }) s)) := by
  simp only [sourceArrive, h, hp, if_true]

/-- The operation of an accepted command once its source is held. -/
theorem runOp_sourced (op : Nat) (hop : op < 256) (x : Sub) (s : State) (h : AcceptedSrc op x s) :
    runOp op x s = ended x s (endWork (jobOf x s) ((semOf op).go (jobOf x s) (sourceHeld op x s))) := by
  obtain ⟨hr, ha, h1, h2, h3, h4⟩ := h
  rw [runOp_reaches op hop x s hr]
  have hj := takenState_job op x s
  have hm : mget (takenState op x s).jobs (jobOf x s) = some (getJob (takenState op x s) (jobOf x s)) := by
    rw [getJob, hj, Option.getD_some]
  have hg := getJob_of hj
  obtain ⟨b, n, hb⟩ := admission0_raw op x s
  rw [hg] at hb
  have e1 : admitJob (fullSem op) (jobOf x s) (takenState op x s) = startSource (fullSem op) (jobOf x s) (admission0 op x s) := by
    unfold admitJob; rw [hm]
    simp only [admission0, admittedAs] at ha ⊢
    rw [ha]
  rw [e1]
  unfold sourceHeld
  have hop' : (x.d.withOp op).op = op := by rw [op_withOp, Nat.mod_eq_of_lt hop]
  clear ha e1 hm hj hr
  generalize admission0 op x s = a at hb ⊢
  generalize x.d.withOp op = d at *
  obtain ⟨k, hk, hkd, hkb, hka⟩ : ∃ k, mget a.jobs (jobOf x s) = some k ∧ k.d = d ∧ k.srcBad = false ∧ k.arrived = none := ⟨_, hb, rfl, rfl, rfl⟩
  generalize jobOf x s = id at *
  have hgk : getJob a id = k := by rw [getJob, hk, Option.getD_some]
  have e2 : startSource (fullSem op) id a = modJob id (fun y => { y with phase := .source, srcLen := y.d.srcLen }) a := by
    simp [startSource, hgk, hkd, hkb, hka, h1, h2, h3]
  rw [e2]
  have hv : mget (modJob id (fun y => { y with phase := .source, srcLen := y.d.srcLen }) a).jobs id = some { k with phase := .source, srcLen := k.d.srcLen } :=
    modJob_job _ _ _ _ hk
  generalize modJob id (fun y => { y with phase := .source, srcLen := y.d.srcLen }) a = v at *
  have hgv : getJob v id = { k with phase := .source, srcLen := k.d.srcLen } := by rw [getJob, hv, Option.getD_some]
  have p : pollTo id 64 v = v := by simp [pollTo, hv]
  have hvt : mget (tick x.tSrc v).jobs id = some { k with phase := .source, srcLen := k.d.srcLen } := by rw [tick_jobs]; exact hv
  have hgt : getJob (tick x.tSrc v) id = { k with phase := .source, srcLen := k.d.srcLen } := by rw [getJob, hvt, Option.getD_some]
  have f : feed id x v = sourceArrive (semOf op) id x.src (tick x.tSrc v) := by
    unfold feed; simp only [hgv, hkd, hop', h4, reduceCtorEq, if_false, if_true, Bool.false_eq_true]
  unfold workJob
  rw [p, f, sourceArrive_source _ _ _ _ _ hvt rfl]
  simp only [hgt]

/-- The lane that `laneOf` names runs the job. -/
theorem laneOf_job (s : State) (id l : Nat) (h : laneOf s id = some l) : ((getDie s (getJob s id).die).lanes.getD l {}).job = some id := by
  unfold laneOf at h
  obtain ⟨hl, hp, -⟩ := List.findIdx?_eq_some_iff_getElem.mp h
  rw [List.getD_eq_getElem?_getD, List.getElem?_eq_getElem hl]
  simpa using hp

/-- The engine work of a job that is at its engine ends with its operation's own end. -/
theorem endWork_engine (op id r : Nat) (e : State) (hk : queueKind r = 0) (hp : (getJob e id).phase = .engine)
    (hop : (getJob e id).d.op = op) (hr : (getJob e id).ring = r) (he : onEngine e id (getJob e id) = true)
    (hst : stalled (getDie e (getJob e id).die) (outlet (getJob e id)).1 (outlet (getJob e id)).2 = false) :
    endWork id e = (semOf op).fin id e := by
  have hring : (getJob e id).ring ≠ ownRing := by
    rw [hr]; intro hq; rw [hq] at hk; simp [queueKind, ownRing] at hk
  unfold endWork; rw [if_pos hp]
  split
  · rename_i l hl
    unfold laneDone; rw [laneOf_job _ _ _ hl]
    simp only [Bool.not_true, Bool.false_and, Bool.false_eq_true, if_false]
    rw [if_neg hring, hop]
  · rename_i hl
    have hn : onLane e id = false := by
      simp only [laneOf, List.findIdx?_eq_none_iff] at hl
      simp only [onLane, List.any_eq_false]
      intro u hu; simpa using hl u hu
    have hm : mget e.jobs id = some (getJob e id) := by
      cases hj : mget e.jobs id with
      | none =>
        have : getJob e id = {} := by simp [getJob, hj]
        rw [this] at hp; cases hp
      | some j => simp [getJob, hj]
    unfold engineDone; simp only [hn, hst, hop, Bool.false_eq_true, or_self, if_false]
    unfold engineEnd; rw [hm]
    simp only
    rw [if_pos ⟨hp, he⟩]

/-- The engine work of a work-ring row whose job is at its engine ends with its operation's own end. -/
theorem runOp_engine (op : Nat) (x : Sub) (s : State) (h : AtEngine op x s) :
    runOp op x s = ended x s ((semOf op).fin (jobOf x s) (engineState op x s)) := by
  unfold AtEngine at h
  rw [runOp_takes op x s h.1]
  have hw : workJob (jobOf x s) x (takeJob x.q (x.d.withOp op) (turnState op x s)).2 = endWork (jobOf x s) (engineState op x s) := by
    simp only [workJob, engineState, takeJob_id, turnState_nextJob]
  rw [hw, endWork_engine op _ _ _ h.2.1 h.2.2.1 h.2.2.2.1 h.2.2.2.2.1 h.2.2.2.2.2.1 h.2.2.2.2.2.2]

/-- The job at its admission: it exists, and has what the row and the queue gave it. -/
theorem admission0_job (op : Nat) (x : Sub) (s : State) :
    mget (admission0 op x s).jobs (jobOf x s) = some (admittedJobOf op x s)
      ∧ (admittedJobOf op x s).d = x.d.withOp op ∧ (admittedJobOf op x s).fn = x.q.fn ∧ (admittedJobOf op x s).ring = x.q.ring
      ∧ (admittedJobOf op x s).tenant = (getFn (tick x.t s) x.q.fn).tenant ∧ (admittedJobOf op x s).tmp = 0
      ∧ (admittedJobOf op x s).src = [] ∧ (admittedJobOf op x s).die = 0 ∧ (admittedJobOf op x s).phase = .engine
      ∧ (admittedJobOf op x s).epoch = (takenState op x s).time.epoch ∧ (admittedJobOf op x s).gen = (getFn (tick x.t s) x.q.fn).gen := by
  have hj := takenState_job op x s
  obtain ⟨b, n, hb⟩ := admission0_raw op x s
  have e : admittedJobOf op x s = _ := getJob_of hb
  have hf := (SameJobs.turnState op x s).2.2.2 x.q.fn
  have hg := getJob_of hj
  rw [hg] at hb e
  generalize takenState op x s = v at *
  generalize turnState op x s = u at *
  generalize tick x.t s = w at *
  rw [← e] at hb
  refine ⟨hb, ?_⟩
  rw [e]; simp only [admittedJob, hf, and_self]

/-- A little-endian number depends on its bytes only, and an absent byte counts as 0. -/
theorem leNat_ext (l m : Bytes) (h : ∀ i, l.getD i 0 = m.getD i 0) : leNat l = leNat m := by
  induction l generalizing m with
  | nil =>
    induction m with
    | nil => rfl
    | cons b bs ih =>
      have h0 := h 0
      have := ih (fun i => by have := h (i + 1); simpa using this)
      simp only [leNat, ← this] at *
      simp at h0
      simp [← h0]
  | cons a as ih =>
    cases m with
    | nil =>
      have h0 := h 0
      have := ih [] (fun i => by have := h (i + 1); simpa using this)
      simp at h0
      simp [leNat, this, h0]
    | cons b bs =>
      have h0 := h 0
      have := ih bs (fun i => by have := h (i + 1); simpa using this)
      simp at h0
      simp [leNat, this, h0]

/-- One byte of a slice. -/
theorem slice_getD (l : Bytes) (off n i : Nat) : (slice l off n).getD i 0 = if i < n then l.getD (off + i) 0 else 0 := by
  simp only [slice, List.getD_eq_getElem?_getD, List.getElem?_take]
  split <;> simp

/-- One byte of a cut or padded run. -/
theorem fit_getD (l : Bytes) (n i : Nat) : (fit n l).getD i 0 = if i < n then l.getD i 0 else 0 := by
  simp only [fit, zeros, List.getD_eq_getElem?_getD, List.getElem?_append, List.getElem?_take, List.length_take]
  by_cases h : i < n
  · by_cases h2 : i < l.length
    · simp [h, h2]
    · simp only [h, if_true]
      rw [if_neg (by omega)]
      simp only [List.getElem?_replicate]
      rw [if_pos (by omega)]
      simp [List.getElem?_eq_none (by omega : l.length ≤ i)]
  · simp only [h, if_false]
    rw [if_neg (by omega)]
    simp only [List.getElem?_replicate]
    rw [if_neg (by omega)]; rfl

/-- Reading a field of a descriptor away from its opcode byte does not see the opcode. -/
theorem f_withOp (d : Desc) (op i n : Nat) (hi : 1 ≤ i) (hn : i + n ≤ 64) : (d.withOp op).f i n = d.f i n := by
  simp only [Desc.withOp, Desc.f, field]
  apply leNat_ext
  intro k
  rw [slice_getD, slice_getD, fit_getD]
  split
  · rw [if_pos (by omega)]
    obtain ⟨m, hm⟩ : ∃ m, i + k = m + 1 := ⟨i + k - 1, by omega⟩
    simp only [hm, List.getD_eq_getElem?_getD, List.getElem?_cons_succ, List.getElem?_drop, Nat.add_comm]
  · rfl

/-- A finished job, whatever its completion, has no engine work left. -/
theorem endWork_finish (id st info : Nat) (r o : Bytes) (s : State) : endWork id (finishJob id st info r o s) = finishJob id st info r o s := by
  rcases finishJob_job id st info r o s with h | ⟨j, h, hp⟩ <;> simp [endWork, getJob, *]

/-- The time is the same before and after the admission of a job. -/
theorem admitState_time (id : Nat) (s : State) : (admitState id s).time = s.time := by
  unfold admitState; split
  · rfl
  · simp only [countOn_time, sampleJob, wakeDie]; split <;> split <;> rfl

/-- A job's epoch is the epoch of its admission. -/
theorem admittedJobOf_epoch (op : Nat) (x : Sub) (s : State) : (admittedJobOf op x s).epoch = (admission0 op x s).time.epoch := by
  rw [(admission0_job op x s).2.2.2.2.2.2.2.2.2.1, admission0, admitState_time]

/-- The start of the staging of the earliest target touches the schedule only. -/
@[simp] theorem stagingStart_jobs (s : State) : (stagingStart s).jobs = s.jobs := by
  unfold stagingStart; split
  · split <;> rfl
  · rfl

/-- A fenced change that the schedule has room for leaves its job at the fence. -/
theorem fencedFor_job (id tgt : Nat) (cs : List Change) (s : State) (j : Job) (h : mget s.jobs id = some j) :
    mget (fencedFor id tgt cs s).jobs id = some { j with phase := .fence, target := tgt } := by
  simp only [fencedFor, stagingStart_jobs, modJob, h, mget_mset_same]

/-- The admission of a job touches no function. -/
theorem admitState_fns (id : Nat) (s : State) : (admitState id s).fns = s.fns := by
  unfold admitState; split
  · rfl
  · simp only [countOn_fns, modDie_fns, sampleJob, wakeDie]; split <;> split <;> rfl

/-- A command that its admission accepts is of a live generation. -/
theorem admission0_fresh (op : Nat) (x : Sub) (s : State) : stale (admission0 op x s) (getJob (admission0 op x s) (jobOf x s)) = false := by
  obtain ⟨h, -, hf, -, -, -, -, -, -, -, hg⟩ := admission0_job op x s
  have e : (getFn (admission0 op x s) x.q.fn).gen = (getFn (tick x.t s) x.q.fn).gen := by
    unfold admission0; rw [getFn, admitState_fns]
    exact (takeEntry_fn x.q (x.d.withOp op) (turnState op x s) x.q.fn).2.trans ((SameJobs.turnState op x s).2.2.2 x.q.fn).2
  rw [getJob_of h]; simp [stale, hf, hg, e]

/-- The clock's advance changes no function's tenant or generation. -/
theorem tick_fn (t : Nat) (s : State) (n : Nat) : (getFn (tick t s) n).tenant = (getFn s n).tenant ∧ (getFn (tick t s) n).gen = (getFn s n).gen := by
  have hr : ∀ v : State, (getFn (refreshTrust v) n).tenant = (getFn v n).tenant ∧ (getFn (refreshTrust v) n).gen = (getFn v n).gen := by
    intro v; unfold refreshTrust; simp only; split
    · exact ⟨rfl, rfl⟩
    · refine ⟨((SameJobs.signal _ _ _).2.2.2 n).1.trans ?_, ((SameJobs.signal _ _ _).2.2.2 n).2.trans ?_⟩ <;> simp [getFn]
  unfold tick; rw [(hr _).1, (hr _).2]
  constructor <;> (unfold flushOow; split <;> simp [getFn, setNow])

/-- The job of a command that holds its source. -/
theorem sourceHeld_job (op : Nat) (x : Sub) (s : State) : ∃ st, mget (sourceHeld op x s).jobs (jobOf x s) = some { admittedJobOf op x s with
    phase := .engine, srcLen := (admittedJobOf op x s).d.srcLen, src := fit (admittedJobOf op x s).d.srcLen x.src, arrived := some st } := by
  have h := (admission0_job op x s).1
  generalize admittedJobOf op x s = J at h ⊢
  have h1 := modJob_job (jobOf x s) (fun y => { y with phase := .source, srcLen := y.d.srcLen }) _ _ h
  unfold sourceHeld
  generalize modJob (jobOf x s) (fun y => { y with phase := .source, srcLen := y.d.srcLen }) (admission0 op x s) = v at h1 ⊢
  have h2 : mget (tick x.tSrc v).jobs (jobOf x s) = some { J with phase := .source, srcLen := J.d.srcLen } := by rw [tick_jobs]; exact h1
  simp only [countOn_jobs, getJob]
  generalize tick x.tSrc v = w at h2 ⊢
  have h3 := modJob_job (jobOf x s) (fun y => { y with phase := .engine, src := fit y.srcLen x.src, arrived := some (jobStamp w y) }) _ _ h2
  generalize modJob (jobOf x s) (fun y => { y with phase := .engine, src := fit y.srcLen x.src, arrived := some (jobStamp w y) }) w = z at h3 ⊢
  exact ⟨_, h3⟩

/-- A command that holds its source belongs to the present generation of its function. -/
theorem sourceHeld_fresh (op : Nat) (x : Sub) (s : State) : stale (sourceHeld op x s) (getJob (sourceHeld op x s) (jobOf x s)) = false := by
  obtain ⟨st, h⟩ := sourceHeld_job op x s
  have hf := admission0_fresh op x s
  rw [getJob_of h]
  have e : ∀ n, (getFn (sourceHeld op x s) n).gen = (getFn (admission0 op x s) n).gen := by
    intro n; unfold sourceHeld
    have := (tick_fn x.tSrc (modJob (jobOf x s) (fun y => { y with phase := .source, srcLen := y.d.srcLen }) (admission0 op x s)) n).2
    simp only [getFn, countOn_fns, modJob_fns] at this ⊢
    exact this
  simp only [stale, e] at hf ⊢; exact hf

/-- Acceptance of a fenced change by a schedule with room. -/
theorem acceptFenced_room (id tgt : Nat) (cs : List Change) (s : State) (hs : stale s (getJob s id) = false) (h : fenceFull s tgt = false) :
    acceptFenced id tgt cs s = fencedFor id tgt cs s := by simp [acceptFenced, hs, h, fencedFor]

/-- An accepted fenced command whose operation schedules changes. -/
theorem runOp_fenced (op : Nat) (hop : op < 256) (x : Sub) (s : State) (h : Accepted op x s) (tgt : Nat) (cs : List Change)
    (hg : (fullSem op).go (jobOf x s) (admission0 op x s) = acceptFenced (jobOf x s) tgt cs (admission0 op x s))
    (hf : fenceFull (admission0 op x s) tgt = false) : runOp op x s = fencedState op x s tgt cs := by
  rw [runOp_accepted op hop x s h, hg, acceptFenced_room _ _ _ _ (admission0_fresh op x s) hf, fencedState, workJob_phase _ _ _ .fence]
  · exact ⟨_, fencedFor_job _ _ _ _ _ (admission0_job op x s).1, rfl⟩
  · exact Or.inl rfl

/-- Setting a place of a list twice is setting it once. -/
theorem lset_lset {α : Type} (l : List α) (n : Nat) (v w : α) : lset (lset l n v) n w = lset l n w := by
  induction l generalizing n with
  | nil => rfl
  | cons a l ih => cases n with
    | zero => rfl
    | succ n => simp only [lset, ih]

/-- Changing a die twice is changing it once. -/
theorem modDie_modDie (d : Nat) (f g : Die → Die) (s : State) (h : d < s.dies.length) : modDie d g (modDie d f s) = modDie d (fun x => g (f x)) s := by
  have := getDie_modDie_same s d f h
  simp only [modDie, getDie, lset_lset] at this ⊢
  rw [this]

/-- The poll of a die, in the internal ring whose turn it is one job standing alone, admits that job. -/
theorem pollTo_alone (op : Nat) (x : Sub) (s : State) (h : AtPoll op x s) (n : Nat) :
    pollTo (jobOf x s) (n + 1) (takeJob x.q (x.d.withOp op) (turnState op x s)).2
      = pollTo (jobOf x s) n (admitOwn (jobOf x s) (polledState op x s)) := by
  unfold AtPoll at h
  unfold polledState at h ⊢
  generalize (takeJob x.q (x.d.withOp op) (turnState op x s)).2 = r at h ⊢
  generalize jobOf x s = id at h ⊢
  simp only at h ⊢
  obtain ⟨-, -, hj, hp, -, hl, hlive, hh, hc, hr, -⟩ := h
  generalize getJob r id = j at hj hp hl hlive hh hr ⊢
  have hg : getJob r id = j := getJob_of hj
  have hpe : ∀ f, pollEntry id (modDie j.die f r) = admitOwn id (modDie j.die f r) := by
    intro f
    have : getJob (modDie j.die f r) id = j := getJob_of (by simp [hj])
    unfold pollEntry; rw [this, if_pos hp]
  have hcg : ∀ f g : Die → Die, f (getDie r j.die) = g (getDie r j.die) → modDie j.die f r = modDie j.die g r := by
    intro f g h; simp only [modDie, h]
  conv => lhs; unfold pollTo
  rw [if_pos (by simp [hj, hp])]
  congr 1
  rw [hg]
  unfold diePoll
  simp only [hlive, hh, hc]
  rw [if_neg (by simp)]
  cases ht : (getDie r j.die).turnG <;> rw [ht] at hr <;> simp only [Bool.false_eq_true, if_true, if_false] at hr <;> unfold pollRing <;>
    simp only [getDie_modDie_same, modDie_modDie, hl, hr, Bool.not_true, Bool.not_false, Bool.false_eq_true, if_false, if_true,
      List.take_succ_cons, List.take_nil, List.foldl_cons, List.foldl_nil, hpe] <;>
    refine congrArg (admitOwn id) (hcg _ _ ?_) <;> simp [ht, hr]

/-- A job that is in no internal ring is not polled for. -/
theorem pollTo_quiet (id n : Nat) (s : State) (h : (mget s.jobs id).any (fun j => decide (j.phase = .ring)) = false) : pollTo id n s = s := by
  cases n with
  | zero => rfl
  | succ n => unfold pollTo; rw [h]; simp

/-- A work-ring row whose job is admitted at the poll of its die: the way from there. -/
theorem runOp_polled (op : Nat) (x : Sub) (s : State) (h : AtPoll op x s) :
    runOp op x s = ended x s (endWork (jobOf x s) (feed (jobOf x s) x (pollTo (jobOf x s) 63 (startSource (fullSem op) (jobOf x s) (polledJob op x s))))) := by
  rw [runOp_takes op x s h.1]
  unfold workJob
  rw [pollTo_alone op x s h 63]
  obtain ⟨-, -, hj, -, hd, -, -, -, -, -, ha⟩ := h
  have hm : mget (polledState op x s).jobs (jobOf x s) = some (getJob (takeJob x.q (x.d.withOp op) (turnState op x s)).2 (jobOf x s)) := by
    unfold polledState; simp only [modDie_jobs]; exact hj
  have hg : getJob (polledState op x s) (jobOf x s) = getJob (takeJob x.q (x.d.withOp op) (turnState op x s)).2 (jobOf x s) := by
    simp only [getJob, hm, Option.getD_some]
  have : admitOwn (jobOf x s) (polledState op x s) = startSource (fullSem op) (jobOf x s) (polledJob op x s) := by
    unfold admitOwn admitJob
    rw [hg, hd, hm]
    simp only
    rw [hg] at ha
    rw [ha]; rfl
  rw [this]

/-- The same when the operation finishes the job at its admission. -/
theorem runOp_polled_done (op : Nat) (x : Sub) (s : State) (h : AtPoll op x s) (st info : Nat) (r o : Bytes) (v : State)
    (hs : startSource (fullSem op) (jobOf x s) (polledJob op x s) = finishJob (jobOf x s) st info r o v) :
    runOp op x s = ended x s (finishJob (jobOf x s) st info r o v) := by
  rw [runOp_polled op x s h, hs]
  have hp : pollTo (jobOf x s) 63 (finishJob (jobOf x s) st info r o v) = finishJob (jobOf x s) st info r o v := by
    apply pollTo_quiet
    rcases finishJob_job (jobOf x s) st info r o v with h | ⟨j, h, hp⟩ <;> simp [*]
  have hf : feed (jobOf x s) x (finishJob (jobOf x s) st info r o v) = finishJob (jobOf x s) st info r o v := by
    rcases finishJob_job (jobOf x s) st info r o v with h | ⟨j, h, hp⟩ <;> simp [feed, getJob, *]
  rw [hp, hf, endWork_finish]

end Sys2Proof.Machine
end

