-- ==== Sys2Proof/WellFormed.lean ====
section
/-! DEFINITION. Well-formed commands: every operand has the width and the range that the spec gives it. -/

namespace Sys2Proof

/-- A function number: 0 is the PF (R98). -/
def wfFn (n : Nat) : Bool := n < 1024
/-- A submission queue: work rings 0 to 15, service queues 0x20 to 0x3F, the admin ring 0x40 (R120). -/
def wfQueue (q : QRef) : Bool := wfFn q.fn && (q.ring < 16 || (0x20 ≤ q.ring && q.ring ≤ 0x40))
/-- A descriptor has 64 bytes (R13). -/
def wfDesc (d : Desc) : Bool := d.bytes.length = 64
/-- Descriptors of one arrival: at most 8 (R133). -/
def wfDescs (ds : List Desc) : Bool := ds.length ≤ 8 && ds.all wfDesc
/-- A descriptor row: the source arrives no earlier than the take, and has at most 16 MiB (R14). -/
def wfSub (x : Sub) : Bool := wfQueue x.q && wfDesc x.d && x.t ≤ x.tSrc && x.frags.length ≤ 1024 && x.src.length ≤ 16777216
/-- A die index (R1). -/
def wfDie (n : Nat) : Bool := n < 8
/-- Die indices without order. -/
def wfDies (l : List Nat) : Bool := l.all wfDie
/-- A Band port or a card port: 0 to 3. -/
def wfPort (n : Nat) : Bool := n < 4
/-- A completion ring: 0 to 16 (R154). -/
def wfCq (n : Nat) : Bool := n ≤ 16
/-- A 16-bit index or slot. -/
def wfWord16 (n : Nat) : Bool := n < 65536
/-- A byte. -/
def wfByte (n : Nat) : Bool := n < 256
/-- A register value of up to 64 bits. -/
def wfWord64 (n : Nat) : Bool := n < 18446744073709551616
/-- The length of a register access in bytes. -/
def wfLen (n : Nat) : Bool := 1 ≤ n && n ≤ 64
/-- A tenant, or 0xFFFF for the package (R99, R186). -/
def wfTenant (n : Nat) : Bool := n < 1024 || n = 0xFFFF
/-- A world: 0 hypervisor, 1 key, 2 service (R403). -/
def wfWorld (n : Nat) : Bool := n ≤ 2
/-- A gating block (R412). -/
def wfBlock (n : Nat) : Bool := n < 8
/-- A supply rail (R473). -/
def wfRail (n : Nat) : Bool := n ≤ 4
/-- An access: a world tag of 0 to 3, at least one byte (R413). -/
def wfAccess (a : Access) : Bool := a.world ≤ 3 && a.master ≤ 10 && 1 ≤ a.len
/-- A bow (R222). -/
def wfBow (n : Nat) : Bool := n < 4
/-- Bows without order. -/
def wfBows (l : List Nat) : Bool := l.all wfBow
/-- A Reckoner lane (R257). -/
def wfLane (n : Nat) : Bool := n < 6
/-- A MAC core, a lane or a tree hasher of a fault (R46). -/
def wfUnit (kind core : Nat) : Bool := core < (if kind = 0 then 16 else if kind = 1 then 6 else 8) && kind ≤ 2
/-- A custodian role (R310). -/
def wfRole (n : Nat) : Bool := n < 4
/-- A card block: 512 bytes, or the Reset Answer of 32 (R330). -/
def wfCardBlock (b : Bytes) : Bool := b.length = 512 || b.length = 32
/-- A card response frame: 48 bits (R326). -/
def wfFrame (b : Bytes) : Bool := b.length = 6
/-- A Band flit: 256 bytes (R24). -/
def wfFlit (b : Bytes) : Bool := b.length = 256
/-- Argument registers of a gate call: 6 (R407). -/
def wfRegs (l : List Nat) : Bool := l.length = 6
/-- A counter of a die (R439). -/
def wfCounter (n : Nat) : Bool := n < 64
/-- A ledger ring: 8 at most of any scope and tenant, so any index (R201). -/
def wfRings (n : Nat) : Bool := n < 65536
/-- A start-up step (R470). -/
def wfStep (n : Nat) : Bool := 1 ≤ n && n ≤ 10
/-- An MSI-X vector below 64, or one of the three settings of MSI-X Enable and Function Mask (log entry 10). -/
def wfVector (n : Nat) : Bool := n ≤ 66
/-- A nonce of an SPDM request: 32 bytes (R429). -/
def wfNonce (b : Bytes) : Bool := b.length = 32

/-- A well-formed command. -/
def Instr.wf (i : Instr) : Bool :=
  match i with
  | .nop x => wfSub x
  | .invalidOpcode x => wfSub x
  | .seal x => wfSub x
  | .sealDigest x => wfSub x
  | .verifySeal x => wfSub x
  | .mac x => wfSub x
  | .draw x => wfSub x
  | .shuffle x => wfSub x
  | .random x => wfSub x
  | .sign x => wfSub x
  | .verify x => wfSub x
  | .ecdh x => wfSub x
  | .ledgerProof x => wfSub x
  | .stamp x => wfSub x
  | .keyDerive x => wfSub x
  | .keyGenerate x => wfSub x
  | .keyImport x => wfSub x
  | .keyExport x => wfSub x
  | .keyRotate x => wfSub x
  | .keyDestroy x => wfSub x
  | .keyInfo x => wfSub x
  | .keyPublic x => wfSub x
  | .keyAgree x => wfSub x
  | .keyComponent x => wfSub x
  | .tenantRetire x => wfSub x
  | .keyPackageInit x => wfSub x
  | .quorumOpen x => wfSub x
  | .quorumStatus x => wfSub x
  | .quorumCancel x => wfSub x
  | .roleSet x => wfSub x
  | .epcBeacon x => wfSub x
  | .epcQuery x => wfSub x
  | .gameCloseSet x => wfSub x
  | .gameCloseRead x => wfSub x
  | .epcConfigure x => wfSub x
  | .epcEpochSetup x => wfSub x
  | .epcAuthoritySet x => wfSub x
  | .keyMigrate x => wfSub x
  | .drawQuery x => wfSub x
  | .drawMap x => wfSub x
  | .rngReseedSet x => wfSub x
  | .fwQuery x => wfSub x
  | .fwActivate x => wfSub x
  | .cntConfigure x => wfSub x
  | .cntSnapshotSet x => wfSub x
  | .cntRead x => wfSub x
  | .cntSampleConfigure x => wfSub x
  | .cntSampleRead x => wfSub x
  | .ldgRingCreate x => wfSub x
  | .ldgRingDestroy x => wfSub x
  | .ldgConfigure x => wfSub x
  | .ldgRead x => wfSub x
  | .ldgRootSubmit x => wfSub x
  | .ldgRootProve x => wfSub x
  | .ldgQuiesce x => wfSub x
  | .tmpConfigure x => wfSub x
  | .tmpMonitorTest x => wfSub x
  | .tmpLogRead x => wfSub x
  | .tmpEventRead x => wfSub x
  | .tmpUnlock x => wfSub x
  | .pkeCurveLoad x => wfSub x
  | .pkeCurveUnload x => wfSub x
  | .pkeCurveRead x => wfSub x
  | .pwrRetain x => wfSub x
  | .pwrReset x => wfSub x
  | .lcsTransition x => wfSub x
  | .lcsTokenSet x => wfSub x
  | .lcsReturnUnlock x => wfSub x
  | .dbgChallenge x => wfSub x
  | .dbgGrant x => wfSub x
  | .dbgRevoke x => wfSub x
  | .instanceCreate x => wfSub x
  | .instanceDestroy x => wfSub x
  | .instanceReset x => wfSub x
  | .instanceShare x => wfSub x
  | .splitSet x => wfSub x
  | .instanceQuery x => wfSub x
  | .tenantGrant x => wfSub x
  | .ringCreate x => wfSub x
  | .ringDestroy x => wfSub x
  | .cqCreate x => wfSub x
  | .cqDestroy x => wfSub x
  | .sqCreate x => wfSub x
  | .sqDestroy x => wfSub x
  | .ringDoorbell _ q tail => wfQueue q && wfWord16 tail
  | .ringInvalidate _ q from_ => wfQueue q && wfWord16 from_
  | .ringEnable _ q => wfQueue q
  | .ringDisable _ q => wfQueue q
  | .ringCqHead _ fn c head => wfFn fn && wfCq c && wfWord16 head
  | .ringCqMod _ fn c value => wfFn fn && wfCq c && wfWord64 value
  | .ringPollWrite _ die value => wfDie die && wfWord64 value
  | .pfAdminConfigWrite _ _ len value => wfLen len && wfWord64 value
  | .ldgJsEnable _ value => wfWord64 value
  | .pwrWake _ value => wfWord64 value
  | .registerWrite _ fn _ len value => wfFn fn && wfLen len && wfWord64 value
  | .pairLatchRead _ p len => wfFn p.fn && wfLen len
  | .descriptorArrival _ q first ds => wfQueue q && wfWord16 first && wfDescs ds
  | .descriptorFetchFail _ q idx _ => wfQueue q && wfWord16 idx
  | .descriptorTake _ => true
  | .psnReservationWritten _ => true
  | .diePoll _ die => wfDie die
  | .fragmentTableArrival _ _ _ => true
  | .sourceArrival _ _ _ => true
  | .sourceReadFail _ _ _ => true
  | .engineJobDone _ _ => true
  | .collectorBatchSend _ die => wfDie die
  | .leafArrival _ => true
  | .completionPost _ fn c => wfFn fn && wfCq c
  | .cqTimerExpiry _ fn c => wfFn fn && wfCq c
  | .invHoldTimeout _ q => wfQueue q
  | .ppsEdge _ _ _ => true
  | .ppsTimeout _ => true
  | .tclkFault _ => true
  | .tclkRecovery _ => true
  | .pllLock _ => true
  | .beaconGraceExpiry _ => true
  | .uncLimitReached _ => true
  | .acquisitionOverdue _ => true
  | .timingWord _ die _ => wfDie die
  | .offsetCheck _ die _ => wfDie die
  | .epochBoundary _ => true
  | .stagingAck _ die _ => wfDie die
  | .fenceConfirm _ _ => true
  | .confirmFlit _ die _ => wfDie die
  | .scheduledDrawExecute _ _ => true
  | .drawPlacement _ _ => true
  | .dieRootReturn _ die tenant _ => wfDie die && wfTenant tenant
  | .dieRootRebuild _ die tenant _ _ => wfDie die && wfTenant tenant
  | .batchSigned _ => true
  | .hostRootDeadline _ x => wfTenant x.tenant
  | .journalPageWrite _ _ => true
  | .checkpointOverdue _ => true
  | .ledgerLeafMessage _ ring => wfRings ring
  | .laneYield _ die lane _ _ => wfDie die && wfLane lane
  | .laneJobDone _ die lane _ => wfDie die && wfLane lane
  | .curveFetchDone _ die tenant _ => wfDie die && wfTenant tenant
  | .engineFault _ die kind core => wfDie die && wfUnit kind core
  | .memoryError _ die _ _ _ _ => wfDie die
  | .flitReceive _ die port flit _ => wfDie die && wfPort port && wfFlit flit
  | .keepaliveTimer _ die port => wfDie die && wfPort port
  | .linkSilenceTimeout _ die port => wfDie die && wfPort port
  | .portRetrainDone _ die port _ => wfDie die && wfPort port
  | .upstreamTimeout _ die => wfDie die
  | .mandrelWatchdog _ die => wfDie die
  | .crownFault _ => true
  | .hypervisorWatchdog _ => true
  | .worldException _ die world _ => wfDie die && wfWorld world
  | .heartbeatMiss _ die world => wfDie die && wfWorld world
  | .worldRestartDone _ die world _ => wfDie die && wfWorld world
  | .gate _ die _ regs _ => wfDie die && wfRegs regs
  | .gateRet _ die _ _ => wfDie die
  | .worldInterrupt _ die world => wfDie die && wfWorld world
  | .accessRefused _ die a => wfDie die && wfAccess a
  | .debugAccess _ die a _ => wfDie die && wfAccess a
  | .gatingRequest _ die block _ => wfDie die && wfBlock block
  | .claimRelease _ die block => wfDie die && wfBlock block
  | .gatingRequestOverdue _ die block => wfDie die && wfBlock block
  | .dieIdleEntry _ die => wfDie die
  | .bowTestFail _ die bow _ => wfDie die && wfBow bow
  | .bowRetest _ die bow _ => wfDie die && wfBow bow
  | .releaseBlock _ die => wfDie die
  | .entropyWaitTimeout _ _ => true
  | .entropyReady _ die => wfDie die
  | .shieldReseed _ die => wfDie die
  | .imageWriteDone _ => true
  | .flashWaitTimeout _ _ => true
  | .generationDrop _ die slot => wfDie die && wfWord16 slot
  | .quorumWindowEnd _ role => wfRole role
  | .imprintPass _ die _ _ => wfDie die
  | .lkInvert _ => true
  | .cardInsert _ port => wfPort port
  | .cardPowerTimer _ port => wfPort port
  | .cardResponse _ port frame => wfPort port && wfFrame frame
  | .cardWaitByte _ port => wfPort port
  | .cardDataBlock _ port data _ => wfPort port && wfCardBlock data
  | .cardCrcToken _ port token => wfPort port && wfByte token
  | .cardBusyRelease _ port => wfPort port
  | .cardTimeout _ port => wfPort port
  | .cardCheckDone _ port => wfPort port
  | .cardRemove _ port => wfPort port
  | .tamperAlarm _ _ die _ _ => wfDie die
  | .liningAlarm _ _ _ _ => true
  | .tamperLogProgram _ _ => true
  | .eventRecordWrite _ => true
  | .monitorTestResult _ _ die _ _ => wfDie die
  | .xtalCheck _ _ => true
  | .hatterWatchdog _ _ => true
  | .sensorSample _ _ => true
  | .mctpPacket _ _ _ _ => true
  | .mctpAssemblyTimeout _ _ => true
  | .smbusTimeout _ => true
  | .setEndpointId _ _ _ eid => wfByte eid
  | .getEndpointId _ _ => true
  | .getEndpointUuid _ _ => true
  | .getMctpVersionSupport _ _ _ => true
  | .getMessageTypeSupport _ _ => true
  | .getTid _ _ => true
  | .setTid _ _ tid => wfByte tid
  | .getPldmVersion _ _ _ => true
  | .getPldmTypes _ _ => true
  | .getPldmCommands _ _ _ => true
  | .getPdrRepositoryInfo _ _ => true
  | .getPdr _ _ _ => true
  | .getSensorReading _ _ _ => true
  | .getStateSensorReadings _ _ _ => true
  | .setEventReceiver _ _ _ eid => wfByte eid
  | .pollForPlatformEventMessage _ _ => true
  | .queryDeviceIdentifiers _ _ => true
  | .getFirmwareParameters _ _ => true
  | .requestUpdate _ _ _ => true
  | .passComponentTable _ _ _ _ => true
  | .updateComponent _ _ _ _ => true
  | .firmwareDataReceived _ _ _ => true
  | .activateFirmware _ _ => true
  | .getStatus _ _ => true
  | .cancelUpdateComponent _ _ => true
  | .cancelUpdate _ _ => true
  | .getVersion _ _ => true
  | .getCapabilities _ _ _ => true
  | .negotiateAlgorithms _ _ _ => true
  | .getDigests _ _ => true
  | .getCertificate _ _ _ _ _ => true
  | .challenge _ _ _ nonce => wfNonce nonce
  | .getMeasurements _ _ _ _ nonce => wfNonce nonce
  | .fwSampleTimer _ die world _ => wfDie die && wfWorld world
  | .supplyWarning _ rail die _ => wfRail rail && wfDie die
  | .supplyRecovery _ rail die => wfRail rail && wfDie die
  | .supplyReset _ rail die => wfRail rail && wfDie die
  | .powerOn _ => true
  | .perstAssert _ _ => true
  | .perstRelease _ => true
  | .measurement _ => true
  | .bandBringup _ trained => wfDies trained
  | .brimBoot _ => true
  | .keystoreRestore _ => true
  | .entropyStartup _ die _ passing => wfDie die && wfBows passing
  | .startupStepOverrun _ step _ => wfStep step
  | .retainEntry _ => true
  | .retainDrawWake _ => true
  | .wakeDone _ _ => true
  | .liningPowerLoss _ => true
  | .otpWordProgrammed _ _ => true
  | .flr _ fn => wfFn fn
  | .vfEnableClear _ => true
  | .hotReset _ => true
  | .busMasterEnableChange _ fn _ => wfFn fn
  | .d3hotEntry _ fn => wfFn fn
  | .d0Return _ fn => wfFn fn
  | .msixUnmask _ fn vector => wfFn fn && wfVector vector
  | .linkFatalError _ _ => true
  | .poisonedBarWrite _ fn _ => wfFn fn
  | .linkTrained _ _ _ => true
  | .liningPowerOn _ => true
  | .powerRemovalBetweenAttempts _ port => wfPort port
  | .monitorAlarmEnd _ _ die => wfDie die
  | .hatterRestartDone _ => true
  | .packageResetBegin _ => true
  | .vfEnableSet _ x => wfFn x.numVfs
  | .slotRefetchDone _ die slot => wfDie die && wfWord16 slot
  | .instanceResetDone _ fn => wfFn fn
  | .counterSaturation _ die counter => wfDie die && wfCounter counter

end Sys2Proof
end

