-- ==== Sys2Proof/Tests/Slice0.lean ====
section
/-! SUPPORT. Tests of the checks of WellFormed and, for every statement with hypotheses, concrete states and operands that meet them. A value that rests on
a primitive without a body cannot be computed; where a hypothesis asks for one, the test assumes that value and shows the rest. -/

namespace Sys2Proof.Tests

set_option Elab.async false

open Sys2Proof.Machine Sys2Proof.Safety

/-! ## A package at work -/

/-- A block of bytes with little-endian fields written into it: offset, width, value. -/
def put : List (Nat × Nat × Nat) → Bytes → Bytes
  | [], b => b
  | (off, n, v) :: fs, b => put fs (b.take off ++ leBytes n v ++ b.drop (off + n))

/-- A descriptor with the given fields; TAG 0x0001. -/
def dsc (fs : List (Nat × Nat × Nat)) : Desc := ⟨put ((2, 2, 1) :: fs) (zeros 64)⟩

/-- The row of a descriptor on a queue of the PF, its source beside it. -/
def sub (ring : Nat) (fs : List (Nat × Nat × Nat)) (src : Bytes) : Sub := ⟨⟨0, ring⟩, dsc fs, [], src, false, 0, 0⟩

/-- A RUNNING queue with one entry to take. -/
def wq (cq : Nat) : Queue := { st := .running, tail := 1, log2 := 6, cq := cq, weight := 1, burst := 1, credit := 1 }

/-- The PF with one queue of each kind. -/
def wpf : FnState := { pfReset with
  ready := true, bme := true, mse := true, queues := [(0, wq 0), (0x20, wq 0), (0x40, wq 16)], cqs := [(0, { log2 := 6 }), (16, { log2 := 6 })] }

/-- An instance of a VF, with an admin ring. -/
def wvf : FnState :=
  { present := true, tenant := 1, ready := true, bme := true, mse := true, g := { outstanding := 64, serviceQs := 2, workRings := 2 }
    queues := [(0x40, wq 16)], cqs := [(16, { log2 := 6 })] }

/-- The generator of P-256 in the encoding of R262. -/
def gP256 : Bytes :=
  [4] ++ beBytes 32 0x6B17D1F2E12C4247F8BCE6E563A440F277037D812DEB33A0F4A13945D898C296 ++ beBytes 32 0x4FE342E2FE1A7F9B8EE7EB4A7C0F9E162BCE33576B315ECECBB6406837BF51F5

/-- The generator of P-384 in the encoding of R262. -/
def gP384 : Bytes :=
  [4] ++ beBytes 48 0xAA87CA22BE8B05378EB1C71EF320AD746E1D3B628BA79B9859F741E082542A385502F25DBF55296C3A545E3872760AB7
    ++ beBytes 48 0x3617DE4A96262C6F5D9E98BF9292DC29F8F41DBD289A147CE9DA3113B5F0B8C00A60B1CE1D7E819D7A431D7C90EA0E5F

/-- A key slot of tenant 0, in force for ever. -/
def key (purpose alg : Nat) : KeySlot :=
  { gen := 1, st := 2, wide := 0x10 ≤ purpose, purpose := purpose, alg := alg, origin := 1, flags := 1, last := 2 ^ 48 - 1
    mat := List.replicate 32 1, pub := if purpose < 0x10 then [] else if alg = 1 then gP256 else gP384 }

/-- Keys of tenant 0: sealing, exchange, MAC, signature, draw records, tokens, wrapping. -/
def wslots : KMap KeySlot :=
  [(1, key 1 1), (2, key 0x12 1), (3, key 3 1), (4, key 0x10 1), (5, key 0x14 1), (6, key 0x15 2), (4096, key 4 3)]

/-- A die at work. -/
def wdie : Die := { dieReset with
  live := true, coresUp := true, rngReady := true, fifo := List.replicate 96 7, bows := [{ st := 3 }, { st := 2 }, { st := 2 }, { st := 2 }], bank := { slots := wslots }
  drawDrbgs := [{ tenant := 0, ready := true }] }

/-- The time of a package that has acquired it, at second 5 of its clock. -/
def wtime : TimeState :=
  { now := 5000000000, st := .locked, reasons := { notAcquired := false }, edgePair := true, base := some 0, labelSec := 1000, labelled := true
    freshAt := 5000000000, lastEdge := 5000000000, epoch := 1005000, trustShown := true, pllLocked := true }

/-- A package at work in TEST, where no quorum is asked for and no image is written. -/
def work : State := { State.reset with
  startStep := 11, lcs := .test, linkWidth := 16, linkSpeed := 32, fns := [(0, wpf), (1, wvf)], dies := List.replicate 4 wdie
  vfEnable := true, numVfs := 2
  tenants := [(0, { granted := true, g := { narrow := 4096, wide := 128, close := 64, drbgs := 4 }, salt := some (zeros 16) }),
              (1, { granted := true, g := { narrow := 16, wide := 4, close := 4, drbgs := 1 }, salt := some (zeros 16) })]
  vault := { pr := some (zeros 32), restored := true, kw := zeros 48 }, psnNext := 1, psnCeil := 1000000
  time := wtime, ckptAt := 5000000000, lastCkptSec := 1005 }

/-- `work` with another PF. -/
def workPf (f : FnState) : State := { work with fns := [(0, f), (1, wvf)] }
/-- `work` with other dies, all alike. -/
def workDie (d : Die) : State := { work with dies := List.replicate 4 d }


/-! ## Descriptor rows

A row of the lists below is an opcode, a descriptor row and a state that meet the premises of one clause: the command is accepted, its source held if it has one,
and what more the clause asks for. -/

/-- A clause's premises at concrete operands. -/
structure Row where
  op   : Nat
  x    : Sub
  s    : State
  more : Sub → State → Bool := fun _ _ => true

/-- A row on a service queue of the PF. -/
def svc (op : Nat) (fs : List (Nat × Nat × Nat)) (src : Bytes := []) (s : State := work) (more : Sub → State → Bool := fun _ _ => true) : Row :=
  ⟨op, sub 0x20 fs src, s, more⟩
/-- A row on the admin ring of the PF. -/
def adm (op : Nat) (fs : List (Nat × Nat × Nat)) (src : Bytes := []) (s : State := work) (more : Sub → State → Bool := fun _ _ => true) : Row :=
  ⟨op, sub 0x40 fs src, s, more⟩

/-- The queue gives the row up and the command reaches its admission. -/
def Row.reaches (r : Row) : Bool :=
  (taking r.x.q (r.x.d.withOp r.op) (tick r.x.t r.s)).isSome && (queueKind r.x.q.ring != 0) && opAccepted r.op r.x.q.ring
    && (worldOf r.op == 0 || (getWorld (takenState r.op r.x r.s) 0 (worldOf r.op)).st != 1)

/-- The row meets the premises of its clause. -/
def Row.met (r : Row) : Bool :=
  r.reaches && admission (fullSem r.op) (admission0 r.op r.x r.s) (admittedAs r.op r.x r.s) == none
    && (!(fullSem r.op).src || (r.x.d.withOp r.op).srcLen == 0 || (!(r.x.d.withOp r.op).indirect && !r.x.srcFail)) && r.more r.x r.s

/-- What `Row.met` says in the words of the statements. -/
theorem Row.met_says (r : Row) (h : r.met = true) : (Accepted r.op r.x r.s ∨ AcceptedSrc r.op r.x r.s) ∧ r.more r.x r.s = true := by
  simp only [Row.met, Row.reaches, Bool.and_eq_true, Bool.or_eq_true, beq_iff_eq, bne_iff_ne, Bool.not_eq_true'] at h
  obtain ⟨⟨⟨⟨⟨⟨h1, h2⟩, h3⟩, h4⟩, h5⟩, h6⟩, h7⟩ := h
  refine ⟨?_, h7⟩
  cases hs : (fullSem r.op).src with
  | false => exact .inl ⟨⟨h1, h2, h3, h4⟩, h5, .inl hs⟩
  | true =>
    by_cases hz : (r.x.d.withOp r.op).srcLen = 0
    · exact .inl ⟨⟨h1, h2, h3, h4⟩, h5, .inr hz⟩
    · have h8 : (r.x.d.withOp r.op).indirect = false ∧ r.x.srcFail = false := by
        rcases h6 with (h6 | h6) | h6
        · rw [hs] at h6; cases h6
        · exact absurd h6 hz
        · exact h6
      exact .inr ⟨⟨h1, h2, h3, h4⟩, h5, hs, hz, h8.1, h8.2⟩

/-- T of a row with TARGET 0. -/
def nextT (op : Nat) (x : Sub) (s : State) : Nat := (admission0 op x s).time.epoch + 2

/-- The fence schedule has room for T. -/
def fits (op : Nat) (x : Sub) (s : State) : Bool := !fenceFull (admission0 op x s) (nextT op x s)

/-- A row whose admission fails, and one whose queue does not accept it: O16 and O17. -/
theorem witness_FailedAdmissionCompletes : let r := svc 0x92 []
    r.reaches = true ∧ admission (fullSem 0x92) (admission0 0x92 r.x r.s) (admittedAs 0x92 r.x r.s) = some ⟨stInput, 0x20⟩ := by decide +kernel

theorem witness_InvalidOpcodeCompletes : let x := sub 0x40 [(0, 1, 0x92)] []
    opAccepted x.d.op x.q.ring = false ∧ queueKind x.q.ring ≠ 0 ∧ opAccepted 0x92 0x20 = true
    ∧ (taking x.q x.d (tick 0 work)).any (fun w => let v := (takeEntry x.q x.d w).2
        lockedFail (admitState w.nextJob v) (admittedJob v (getJob v w.nextJob)) == []) = true := by decide +kernel

/-- A queue that may not give its entry up. -/
theorem witness_UntakenRowWaits : ¬ Takes 0 (sub 3 [] []) work := by unfold Takes; decide +kernel

theorem witness_CompletionFields : okStatus stOk = true ∧ okStatus stInput = false := by decide

/-- O19 to O22: the queries. -/
theorem witness_queries : [
    svc 0x91 [(24,8,64)], svc 0x93 [(20,4,64),(24,8,64)],
    svc 0x86 [(20,4,64),(24,8,64),(32,2,1)] [] work (fun x _ => x.d.f 34 1 == 0), svc 0x86 [(20,4,64),(24,8,64),(34,1,1)] [] work (fun x _ => x.d.f 34 1 == 1),
    svc 0x87 [(4,4,0x10002),(20,4,65),(24,8,64)],
    svc 0xB2 [(20,4,496),(24,8,64)] [] (workDie { wdie with bank := { curves := [(0, zeros 496)] } }),
    adm 0xC5 [(20,4,128),(24,8,64)], svc 0x8D [(24,8,64)], svc 0x9B [(20,4,192),(24,8,64)], svc 0x9F [(20,4,576),(24,8,64)],
    svc 0xAE [(20,4,32),(24,8,64)] [] (workDie { wdie with sampler := { recs := [⟨0, zeros 32⟩] } }) (fun x s => x.q.fn == 0
      && min (x.d.aux / 32) ((getDie (admission0 0xAE x s) 0).sampler.recs.filter fun r => x.q.fn = 0 || r.fn = x.q.fn).length != 0),
    svc 0xA4 [(20,4,64),(24,8,64),(32,1,1),(40,6,1),(48,4,1)] [] work (fun x s => (readEpochs (admission0 0xA4 x s) (admittedJobOf 0xA4 x s)).all
      fun e => storeOnly (admission0 0xA4 x s) e == []),
    svc 0xA4 [(20,4,144),(24,8,64),(40,8,1),(48,4,1)] [] { work with
      ledgers := [(0, { nextSeq := 2 })], epochIdx := [⟨5, 0, 1, zeros 48⟩]
      pages := [{ no := 0, epoch := 5, entries := [{ leaf := ⟨zeros 64, zeros 48, zeros 16⟩, seq := 1, epoch := 5, die := 0, tenant := 0 }], closed := true, sram := false, store := true }] }
      (fun x s => (readEpochs (admission0 0xA4 x s) (admittedJobOf 0xA4 x s)).any fun e => storeOnly (admission0 0xA4 x s) e != []),
    svc 0xAA [], svc 0xAB [(20,4,32),(24,8,64),(48,4,65536)]].all Row.met = true := by decide +kernel

/-- O21: a VF reads the samples of its own function. -/
theorem witness_sampleOfVf : let f := { wvf with g := { wvf.g with options := 1 }, queues := [(0x20, wq 16), (0x40, wq 16)] }
    let r : Row := ⟨0xAE, ⟨⟨1, 0x20⟩, dsc [(20,4,32),(24,8,64)], [], [], false, 0, 0⟩, { work with fns := [(0, wpf), (1, f)] }, fun x _ => x.q.fn != 0⟩
    r.met = true := by decide +kernel

/-- O23: the scheduled changes. -/
theorem witness_ScheduledChangesAreFenced : [
    svc 0x92 [(32,2,1),(36,6,100000)] [] work (fun x s => fits 0x92 x s && x.d.f 34 1 == 0), svc 0x92 [(32,2,1),(34,1,1)] [] work (fun x s => fits 0x92 x s && x.d.f 34 1 == 1),
    svc 0xA2 [] [] work (fits 0xA2), adm 0xC4 [] [] work (fun x s => fits 0xC4 x s && !(x.d.f 38 1).testBit 1), adm 0xC4 [(38,1,2)] [] work (fun x s => fits 0xC4 x s && (x.d.f 38 1).testBit 1),
    svc 0x94 [] [] work (fun x s => fits 0x94 x s && acquired (admission0 0x94 x s)),
    svc 0x94 [] [] { work with time := { wtime with reasons := {} } } (fun x s => !acquired (admission0 0x94 x s)),
    adm 0xC3 [] [] work (fun x s => fits 0xC3 x s && x.d.f 34 1 != 0xFF), adm 0xC3 [(34,1,0xFF)] [] work (fun x s => fits 0xC3 x s && x.d.f 34 1 == 0xFF),
    svc 0x9A [(36,4,1)] [] work (fits 0x9A), svc 0xB1 [] [] (workDie { wdie with bank := { curves := [(0, zeros 496)] } }) (fits 0xB1),
    svc 0xA8 [(32,1,1),(33,1,3)] [] work (fits 0xA8), svc 0x9D [(34,1,1)] [] work (fits 0x9D), svc 0x9E [] [] work (fits 0x9E),
    svc 0xAD [(36,2,1),(38,2,1),(40,2,0xFFFF)] [] work (fits 0xAD)].all Row.met = true := by decide +kernel

/-- A key that is made and has a slot, with room in the fence schedule: the premises of the last clause of O24. -/
def createdGood (x : Sub) (a : State) (id : Nat) : Bool :=
  let j := getJob a id
  firstFail (createKeyLen a j j.src.length) == none && !((createKeyRng j).any fun n => internalShort a 0 n) && match createdKey a j with
    | (.ok k, b) => match allocate b k with
      | .ok (_, k1) => x.d.targetField == 0 && decide (k1.first ≤ k1.last) && decide (b.time.epoch + 2 ≤ k1.last) && !fenceFull b (b.time.epoch + 2)
      | .error _ => false
    | (.error _, _) => false

/-- A creation whose DRBG waits for a seed: that of the first clause. -/
def createdShort (a : State) (id : Nat) : Bool :=
  let j := getJob a id
  firstFail (createKeyLen a j j.src.length) == none && (createKeyRng j).any fun n => internalShort a 0 n

/-- A creation that fails in the making, and one that finds no slot: those of the second and the third. -/
def createdFails (noSlot : Bool) (a : State) (id : Nat) : Bool :=
  let j := getJob a id
  firstFail (createKeyLen a j j.src.length) == none && !((createKeyRng j).any fun n => internalShort a 0 n) && match createdKey a j with
    | (.ok k, b) => noSlot && (match allocate b k with
      | .ok _ => false
      | .error _ => true)
    | (.error _, _) => !noSlot

/-- O24: derivation and generation; a KEYGEN instance without a seed; no narrow slot left. -/
theorem witness_CreatedKeyIsScheduled : [
    svc 0x80 [(20,4,64),(24,8,64),(32,1,1),(33,1,1)] [] work (fun x s => createdGood x (admission0 0x80 x s) (jobOf x s)),
    svc 0x81 [(20,4,64),(24,8,64),(32,1,1),(33,1,1)] [] work (fun x s => createdGood x (admission0 0x81 x s) (jobOf x s)),
    svc 0x81 [(20,4,64),(24,8,64),(32,1,1),(33,1,1)] [] (workDie { wdie with fifo := [], intInst := [(0, { requests := 1048576 })] })
      (fun x s => createdShort (admission0 0x81 x s) (jobOf x s)),
    svc 0x80 [(20,4,64),(24,8,64),(32,1,1),(33,1,1)] [] { work with tenants := [(0, { granted := true, salt := some (zeros 16) })] }
      (fun x s => createdFails true (admission0 0x80 x s) (jobOf x s))].all Row.met = true := by decide +kernel

/-- O25: a derivation, a generation and an import of a public key each make a key. -/
theorem witness_CreatedKeyAttributes : (∃ k b, createdKey work { d := dsc [(0, 1, 0x80)] } = (.ok k, b)) ∧ (∃ k b, createdKey work { d := dsc [(0, 1, 0x89)] } = (.ok k, b)) :=
  ⟨⟨_, _, rfl⟩, ⟨_, _, rfl⟩⟩


/-- O24: import of a public key, and of one that is no point; agreement with a good point. -/
theorem witness_CreatedKeyFromSource : [
    svc 0x82 [(20,4,64),(24,8,64),(32,1,0x11),(33,1,1),(52,1,2),(8,8,64),(16,4,65)] gP256 work (fun x s => createdGood x (sourceHeld 0x82 x s) (jobOf x s)),
    svc 0x82 [(20,4,64),(24,8,64),(32,1,0x11),(33,1,1),(52,1,2),(8,8,64),(16,4,65)] (List.replicate 65 4) work (fun x s => createdFails false (sourceHeld 0x82 x s) (jobOf x s)),
    svc 0x88 [(4,4,0x10002),(20,4,64),(24,8,64),(32,1,1),(33,1,1),(8,8,64),(16,4,65)] gP256 work (fun x s => createdGood x (sourceHeld 0x88 x s) (jobOf x s))].all Row.met = true := by
  decide +kernel

/-- O26: rotation of a derived key, scheduled destruction in TEST and in FIELD (retirement and the authority key stand below). -/
theorem witness_KeyStoreChangesAreScheduled : [
    svc 0x84 [(4,4,0x10001)] [] work (fun x s => let a := admission0 0x84 x s
      let old := slotOf (crownBank a) x.d.handle
      !old.flags.testBit 1 && old.origin != 2 && (rotateRng old).isNone && x.d.targetField == 0 && match rotatedKey a (getJob a (jobOf x s)) with
        | (.ok k, b) => (!k.wide || k.span == old.span) && decide (k.first ≤ k.last) && decide (b.time.epoch + 2 ≤ k.last) && !fenceFull b (b.time.epoch + 2)
        | (.error _, _) => false),
    svc 0x85 [(4,4,0x10001)] [] work (fun x s => x.d.f 33 1 == 0 && fits 0x85 x s),
    svc 0x85 [(4,4,0x10001)] [] { work with lcs := .field } (fun x s => x.d.f 33 1 == 0 && fits 0x85 x s && !imageless (admission0 0x85 x s))].all Row.met = true := by decide +kernel

/-- O27: urgent destruction of a tenant's keys and of all keys, in TEST and in FIELD. -/
theorem witness_UrgentDestruction : [
    svc 0x85 [(32,1,2),(33,1,1)] [] work (fun x _ => x.d.f 33 1 == 1 && x.d.f 32 1 == 2),
    svc 0x85 [(32,1,1),(33,1,1)] [] work (fun x s => x.d.f 33 1 == 1 && x.d.f 32 1 != 2 && imageless (clearSlots (destroySlots (admission0 0x85 x s) (admittedJobOf 0x85 x s)
      ++ ((keyChanges (admission0 0x85 x s)).filter fun c => x.d.f 32 1 = 1 ∧ c.2.2.tenant = (admittedJobOf 0x85 x s).tenant).map (·.2.1)) (jobOf x s) (admission0 0x85 x s))),
    svc 0x85 [(4,4,0x10001),(33,1,1)] [] { work with lcs := .field } (fun x s => x.d.f 33 1 == 1 && x.d.f 32 1 != 2 && !imageless (clearSlots (destroySlots (admission0 0x85 x s) (admittedJobOf 0x85 x s)
      ++ ((keyChanges (admission0 0x85 x s)).filter fun c => x.d.f 32 1 = 1 ∧ c.2.2.tenant = (admittedJobOf 0x85 x s).tenant).map (·.2.1)) (jobOf x s) (admission0 0x85 x s)))].all Row.met = true := by decide +kernel

/-- O28: the queue commands. -/
theorem witness_QueueCommandsAct : [
    adm 0xC8 [(32,1,15),(33,1,6),(35,1,64),(36,1,1)], adm 0xCC [(32,1,31),(33,1,15)],
    adm 0xC9 [(32,1,2)] [] (workPf { wpf with queues := [(2, { st := .disabled }), (0x20, wq 0), (0x40, wq 16)] }),
    adm 0xCD [(32,1,1)] [] (workPf { wpf with queues := [(0x20, wq 0), (0x21, { st := .disabled }), (0x40, wq 16)] }),
    adm 0xCA [(32,1,15),(33,1,6),(34,1,0xFF),(35,1,1)] [] work (fun x s => !busOff (admission0 0xCA x s) x.q.fn),
    adm 0xCB [(32,1,1)] [] (workPf { wpf with cqs := [(0, { log2 := 6 }), (1, { log2 := 6 }), (16, { log2 := 6 })] })].all Row.met = true := by decide +kernel

/-- The grant block of an instance with one vector and the least admin rings, for a tenant that is granted already. -/
def grant : Bytes := put [(2,1,1),(3,1,1),(4,2,64),(6,2,1),(40,1,6),(41,1,6)] (zeros 64)

/-- O29, O30, O31: instances and tenants. -/
theorem witness_instances : [
    adm 0xC0 [(32,2,2),(34,2,1),(8,8,64),(16,4,64)] grant work (fun x s => firstFail (createFails (sourceHeld 0xC0 x s) (getJob (sourceHeld 0xC0 x s) (jobOf x s))) == none),
    adm 0xC0 [(32,2,2),(34,2,1),(8,8,64),(16,4,64)] (zeros 64) work (fun x s => firstFail (createFails (sourceHeld 0xC0 x s) (getJob (sourceHeld 0xC0 x s) (jobOf x s))) != none),
    adm 0xC0 [(32,2,2),(34,2,1),(8,8,64),(16,4,64)] grant { workDie { wdie with fifo := [], intInst := [(0, { requests := 1048576 })] } with
      tenants := [(0, { granted := true, salt := some (zeros 16) }), (1, { granted := true, g := { narrow := 16, wide := 4, close := 4, drbgs := 1 } })] }
      (fun x s => let h := sourceHeld 0xC0 x s
        firstFail (createFails h (getJob h (jobOf x s))) == none && lacksSalt h (x.d.f 34 2) && internalShort h 0 0),
    adm 0xC1 [(32,2,1)] [] work (fun x _ => x.q.fn != x.d.f 32 2), adm 0xC2 [(32,2,1)] [] work (fun x _ => x.q.fn != x.d.f 32 2),
    adm 0xC6 [(32,2,1),(46,1,2)] [] work (fun x s => (getTenant (admission0 0xC6 x s) 1).g.drbgs ≤ x.d.f 46 1),
    adm 0xC6 [(46,1,3)] [] work (fun x s => x.d.f 46 1 < (getTenant (admission0 0xC6 x s) 0).g.drbgs)].all Row.met = true := by decide +kernel

/-- Tenant 0 roots its ledger in the host, and epoch 5 waits for the host's root of one leaf. -/
def wled : State := { workDie { wdie with bank := { slots := wslots, ledgerPol := [(0, 3)] } } with
  ledgers := [(0, { pend := [{ epoch := 5, firstSeq := 1, lastSeq := 1, counts := [1,0,0,0,0,0,0,0], dieVal := [], roots := [], host := true }] })] }
/-- The same with a challenge out and the leaf in the store. -/
def wledSub (chal : List Nat) : State := { wled with
  ledgers := [(0, { pend := [{ epoch := 5, firstSeq := 1, lastSeq := 1, counts := [1,0,0,0,0,0,0,0], dieVal := [], roots := [], host := true
                               sub := some { roots := [zeros 48], chal := chal } }] })]
  pages := [{ no := 0, epoch := 5, entries := [{ leaf := ⟨zeros 64, zeros 48, zeros 16⟩, seq := 1, epoch := 5, die := 0, tenant := 0 }], closed := true, sram := true, store := false }] }

/-- A root submission, by what the clause asks of the state that holds its source. -/
def submit (s : State) (src : Bytes) (p : State → Job → List Nat → Bool) : Row :=
  svc 0xA5 [(8,8,64),(16,4,448),(20,4,64),(24,8,64),(32,6,5)] src s (fun x s => let h := sourceHeld 0xA5 x s
    let j := getJob h (jobOf x s)
    firstFail (rootSubmitOwn h j) == none && (awaiting (getLedger h j.tenant)).any fun q => p h j q.counts)

/-- A proof of challenged leaves, by what the clause asks. -/
def prove (s : State) (fs : List (Nat × Nat × Nat)) (src : Bytes) (p : State → Job → HostSub → List Nat → Bool) : Row :=
  svc 0xA6 fs src s (fun x s => let h := sourceHeld 0xA6 x s
    let j := getJob h (jobOf x s)
    firstFail (rootProveOwn h j) == none && ((awaiting (getLedger h j.tenant)).bind (·.sub)).any fun c => p h j c ((c.chal.drop (x.d.f 32 4)).take (x.d.f 36 4)))

/-- A proof by entries of these sequence numbers that completes the challenge or not. -/
def proves (c : HostSub) (j : Job) (want : List Nat) (full : Bool) : Bool :=
  (proveEntries (j.d.f 36 4) j.src).any fun es => decide (es.map (·.1) = want) && ((want.foldl insertNat c.proven).length == c.chal.length) == full

/-- O32: the epoch setup, the rings of the ledger and LDG_QUIESCE. -/
theorem witness_LedgerAndEpochCommandsAct : [
    svc 0x95 [(38,2,100)] [] { work with time := { wtime with st := .acquiring } },
    svc 0xA0 [(33,1,12),(34,1,0xFF),(40,8,4096),(48,8,4096)],
    svc 0xA1 [] [] { work with lrings := [{ owner := 0, scope := 0, tenant := 0, idx := 0, log2 := 12, vector := 255, opts := 0, base := 4096, index := 4096 }] },
    svc 0xA7 [(32,1,1)] [] work (fun x s => let w := modJob (jobOf x s) (fun y => { y with phase := .wait 3 }) (admission0 0xA7 x s)
      x.d.f 32 1 == 1 && !commitsDue w),
    svc 0xA7 [(32,1,1)] [] { work with jobs := [(99, { d := dsc [(0,1,0x20)], phase := .sequenced, draw := some { id := 7, sched := true } })] } (fun x s =>
      let w := modJob (jobOf x s) (fun y => { y with phase := .wait 3 }) (admission0 0xA7 x s)
      x.d.f 32 1 == 1 && !w.quiesced && commitsDue w),
    svc 0xA7 [] [] work (fun x s => x.d.f 32 1 == 0 && imageless (admission0 0xA7 x s)),
    svc 0xA7 [] [] { work with lcs := .field } (fun x s => x.d.f 32 1 == 0 && !imageless (admission0 0xA7 x s))].all Row.met = true := by decide +kernel

/-- A proof of leaf 1 against a challenge. -/
def goodRow (chal : List Nat) (full : Bool) : Row :=
  prove (wledSub chal) [(8,8,64),(16,4,16),(36,4,1)] (leBytes 8 1 ++ zeros 8) (fun _ j c want => proves c j want full)

/-- O32: the host's root, submitted and proved. -/
theorem witness_hostRoot : [
    submit wled (zeros 448) (fun _ j n => ((List.range 8).map fun d => field j.src (8 * d) 8) != n),
    submit wled (leBytes 8 1 ++ zeros 440) (fun h j n => ((List.range 8).map fun d => field j.src (8 * d) 8) == n && (fnSeeded 0 j.fn false h).isSome),
    submit { wled with dies := List.replicate 4 { wdie with fifo := [], fnInst := [(0, { requests := 1048576 })], bank := { slots := wslots, ledgerPol := [(0, 3)] } } }
      (leBytes 8 1 ++ zeros 440) (fun h j n => ((List.range 8).map fun d => field j.src (8 * d) 8) == n && (fnSeeded 0 j.fn false h).isNone),
    prove (wledSub [1]) [(8,8,64),(16,4,32),(36,4,1)] (zeros 32) (fun _ j _ _ => proveEntries (j.d.f 36 4) j.src == none),
    prove (wledSub [1]) [(8,8,64),(16,4,16),(36,4,1)] (zeros 16) (fun _ j _ want => (proveEntries (j.d.f 36 4) j.src).any fun es => es.map (·.1) != want),
    goodRow [1, 2] false, goodRow [1] true].all Row.met = true := by decide +kernel

/-- O32: the path of that leaf holds, if its hash is the root submitted. -/
theorem witness_pathHolds (hl : Leaf.hash ⟨zeros 64, zeros 48, zeros 16⟩ = zeros 48) (c : HostSub) (hc : c.roots = [zeros 48]) : ∀ r ∈ [goodRow [1, 2] false, goodRow [1] true],
    let h := sourceHeld 0xA6 r.x r.s
    (proveEntries 1 r.x.src).any (fun es => es.all fun e => pathOk h (getJob h (jobOf r.x r.s)).tenant c.roots e.1 e.2) = true := by
  intro r hr
  have e : proveEntries 1 r.x.src = some [(1, [])] ∧ (getJob (sourceHeld 0xA6 r.x r.s) (jobOf r.x r.s)).tenant = 0
      ∧ readable (sourceHeld 0xA6 r.x r.s) = [{ leaf := ⟨zeros 64, zeros 48, zeros 16⟩, seq := 1, epoch := 5, die := 0, tenant := 0 }] := by
    revert r; decide +kernel
  simp [e, pathOk, entryOf, List.findIdx?_cons, walkPath, hl, hc]

/-- O33: a draw that waits, one that is resolved and the words of a host-assisted one. -/
theorem witness_DrawQueryAndMapAct : [
    svc 0x98 [(20,4,64),(24,8,64),(32,8,7),(40,1,1)] [] { work with draws := [{ id := 7 }] },
    svc 0x98 [(20,4,64),(24,8,64),(32,8,7),(40,1,3)] [] { work with draws := [{ id := 7, st := 5 }] },
    svc 0x99 [(8,8,64),(16,4,12),(32,8,7)] (zeros 12) { work with draws := [{ id := 7, host := true, st := 2, w := 1, count := 1 }] } (fun x s => let h := sourceHeld 0x99 x s
      (mapTarget h (getJob h (jobOf x s))).isSome)].all Row.met = true := by decide +kernel

/-- The first failing check of a command whose source is held. -/
def after (op : Nat) (checks : State → Job → List Fail) (x : Sub) (s : State) : Option Fail :=
  firstFail (checks (sourceHeld op x s) (getJob (sourceHeld op x s) (jobOf x s)))

/-- A ROLE_SET of role 0 by a source of zeros, over a roster of one card. -/
def setRole (fs : List (Nat × Nat × Nat)) (s : State := work) (more : Sub → State → Bool) : Row :=
  svc 0x8F ([(8,8,64),(16,4,128)] ++ fs) (zeros 128) s more
/-- A port 0 that holds a card. -/
def cardIn (enrol : Option Nat) : State := { work with ports := work.ports.modify 0 fun y => { y with present := true, enrol := enrol } }
/-- Role 0 with two cards, the first of serial number 0. -/
def carded : State := { work with vault := { work.vault with rosters := [{ cards := [⟨zeros 16, []⟩, ⟨List.replicate 16 1, []⟩] }, {}, {}, {}] } }

/-- The instances that a TMP_MONITOR_TEST names. -/
def testedBy (x : Sub) (s : State) : List MonTest := let a := admission0 0xA9 x s
  (if x.d.f 33 1 = 0xFF then liveDies a else [x.d.f 33 1]).flatMap (fun d => instancesOf a (some (jobOf x s)) (x.d.f 32 1) d)

/-- O34: the quorum, tamper, firmware, power and package commands, but for those that need an open quorum. -/
theorem witness_SecurityCommandsAct : [
    svc 0x8E [] [] { work with vault := { work.vault with sessions := [{ st := 1 }, {}, {}, {}] } },
    svc 0x8C [(8,8,64),(16,4,48),(33,1,30)] (zeros 48) { work with vault := { work.vault with rosters := [{ m := 2 }, {}, {}, {}] } },
    setRole [(33,1,1)] work (fun x s => after 0x8F roleSetFails x s != none),
    setRole [(33,1,0)] (cardIn (some 5)) (fun x s => after 0x8F roleSetFails x s == none && x.d.f 33 1 == 0 && (getPort (sourceHeld 0x8F x s) (x.d.f 35 1)).enrol.isSome),
    setRole [(33,1,0)] (cardIn none) (fun x s => after 0x8F roleSetFails x s == none && x.d.f 33 1 == 0 && (getPort (sourceHeld 0x8F x s) (x.d.f 35 1)).enrol.isNone),
    setRole [(33,1,1)] carded (fun x s => after 0x8F roleSetFails x s == none && x.d.f 33 1 == 1),
    svc 0x8F [(33,1,2),(34,1,2)] [] carded (fun x _ => x.d.f 33 1 == 2),
    svc 0x97 [(8,8,64),(16,4,48)] (zeros 48),
    svc 0x9C [(32,1,1)] [] { work with fw := { comps := [{ b := { st := 2 } }, {}, {}] } } (fun x _ => !(x.d.f 32 1).testBit 1),
    svc 0xA9 [(32,1,1)] [] work (fun x s => testedBy x s != []), svc 0xA9 [(32,1,0x0D),(33,1,1)] [] work (fun x s => testedBy x s == []),
    svc 0xAC [] [] { work with locked := true },
    svc 0xB4 [] [] { work with quiesced := true, fns := [(0, { wpf with queues := [(0x20, wq 0)] })] }, svc 0xB5 [(32,1,1)]].all Row.met = true := by decide +kernel

/-- A debug session's grant with a response of zeros. -/
def grantRow : Row := svc 0xBC [(8,8,64),(16,4,256)] (zeros 256) { work with lcs := .field }

/-- O35: the life-cycle and debug commands. -/
theorem witness_LifecycleCommandsAct : [
    svc 0xB8 [(8,8,64),(16,4,32),(32,1,4)] (zeros 32) work (fun x s => inOrder (transitionFails (sourceHeld 0xB8 x s) (getJob (sourceHeld 0xB8 x s) (jobOf x s))) != none),
    svc 0xB9 [(8,8,64),(16,4,48),(32,1,5)] (zeros 48), svc 0xBA [(8,8,64),(16,4,32)] (zeros 32) { work with lcs := .ret },
    svc 0xBB [(20,4,128),(24,8,64)] [] { work with lcs := .field } (fun x s => !internalShort (admission0 0xBB x s) 0 1),
    svc 0xBB [(20,4,128),(24,8,64)] [] { workDie { wdie with fifo := [], intInst := [(1, { requests := 1048576 })] } with lcs := .field } (fun x s =>
      internalShort (admission0 0xBB x s) 0 1),
    grantRow, svc 0xBD []].all Row.met = true := by decide +kernel

/-- O35: from BLANK to TEST, a token that has the digest of the mask ROM passes every check. -/
theorem transitionPasses (s : State) (x : Job) (h : s.lcs = .blank) (h2 : x.d.f 32 1 = 2)
    (hd : digest384 x.src = beBytes 48 Config.romTokenDigest.toNat) : inOrder (transitionFails s x) = none := by
  simp [transitionFails, h, h2, hd, inOrder, failIf, tokenDigest, Lcs.code, legalTransition, transitionQuorum]

/-- A transition to TEST, in HOLD or not. -/
def toTest (hold : Bool) : Row := svc 0xB8 [(8,8,64),(16,4,32),(32,1,2)] (zeros 32) { work with lcs := .blank, hold := hold }

/-- O35: a transition that goes on at once, and one that waits for the end of HOLD. -/
theorem witness_lcsTransition (hd : digest384 (zeros 32) = beBytes 48 Config.romTokenDigest.toNat) : ∀ b : Bool,
    (toTest b).met = true ∧ (let h := sourceHeld 0xB8 (toTest b).x (toTest b).s
      inOrder (transitionFails h (getJob h (jobOf (toTest b).x (toTest b).s))) = none ∧ h.hold = b ∧ h.life.burn = none) := by
  intro b; cases b <;> refine ⟨by decide +kernel, transitionPasses _ _ (by decide +kernel) (by decide +kernel) ?_, by decide +kernel, by decide +kernel⟩ <;>
    (rw [show (getJob (sourceHeld _ _ _) _).src = zeros 32 by decide +kernel]; exact hd)


/-! ## Commands that need an open quorum

The intent of a session is a digest, a value that cannot be computed. The sessions below hold the intent of the very command, and the check compares it with itself. -/

/-- An admission passes if the command's own checks pass and the others do. -/
theorem admission_of (sem : OpSem) (s : State) (x : Job) (h : opAccepted x.d.op x.ring = true) (ho : sem.own s x = [])
    (hr : admissionFails { sem with own := fun _ _ => [] } s x = []) : admission sem s x = none := by
  have e : admissionFails sem s x = admissionFails { sem with own := fun _ _ => [] } s x := by
    have k : ownFails sem s x = ownFails { sem with own := fun _ _ => [] } s x := by simp [ownFails, ho]
    unfold admissionFails; rw [k]; rfl
  simp [admission, h, e, hr, firstFail]

/-- Every role's quorum is open for one command. -/
def opened (op : Nat) (x : Sub) (s : State) : State :=
  { s with vault := { s.vault with sessions := List.replicate 4 { st := 2, collect := true, intent := intentOf { fn := x.q.fn, d := ⟨fit 64 (x.d.withOp op).bytes⟩, src := x.src } } } }

/-- The session of a role is open for the row's command. -/
theorem quorum_open (op role : Nat) (x : Sub) (s : State) (a : State) (j : Job) (hs : a.vault.sessions = (opened op x s).vault.sessions) (hr : role < 4)
    (hi : intentOf j = intentOf { fn := x.q.fn, d := ⟨fit 64 (x.d.withOp op).bytes⟩, src := x.src }) : quorumOpenFor a j role = true := by
  have : role = 0 ∨ role = 1 ∨ role = 2 ∨ role = 3 := by omega
  rcases this with rfl | rfl | rfl | rfl <;> simp [quorumOpenFor, hs, opened, hi]


/-- Accepted, if its own checks and the others pass. -/
theorem accepted_of (r : Row) (hr : r.reaches = true) (hs : (fullSem r.op).src = false) (ho : (fullSem r.op).own (admission0 r.op r.x r.s) (admittedAs r.op r.x r.s) = [])
    (hrest : admissionFails { fullSem r.op with own := fun _ _ => [] } (admission0 r.op r.x r.s) (admittedAs r.op r.x r.s) = [])
    (ha : opAccepted (admittedAs r.op r.x r.s).d.op (admittedAs r.op r.x r.s).ring = true) : Accepted r.op r.x r.s := by
  simp only [Row.reaches, Bool.and_eq_true, Bool.or_eq_true, beq_iff_eq, bne_iff_ne] at hr
  exact ⟨⟨hr.1.1.1, hr.1.1.2, hr.1.2, hr.2⟩, admission_of _ _ _ ha ho hrest, .inl hs⟩

/-- O34: KEY_PACKAGE_INIT in PROVISION. -/
def initRow : Row := let r := svc 0x8B []; { r with s := opened 0x8B r.x { work with lcs := .provision } }

theorem witness_packageInit : Accepted 0x8B initRow.x initRow.s := by
  have q : quorumOpenFor (admission0 0x8B initRow.x initRow.s) (admittedAs 0x8B initRow.x initRow.s) 0 = true :=
    quorum_open 0x8B 0 initRow.x initRow.s _ _ rfl (by decide) rfl
  refine accepted_of initRow (by decide +kernel) (by decide +kernel) ?_ (by decide +kernel) (by decide +kernel)
  show failIf _ _ _ ++ failIf (!quorumOpenFor (admission0 0x8B initRow.x initRow.s) (admittedAs 0x8B initRow.x initRow.s) 0) _ _ ++ crownReady _ ++ dispatchFails _ _ _ = []
  rw [q]; decide +kernel

/-- O26: TENANT_RETIRE of a tenant without functions and draws. -/
def retireRow : Row :=
  let r := svc 0x8A [(32,2,2)]
  { r with s := opened 0x8A r.x { work with tenants := work.tenants ++ [(2, { granted := true, salt := some (zeros 16) })] } }

theorem witness_tenantRetire : Accepted 0x8A retireRow.x retireRow.s ∧ fits 0x8A retireRow.x retireRow.s = true := by
  have q : quorumOpenFor (admission0 0x8A retireRow.x retireRow.s) (admittedAs 0x8A retireRow.x retireRow.s) 0 = true :=
    quorum_open 0x8A 0 retireRow.x retireRow.s _ _ rfl (by decide) rfl
  refine ⟨accepted_of retireRow (by decide +kernel) (by decide +kernel) ?_ (by decide +kernel) (by decide +kernel), by decide +kernel⟩
  show failIf (!quorumOpenFor (admission0 0x8A retireRow.x retireRow.s) (admittedAs 0x8A retireRow.x retireRow.s) 0) _ _ ++ failIf _ _ _ ++ dispatchFails _ _ _ = []
  rw [q]; decide +kernel

/-- O27: KEY_EXPORT of an exportable key under a wrapping key. -/
def exportRow : Row := let r := svc 0x83 [(4,4,0x10001),(20,4,64),(24,8,64),(32,4,0x11000)]; { r with s := opened 0x83 r.x work }

theorem witness_keyExport : Accepted 0x83 exportRow.x exportRow.s := by
  have q : quorumOpenFor (admission0 0x83 exportRow.x exportRow.s) (admittedAs 0x83 exportRow.x exportRow.s) 1 = true :=
    quorum_open 0x83 1 exportRow.x exportRow.s _ _ rfl (by decide) rfl
  refine accepted_of exportRow (by decide +kernel) (by decide +kernel) ?_ (by decide +kernel) (by decide +kernel)
  have e : (fullSem 0x83).own = fun s x => exportOwn s x ++ dispatchFails keyExportSem s x := rfl
  show (fullSem 0x83).own (admission0 0x83 exportRow.x exportRow.s) (admittedAs 0x83 exportRow.x exportRow.s) = []
  rw [e]; beta_reduce; unfold exportOwn
  rw [q]; decide +kernel

/-- O24: KEY_COMPONENT in a session that collects. -/
def compRow : Row := let r := svc 0x89 [(20,4,64),(24,8,64),(32,1,1),(33,1,1)]; { r with s := opened 0x89 r.x work }

theorem witness_keyComponent : Accepted 0x89 compRow.x compRow.s ∧ createdGood compRow.x (admission0 0x89 compRow.x compRow.s) (jobOf compRow.x compRow.s) = true := by
  have q : quorumOpenFor (admission0 0x89 compRow.x compRow.s) (admittedAs 0x89 compRow.x compRow.s) 1 = true :=
    quorum_open 0x89 1 compRow.x compRow.s _ _ rfl (by decide) rfl
  refine ⟨accepted_of compRow (by decide +kernel) (by decide +kernel) ?_ (by decide +kernel) (by decide +kernel), by decide +kernel⟩
  have e : (fullSem 0x89).own = fun s x => createKeyOwn s x ++ dispatchFails keyComponentSem s x := rfl
  show (fullSem 0x89).own (admission0 0x89 compRow.x compRow.s) (admittedAs 0x89 compRow.x compRow.s) = []
  rw [e]; beta_reduce; unfold createKeyOwn
  rw [q]; decide +kernel

/-- O26, O34: the commands that ask for their quorum once their source is held: an authority key, and KEY_MIGRATE. -/
def authRow : Row := let r := svc 0x96 [(8,8,64),(16,4,97)] gP384; { r with s := opened 0x96 r.x work }
def migrateRow : Row := let r := svc 0x97 [(8,8,64),(16,4,48)] (zeros 48); { r with s := opened 0x97 r.x work }

set_option maxRecDepth 10000 in
theorem witness_afterSource : authRow.met = true ∧ migrateRow.met = true
    ∧ firstFail (authorityFails (sourceHeld 0x96 authRow.x authRow.s) (getJob (sourceHeld 0x96 authRow.x authRow.s) (jobOf authRow.x authRow.s))) = none
    ∧ (let h := sourceHeld 0x97 migrateRow.x migrateRow.s
       imageless h = true ∧ quorumOpenFor h (getJob h (jobOf migrateRow.x migrateRow.s)) 0 = true ∧ quorumOpenFor h (getJob h (jobOf migrateRow.x migrateRow.s)) 1 = true) := by
  refine ⟨by decide +kernel, by decide +kernel, ?_, by decide +kernel, quorum_open 0x97 0 migrateRow.x migrateRow.s _ _ rfl (by decide) rfl,
   quorum_open 0x97 1 migrateRow.x migrateRow.s _ _ rfl (by decide) rfl⟩
  have q : quorumOpenFor (sourceHeld 0x96 authRow.x authRow.s) (getJob (sourceHeld 0x96 authRow.x authRow.s) (jobOf authRow.x authRow.s)) 3 = true :=
    quorum_open 0x96 3 authRow.x authRow.s _ _ rfl (by decide) rfl
  unfold authorityFails
  rw [q]; decide +kernel


/-- O34: FW_ACTIVATE of a key world, its quorums open or not. -/
def fwWorld : State := { work with fw := { comps := [{}, { b := { st := 2 } }, {}] } }
def fwRow : Row := let r := svc 0x9C [(8,8,64),(16,4,48),(32,1,2)] (zeros 48) fwWorld; { r with s := opened 0x9C r.x fwWorld }
def fwShut : Row := { fwRow with s := fwWorld }

theorem witness_keyWorldActivation (hd : digest384 [] = zeros 48) : (fwRow.met = true ∧ after 0x9C fwActivateFails fwRow.x fwRow.s = none)
    ∧ fwShut.met = true ∧ (after 0x9C fwActivateFails fwShut.x fwShut.s).isSome = true := by
  have k : ∀ s ∈ [fwRow.s, fwShut.s], stagedKw (sourceHeld 0x9C fwRow.x s) = zeros 48
      ∧ (getJob (sourceHeld 0x9C fwRow.x s) (jobOf fwRow.x s)).src = zeros 48 := by
    intro s hs
    refine ⟨?_, by revert s; decide +kernel⟩
    rw [← hd]; simp only [List.mem_cons, List.not_mem_nil, or_false] at hs
    rcases hs with rfl | rfl <;> rfl
  have q : ∀ i < 4, quorumOpenFor (sourceHeld 0x9C fwRow.x fwRow.s) (getJob (sourceHeld 0x9C fwRow.x fwRow.s) (jobOf fwRow.x fwRow.s)) i = true := fun i hi =>
    quorum_open 0x9C i fwRow.x fwRow.s _ _ rfl hi rfl
  refine ⟨⟨by decide +kernel, ?_⟩, by decide +kernel, ?_⟩ <;> unfold after fwActivateFails
  · rw [(k _ (by simp)).1, (k _ (by simp)).2, q 0 (by decide), q 1 (by decide)]; decide +kernel
  · rw [show fwShut.x = fwRow.x from rfl, (k _ (by simp)).1, (k _ (by simp)).2]; decide +kernel


/-! ## Work-ring rows at their engine -/

/-- The premises of `AtEngine`. -/
def atEngine (op : Nat) (x : Sub) (s : State) : Bool :=
  let e := engineState op x s
  let j := getJob e (jobOf x s)
  (taking x.q (x.d.withOp op) (tick x.t s)).isSome && queueKind x.q.ring == 0 && j.phase == .engine && j.d.op == op && j.ring == x.q.ring && onEngine e (jobOf x s) j
    && !stalled (getDie e j.die) (outlet j).1 (outlet j).2

/-- `atEngine` says `AtEngine`. -/
theorem atEngine_says (op : Nat) (x : Sub) (s : State) (h : atEngine op x s = true) : AtEngine op x s := by
  simp only [atEngine, Bool.and_eq_true, beq_iff_eq, Bool.not_eq_true'] at h
  exact ⟨h.1.1.1.1.1.1, h.1.1.1.1.1.2, h.1.1.1.1.2, h.1.1.1.2, h.1.1.2, h.1.2, h.2⟩

/-- A row on work ring 0 of the PF at its engine. -/
def eng (op : Nat) (fs : List (Nat × Nat × Nat)) (src : Bytes := []) (s : State := work) (more : Sub → State → Bool := fun _ _ => true) : Bool :=
  let x := sub 0 fs src
  atEngine op x s && more x s

/-- The job of a row at its engine. -/
def engJob (op : Nat) (x : Sub) (s : State) : Job := getJob (engineState op x s) (jobOf x s)

/-- O36: seals without game, a verification, a MAC and its verification. -/
theorem witness_MacCoreJobsEnd :
    eng 0x10 [(4,4,0x10001),(8,8,64),(16,4,1),(24,8,64),(34,1,8)] [7] = true ∧ eng 0x10 [(4,4,0x10001),(8,8,64),(16,4,64),(24,8,64),(34,1,16),(35,1,1)] (zeros 64) = true
    ∧ eng 0x11 [(4,4,0x10001),(8,8,64),(16,4,48),(20,4,100),(24,8,64),(34,1,12)] (zeros 48) (workDie { wdie with bank := { wdie.bank with split := [(0, 3)] } }) = true
    ∧ eng 0x12 [(4,4,0x10001),(8,8,64),(16,4,65)] (put [(0,1,1),(1,1,1),(2,1,1),(3,1,16),(20,6,1005000),(44,4,1)] (zeros 65)) = true
    ∧ eng 0x13 [(4,4,0x10003),(8,8,64),(16,4,4),(24,8,64),(33,1,4)] [1, 2, 3, 4] work (fun x _ => x.d.f 32 1 == 0) = true
    ∧ eng 0x13 [(4,4,0x10003),(8,8,64),(16,4,4),(32,1,1),(33,1,16)] [1, 2, 3, 4] work (fun x _ => x.d.f 32 1 != 0) = true := by decide +kernel

/-- A row whose job holds a draw, in the mode asked for. -/
def drawn (host : Bool) (op : Nat) (x : Sub) (s : State) : Bool := (engJob op x s).draw.any fun d => d.host == host

/-- A package whose signatures and draws may be host-assisted. -/
def wsplit : State := workDie { wdie with bank := { wdie.bank with split := [(0, 0x3F0)] } }

/-- O38: RANDOM, a draw and a shuffle on the device and with the host. -/
theorem witness_EntropyJobsEnd :
    eng 0x22 [(24,8,64),(32,4,1)] = true
    ∧ eng 0x20 [(4,4,0x10005),(20,4,4096),(24,8,64),(36,4,51),(40,2,1)] [] work (drawn false 0x20) = true
    ∧ eng 0x21 [(4,4,0x10005),(20,4,4096),(24,8,64),(36,4,51)] [] work (drawn false 0x21) = true
    ∧ eng 0x20 [(1,1,2),(4,4,0x10005),(20,4,4096),(24,8,64),(36,4,51),(40,2,1),(44,4,64)] [] wsplit (drawn true 0x20) = true
    ∧ eng 0x21 [(1,1,2),(4,4,0x10005),(20,4,4096),(24,8,64),(36,4,51),(44,4,64)] [] wsplit (drawn true 0x21) = true := by decide +kernel


/-- A VERIFY source: a P-256 key, a signature of small numbers, a representative. -/
def vsrc (k : Bytes) : Bytes := k ++ beBytes 32 1 ++ beBytes 32 1 ++ List.replicate 32 1

/-- A row whose job runs on a lane and whose checks fail or not. -/
def laned (bad : Bool) (op : Nat) (x : Sub) (s : State) : Bool :=
  let j := engJob op x s
  (laneOf (engineState op x s) (jobOf x s)).isSome && (firstCheck (laneChecks j)).isSome == bad
    && (op != 0x32 || (curveOf (j.key.getD {}).alg j.curve).isSome)

/-- O37: a representative that is 0, one that is not; good and bad keys and points; a token. -/
theorem witness_LaneJobsEnd :
    eng 0x30 [(1,1,2),(4,4,0x10004),(8,8,64),(16,4,32),(20,4,64),(24,8,64),(32,1,1)] (zeros 32) wsplit (laned true 0x30) = true
    ∧ eng 0x30 [(1,1,2),(4,4,0x10004),(8,8,64),(16,4,32),(20,4,64),(24,8,64),(32,1,1)] (List.replicate 32 1) wsplit (laned false 0x30) = true
    ∧ eng 0x31 [(8,8,64),(16,4,161),(32,1,1),(35,1,1),(36,1,1),(38,2,65),(40,2,64)] (vsrc (List.replicate 65 4)) work (laned true 0x31) = true
    ∧ eng 0x31 [(8,8,64),(16,4,161),(32,1,1),(35,1,1),(36,1,1),(38,2,65),(40,2,64)] (vsrc gP256) work (laned false 0x31) = true
    ∧ eng 0x32 [(4,4,0x10002),(8,8,64),(16,4,65),(20,4,32),(24,8,64)] (zeros 65) work (laned true 0x32) = true
    ∧ eng 0x32 [(4,4,0x10002),(8,8,64),(16,4,65),(20,4,32),(24,8,64)] gP256 work (laned false 0x32) = true
    ∧ eng 0x50 [(4,4,0x10006),(24,8,64),(40,1,1)] [] work (fun x s => (laneOf (engineState 0x50 x s) (jobOf x s)).isSome) = true := by decide +kernel

/-- The premises of `AtPoll`. -/
def atPoll (op : Nat) (x : Sub) (s : State) : Bool :=
  let r := (takeJob x.q (x.d.withOp op) (turnState op x s)).2
  let j := getJob r (jobOf x s)
  let d := getDie r j.die
  let w := polledState op x s
  (taking x.q (x.d.withOp op) (tick x.t s)).isSome && queueKind x.q.ring == 0 && mget r.jobs (jobOf x s) == some j && j.phase == .ring && j.d.op == op
    && decide (j.die < r.dies.length) && d.live && !d.halted && !r.crownFault
    && (if d.turnG then d.ringG == [jobOf x s] else d.ringP == [jobOf x s])
    && admission (fullSem op) (admitState (jobOf x s) w) (admittedJob w (getJob w (jobOf x s))) == none

/-- A row on work ring 0 at the poll of its die, whose ring P or G has its turn. -/
def pol (op : Nat) (fs : List (Nat × Nat × Nat)) (s0 : State := work) (more : State → Job → Bool := fun _ _ => true) (g : Bool := true) : Bool :=
  let x := sub 0 fs []
  let s := { s0 with dies := s0.dies.map fun d => { d with turnG := g } }
  atPoll op x s && more (polledJob op x s) (getJob (polledJob op x s) (jobOf x s))

/-- A ledger whose only entry is of one epoch, with its root or without, its page read from the store or not. -/
def wproof (e : Nat) (roots : List Record) (pend : List PendRoot := []) (sram : Bool := true) : State := { work with
  ledgers := [(0, { nextSeq := 2, pend := pend })], epochIdx := [⟨5, 0, 1, zeros 48⟩], rootStore := roots
  pages := [{ no := 0, epoch := e, entries := [{ leaf := ⟨zeros 64, zeros 48, zeros 16⟩, seq := 1, epoch := e, die := 0, tenant := 0 }], sram := sram, store := !sram }] }

/-- The root of epoch 5, with FLAGS and LOST_MASK. -/
def root5 (flags lost : Nat) : Record :=
  { typ := 1, tenant := 0, epoch := 5, lastSeq := 1, leaves := 1, body := [], chain := [], bytes := put [(6,1,flags),(29,1,lost)] (zeros 512) }

/-- A proof of SEQUENCE 1 at its poll. -/
def proof1 (s : State) (p : State → JEntry → Option Record → Bool) : Bool := pol 0x40 [(20,4,6496),(24,8,64),(32,8,1)] s fun v j =>
  j.tmp == 0 && (entryOf v j.tenant (j.d.f 32 8)).any fun en => p v en (rootOf v j.tenant en.epoch)

/-- O39: NOP on a work ring and one that fails, a Stamp without token, the jobs of every other work row. -/
theorem witness_JobsWithoutEngineEnd :
    (let x := sub 0 [] []
     (taking x.q (x.d.withOp 0) (tick 0 work)).isSome = true ∧ opAccepted 0 x.q.ring = true ∧ admission (fullSem 0) (admission0 0 x work) (admittedAs 0 x work) = none)
    ∧ (let x := sub 0 [(4,4,1)] []
     (taking x.q (x.d.withOp 0) (tick 0 work)).isSome = true ∧ opAccepted 0 x.q.ring = true ∧ admission (fullSem 0) (admission0 0 x work) (admittedAs 0 x work) ≠ none)
    ∧ pol 0x50 [(24,8,64)] work (fun _ j => j.d.f 40 1 == 0) = true
    ∧ pol 0x10 [(4,4,0x10001),(8,8,64),(16,4,1),(24,8,64),(34,1,8)] = true ∧ pol 0x12 [(4,4,0x10001),(8,8,64),(16,4,65)] = true
    ∧ pol 0x11 [(4,4,0x10001),(8,8,64),(16,4,48),(20,4,100),(24,8,64),(34,1,12)] (workDie { wdie with bank := { wdie.bank with split := [(0, 3)] } }) = true
    ∧ pol 0x13 [(4,4,0x10003),(8,8,64),(16,4,4),(24,8,64),(33,1,4)] = true ∧ pol 0x20 [(4,4,0x10005),(20,4,4096),(24,8,64),(36,4,51),(40,2,1)] = true
    ∧ pol 0x21 [(4,4,0x10005),(20,4,4096),(24,8,64),(36,4,51)] = true ∧ pol 0x22 [(24,8,64),(32,4,1)] = true
    ∧ pol 0x30 [(1,1,2),(4,4,0x10004),(8,8,64),(16,4,32),(20,4,64),(24,8,64),(32,1,1)] wsplit (g := false) = true
    ∧ pol 0x31 [(8,8,64),(16,4,161),(32,1,1),(35,1,1),(36,1,1),(38,2,65),(40,2,64)] (g := false) = true
    ∧ pol 0x32 [(4,4,0x10002),(8,8,64),(16,4,65),(20,4,32),(24,8,64)] (g := false) = true := by decide +kernel

/-- O39: proofs that wait, that have no root any more, whose leaf was lost, whose pages are read back, and that are given. -/
theorem witness_ledgerProof :
    proof1 (wproof 1005000 []) (fun v en r => r.isNone && en.epoch == v.time.epoch) = true
    ∧ proof1 (wproof 5 []) (fun v en r => r.isNone && en.epoch != v.time.epoch && !(getLedger v 0).pend.any (·.epoch = en.epoch)) = true
    ∧ proof1 (wproof 5 [root5 0 1]) (fun _ en r => r.any fun y => (field y.bytes 29 1).testBit en.die) = true
    ∧ proof1 (wproof 5 [root5 0 0] [] false) (fun v en r => storeOnly v en.epoch != [] && r.any fun y => !(field y.bytes 29 1).testBit en.die) = true
    ∧ proof1 (wproof 5 [root5 0 0]) (fun v en r => storeOnly v en.epoch == [] && r.any fun y => !(field y.bytes 29 1).testBit en.die && !hostDiffers v 0 en y) = true := by
  decide +kernel

/-- O39: with a host's root that is not the leaf's hash, the journal does not give the root. -/
theorem witness_proofDiffers (hl : Leaf.hash ⟨zeros 64, zeros 48, zeros 16⟩ ≠ zeros 48) :
    proof1 (wproof 5 [root5 1 0]) (fun v en r => storeOnly v en.epoch == [] && r.any fun y => !(field y.bytes 29 1).testBit en.die && readable v == [en] && y == root5 1 0 && en.die == 0
      && en.epoch == 5 && en.tenant == 0 && en.leaf == ⟨zeros 64, zeros 48, zeros 16⟩) = true
    ∧ ∀ v en, readable v = [en] → en.die = 0 → en.epoch = 5 → en.tenant = 0 → en.leaf = ⟨zeros 64, zeros 48, zeros 16⟩ → hostDiffers v 0 en (root5 1 0) = true := by
  refine ⟨by decide +kernel, fun v en hr h0 h1 h2 h3 => ?_⟩
  have e : dieLeaves v 0 en.die en.epoch = [Leaf.hash ⟨zeros 64, zeros 48, zeros 16⟩] := by simp [dieLeaves, hr, h0, h1, h2, h3]
  unfold hostDiffers
  rw [e, h0, show slice (root5 1 0).bytes (112 + 48 * 0) 48 = zeros 48 by decide +kernel]
  have b : (field (root5 1 0).bytes 6 1).testBit 0 = true := by decide +kernel
  simp [b, mth, mthAux, hl]

/-- The state of a sourced command's job on the Crown's lane, and the job. -/
def crownLane (op : Nat) (x : Sub) (s : State) (p : State → Job → Bool) : Bool :=
  let e := laneGo (jobOf x s) (sourceHeld op x s)
  let j := getJob e (jobOf x s)
  j.phase == .engine && (laneOf e (jobOf x s)).isSome && p e j

/-- An RSA key of tenant 0 made by the device. -/
def wrsa : State := workDie { wdie with bank := { slots := wslots ++ [(7, { key 0x10 6 with origin := 2, flags := 0 })] } }

/-- A fence schedule that has no room for the curve's epoch. -/
def fullFence : List FenceTarget := (List.range 64).map fun i => { target := 2000000 + i }

/-- O40: a beacon with a wrong version; curve tables with a reserved byte, without a seed, and that fail a check, with room in the fence schedule and without; RSA keys. -/
theorem witness_LaneCommandsEnd : [
    svc 0x90 [(8,8,64),(16,4,128)] (zeros 128) work (fun x s => crownLane 0x90 x s fun e j => (inOrder (beaconFails (freeLane (jobOf x s) e) j.auths j.src j.admAt)).isSome),
    svc 0xB0 [(8,8,64),(16,4,496)] (put [(5,1,1)] (zeros 496)) work (fun x s => (firstNonzero (getJob (sourceHeld 0xB0 x s) (jobOf x s)).src (span 4 15)).isSome),
    svc 0xB0 [(8,8,64),(16,4,496)] (zeros 496) (workDie { wdie with fifo := [], intInst := [(2, { requests := 1048576 })] }) (fun x s => let h := sourceHeld 0xB0 x s
      (firstNonzero (getJob h (jobOf x s)).src (span 4 15)).isNone && internalShort h 0 2),
    svc 0xB0 [(8,8,64),(16,4,496)] (zeros 496) work (fun x s => let h := sourceHeld 0xB0 x s
      (firstNonzero (getJob h (jobOf x s)).src (span 4 15)).isNone && !internalShort h 0 2 && crownLane 0xB0 x s fun e j => let v := freeLane (jobOf x s) (blindBases 64 (blindBases 64 e).2).2
        !stale v (getJob v (jobOf x s)) && !fenceFull v (e.time.epoch + 2) && j.d.targetField == 0),
    svc 0xB0 [(8,8,64),(16,4,496)] (zeros 496) { work with fence := fullFence } (fun x s => let h := sourceHeld 0xB0 x s
      (firstNonzero (getJob h (jobOf x s)).src (span 4 15)).isNone && !internalShort h 0 2 && crownLane 0xB0 x s fun e j => let v := freeLane (jobOf x s) (blindBases 64 (blindBases 64 e).2).2
        !stale v (getJob v (jobOf x s)) && fenceFull v (e.time.epoch + 2) && j.d.targetField == 0),
    svc 0x81 [(20,4,4096),(24,8,64),(32,1,0x10),(33,1,6)] [] work (fun x s => let a := admission0 0x81 x s
      let e := laneGo (jobOf x s) a
      (firstFail (createKeyLen a (getJob a (jobOf x s)) (getJob a (jobOf x s)).src.length)).isNone && !internalShort a 0 0
        && (getJob e (jobOf x s)).phase == .engine && (laneOf e (jobOf x s)).isSome),
    svc 0x84 [(4,4,0x10007)] [] wrsa (fun x s => let a := admission0 0x84 x s
      let k := slotOf (crownBank a) x.d.handle
      let e := laneGo (jobOf x s) a
      !k.flags.testBit 1 && !k.flags.testBit 2 && k.origin == 2 && k.wide && k.alg == 6 && !internalShort a 0 0
        && (getJob e (jobOf x s)).phase == .engine && (laneOf e (jobOf x s)).isSome)].all Row.met = true := by decide +kernel

/-- A beacon of version 1 under the authority key whose AKI is 0, and a package that knows that key, at the second of the beacon. -/
def wbeacon (sec : Nat) : Bytes := put [(0,1,1),(4,6,sec)] (zeros 128)
def wauth : State := { work with authorities := [⟨zeros 8, [9]⟩], time := { wtime with edgePair := true } }

/-- A good beacon at its second passes every check. -/
theorem beaconPasses (v : State) (sec t : Nat) (hs : Config.verifyOf 2 0 false [] [9] (digest384 ((wbeacon sec).take 32)) (slice (wbeacon sec) 32 96) = true)
    (hf : field (wbeacon sec) 0 1 = 1 ∧ field (wbeacon sec) 1 1 = 0 ∧ field (wbeacon sec) 10 2 = 0 ∧ field (wbeacon sec) 24 8 = 0 ∧ slice (wbeacon sec) 12 8 = zeros 8)
    (he : v.time.edgePair = true) (hb : v.time.base.getD 0 ≤ t + 500000000) (hl : v.time.labels.contains (nearestRoll v t) = false) :
    inOrder (beaconFails v [⟨zeros 8, [9]⟩] (wbeacon sec) t) = none := by
  unfold beaconFails
  simp only [hf, he, hl, hb, List.find?_cons, decide_true]
  simp [inOrder, failIf]
  exact hs

/-- O40: beacons with good signatures, that agree with the seconds of the device and that do not. -/
theorem witness_goodBeacons (hs : ∀ sec, Config.verifyOf 2 0 false [] [9] (digest384 ((wbeacon sec).take 32)) (slice (wbeacon sec) 32 96) = true) :
    ∀ r ∈ [(1005, true), (9, false)], let w := svc 0x90 [(8,8,64),(16,4,128)] (wbeacon r.1) wauth
      w.met = true ∧ (let v := laneGo (jobOf w.x w.s) (sourceHeld 0x90 w.x w.s)
        let j := getJob v (jobOf w.x w.s)
        crownLane 0x90 w.x w.s (fun e j => labelAgrees (freeLane (jobOf w.x w.s) e) j.src j.admAt == r.2) = true
        ∧ inOrder (beaconFails (freeLane (jobOf w.x w.s) v) j.auths j.src j.admAt) = none) := by
  intro r hr
  have k : let w := svc 0x90 [(8,8,64),(16,4,128)] (wbeacon r.1) wauth
      let v := laneGo (jobOf w.x w.s) (sourceHeld 0x90 w.x w.s)
      let j := getJob v (jobOf w.x w.s)
      let u := freeLane (jobOf w.x w.s) v
      (w.met = true ∧ crownLane 0x90 w.x w.s (fun e j => labelAgrees (freeLane (jobOf w.x w.s) e) j.src j.admAt == r.2) = true) ∧ j.auths = [⟨zeros 8, [9]⟩] ∧ j.src = wbeacon r.1
      ∧ (field (wbeacon r.1) 0 1 = 1 ∧ field (wbeacon r.1) 1 1 = 0 ∧ field (wbeacon r.1) 10 2 = 0 ∧ field (wbeacon r.1) 24 8 = 0 ∧ slice (wbeacon r.1) 12 8 = zeros 8)
      ∧ u.time.edgePair = true ∧ u.time.base.getD 0 ≤ j.admAt + 500000000 ∧ u.time.labels.contains (nearestRoll u j.admAt) = false := by
    revert r; decide +kernel
  obtain ⟨⟨m, l⟩, ka, ks, kf, ke, kb, kl⟩ := k
  refine ⟨m, l, ?_⟩
  rw [ka, ks]
  exact beaconPasses _ _ _ (hs _) kf ke kb kl


/-! ## Events

Each theorem lists, clause by clause, states and operands that meet the clause's premises; `now` is `work` at its own instant. -/

/-- `work` once its clock stands at its own instant. -/
def now : State := tick 0 work
/-- `work` with another time. -/
def workTime (m : TimeState) : State := { work with time := m }
/-- Ring 0 of the PF with another queue. -/
def workQ (q : Queue) : State := workPf { wpf with queues := [(0, q), (0x40, wq 16)] }
/-- Completion ring 0 of the PF with another state, no ring attached to it. -/
def workCq (c : Cq) : State := workPf { wpf with queues := [(0x40, wq 16)], cqs := [(0, c), (16, { log2 := 6 })] }
/-- `work` with jobs. -/
def workJobs (l : KMap Job) : State := { work with jobs := l, nextJob := 100 }

/-- The state after an event at its own instant, with another time. -/
def nowTime (m : TimeState) : State := tick 0 (workTime m)

/-- O5: before the PLL locks, the first edge, the second, an edge at the rollover of second 5, and a second one there, in HOLDOVER too. -/
theorem witness_PpsEdgeAccepted :
    (nowTime { wtime with st := .unset }).time.st = .unset
    ∧ (let u := nowTime { wtime with base := none, edgePair := false }
       u.time.st ≠ .unset ∧ u.time.base = none)
    ∧ (let u := nowTime { wtime with edgePair := false }
       u.time.st ≠ .unset ∧ u.time.base.isSome ∧ u.time.edgePair = false)
    ∧ (now.time.st ≠ .unset ∧ now.time.base.isSome ∧ now.time.edgePair = true ∧ inWindow now now.time.now = true ∧ now.time.lastWindow ≠ some (nearestRoll now now.time.now))
    ∧ (let u := nowTime { wtime with lastWindow := some 5 }
       inWindow u u.time.now = true ∧ u.time.lastWindow = some (nearestRoll u u.time.now) ∧ u.time.st ≠ .holdover)
    ∧ (let u := nowTime { wtime with st := .holdover, lastWindow := some 5 }
       u.time.edgePair = true ∧ u.time.base.isSome ∧ inWindow u u.time.now = true ∧ u.time.lastWindow = some (nearestRoll u u.time.now)) := by decide +kernel

/-- O6: at step 10 before the first lock and elsewhere. -/
theorem witness_TimeReasonsAndAcquisition :
    (let u := tick 0 { workTime { wtime with st := .unset, reasons := {} } with startStep := 10 }
     u.startStep = 10 ∧ u.time.st = .unset)
    ∧ ¬ (now.startStep = 10 ∧ now.time.st = .unset) := by decide +kernel

/-- The index arithmetic of a doorbell. -/
def past (x : Queue) (w : Nat) : Nat := (w % 65536 + 65536 - x.head % 65536) % 65536

/-- O7: a window that does not act; rows 1 to 3, 6 and 7, the last up to the size. -/
theorem witness_DoorbellMovesTail : fnOpen now 5 = false ∧ fnOpen now 0 = true
    ∧ (let u := tick 0 { work with fns := [(0, { wpf with resetting := true })] }
       fnOpen u 0 = true ∧ (getFn u 0).resetting = true)
    ∧ (let u := tick 0 { work with fns := [(0, { wpf with present := false })] }
       fnOpen u 0 = true ∧ (getFn u 0).present = false)
    ∧ (getQ now ⟨0, 3⟩).st = .absent ∧ (getFn now 0).resetting = false ∧ (getFn now 0).present = true
    ∧ (let u := tick 0 (workQ { st := .stopped })
       fnOpen u 0 = true ∧ (getFn u 0).resetting = false ∧ (getFn u 0).present = true ∧ (getQ u ⟨0, 0⟩).st = .stopped)
    ∧ (let x := getQ now ⟨0, 0⟩
       x.st = .running ∧ ∀ w ∈ [1, 2, 64], (x.tail + 65536 - x.head % 65536) % 65536 ≤ past x w ∧ past x w ≤ 2 ^ x.log2) := by decide +kernel

/-- O8: one past the size, and one back. -/
theorem witness_DoorbellStopsQueue : let x := getQ now ⟨0, 0⟩
    fnOpen now 0 = true ∧ (getFn now 0).resetting = false ∧ (getFn now 0).present = true ∧ 4 < now.fnEvent.length ∧ x.st = .running
    ∧ 2 ^ x.log2 < past x 65 ∧ past x 0 < (x.tail + 65536 - x.head % 65536) % 65536 := by decide +kernel

/-- Ring 0 of the PF with a hold at 1 for a second. -/
def heldQ (noted : Bool) : State := tick 0 (workQ { wq 0 with hold := some 1, holdSince := 4000000000, holdNoted := noted })

/-- O9, O10: FROM at HEAD and at TAIL, past TAIL; a hold in force, 1 s old, with its record or without. -/
theorem witness_invalidation : let x := getQ now ⟨0, 0⟩
    let y := getQ (heldQ false) ⟨0, 0⟩
    (getQ now ⟨0, 3⟩).st = .absent ∧ fnOpen now 0 = true ∧ x.st ≠ .absent ∧ x.hold = none ∧ idxDist 0 x.head ≤ idxDist x.tail x.head ∧ idxDist 1 x.head ≤ idxDist x.tail x.head
    ∧ idxDist x.tail x.head < idxDist 2 x.head
    ∧ fnOpen (heldQ false) 0 = true ∧ y.hold = some 1 ∧ y.st ≠ .absent ∧ idxDist 0 y.head ≤ idxDist y.tail y.head ∧ idxDist y.tail y.head < idxDist 2 y.head
    ∧ y.holdNoted = false ∧ y.holdSince + 1000000000 ≤ (heldQ false).time.now ∧ (getQ (heldQ true) ⟨0, 0⟩).holdNoted = true := by decide +kernel

/-- The PF's admin ring DISABLED, its registers legal or not. -/
def adminQ (q : Queue) : State := tick 0 (workPf { wpf with queues := [(0x40, { q with st := .disabled, cq := 16 })], cqs := [(16, { log2 := 6 })] })

/-- O11. -/
theorem witness_RingControlAndPoll : let d := tick 0 (workQ { wq 0 with st := .disabled })
    let e := tick 0 (workQ { st := .stopped })
    fnOpen now 5 = false
    ∧ (fnOpen d 0 = true ∧ (getQ d ⟨0, 0⟩).st = .disabled ∧ idle d ⟨0, 0⟩ = true)
    ∧ (∀ b : Bool, let u := adminQ { log2 := if b then 6 else 0 }
        fnOpen u 0 = true ∧ (getQ u ⟨0, 0x40⟩).st = .disabled ∧ idle u ⟨0, 0x40⟩ = true ∧ pfAdminLegal u = b)
    ∧ (fnOpen e 0 = true ∧ (getQ e ⟨0, 0⟩).st = .stopped) ∧ (fnOpen now 0 = true ∧ (getQ now ⟨0, 0⟩).st = .running) ∧ (getQ now ⟨0, 3⟩).st = .absent
    ∧ (windowOpen now 0 true = true ∧ 3 < now.dies.length ∧ (getDie now 3).fenced = none) ∧ now.dies.length ≤ 4 := by decide +kernel

/-- O12. -/
def cqNow : State := tick 0 (workCq { log2 := 6, producer := 3, unsig := 1 })
theorem witness_CqRegisterWrites : fnOpen now 5 = false ∧ fnOpen cqNow 0 = true ∧ (mget (getFn cqNow 0).cqs 0).isSome = true
    ∧ idxDist ((getFn cqNow 0).cq 0).producer ((getFn cqNow 0).cq 0).head < idxDist 4 ((getFn cqNow 0).cq 0).head
    ∧ idxDist 3 ((getFn cqNow 0).cq 0).head ≤ idxDist ((getFn cqNow 0).cq 0).producer ((getFn cqNow 0).cq 0).head := by decide +kernel

/-- O13: the entry at HEAD, a later one, and one that is prefetched already. -/
theorem witness_PrefetchAndFetchFailure : let x := getQ now ⟨0, 0⟩
    let y := getQ (tick 0 (workQ { wq 0 with tail := 3 })) ⟨0, 0⟩
    let z := getQ (tick 0 (workQ { wq 0 with copies := [dsc []] })) ⟨0, 0⟩
    x.st = .running ∧ 0 % 65536 = (x.head + x.copies.length) % 65536 ∧ busOff now 0 = false ∧ (getFn now 0).d3hot = false ∧ (getQ now ⟨0, 3⟩).st ≠ .running
    ∧ idxDist 0 x.head = 0 ∧ x.head < 65536 ∧ x.copies = [] ∧ 0 < prefetchRoom x
    ∧ y.st = .running ∧ y.copies.length ≤ idxDist 1 y.head ∧ idxDist 1 y.head < y.copies.length + prefetchRoom y ∧ 1 % 65536 ≠ y.head
    ∧ idxDist 0 z.head < z.copies.length := by decide +kernel

/-- O14. -/
theorem witness_CompletionPostAndTimer : let u := tick 0 (workCq { log2 := 6, vector := 0xFF, ready := [{}] })
    let v := tick 0 (workCq { log2 := 6, vector := 1, timer := some 5000000000 })
    busOff (tick 0 (workPf { wpf with bme := false })) 0 = true ∧ ((getFn u 0).cq 0).ready = [{}] ∧ ((getFn u 0).cq 0).idxDue = none ∧ busOff u 0 = false ∧ ((getFn u 0).cq 0).vector = 0xFF
    ∧ ((getFn v 0).cq 0).timer = some 5000000000 ∧ 5000000000 ≤ v.time.now ∧ ((getFn u 0).cq 0).timer = none := by decide +kernel

/-- A flit of class 3 with FSEQ 1, good if its CRC says so. -/
def flit1 : Bytes := put [(0,2,1),(4,1,3)] (zeros 252)

/-- A package with one Band port on each die. -/
def bandNow (p : BandPort) : State := tick 0 (workDie { wdie with ports := [p] })

/-- O41: a port that carries flits and one that does not; a good flit in sequence, a bad one, one out of sequence; a retrain. -/
theorem witness_BandPortsCarryAndRetrain : (portUp (bandNow {}) 1 0 = true ∧ (getBand (bandNow {}) 1 0).training = false)
    ∧ ¬ (portUp (bandNow { training := true }) 1 0 = true ∧ (getBand (bandNow { training := true }) 1 0).training = false)
    ∧ flitOk (flit1 ++ leBytes 4 (crc32c flit1)) = true ∧ bits (field flit1 0 2) 0 12 = ((getBand (bandNow {}) 1 0).rxSeq + 1) % 4096
    ∧ bits (field flit1 0 2) 0 12 ≠ ((getBand (bandNow { rxSeq := 1 }) 1 0).rxSeq + 1) % 4096 ∧ flitOk (zeros 256) = false
    ∧ (getBand (bandNow { training := true }) 1 0).training = true := by decide +kernel


/-- O42: a die in time and one that is late; the Crown; a die that is no die; a package whose Crown has failed. -/
theorem witness_DiesAndCrownLeaveService :
    (let u := tick 0 (workDie { wdie with ports := [{ lastRx := 4999990000 }] })
     ¬ ((3 : Nat) ≠ 0 ∧ 3 < u.dies.length ∧ (getBand u 3 0).lastRx + 24000 ≤ u.time.now))
    ∧ ((3 : Nat) ≠ 0 ∧ 3 < now.dies.length ∧ (getBand now 3 0).lastRx + 24000 ≤ now.time.now) ∧ 3 < (fenceDie 3 0 now).dies.length
    ∧ (getDie now 3).live = true ∧ (getDie (recEventAt 3 0 0x0B02 (zeros 16) (modDie 3 (fun d => { d with memErrors := d.memErrors + 1 }) now)) 3).live = true
    ∧ now.dies.length ≤ 4 ∧ now.crownFault = false ∧ (tick 0 { work with crownFault := true }).crownFault = true := by decide +kernel

/-- A gate of the service world, an index beyond the table and no world in control. -/
def wmandrel : Mandrel := { gatesS := [{ entry := 0x100, target := 1, callers := 4, args := 2, flags := 1, mboxLen := 0 }], saved := [(1, true, [1, 2, 3, 4, 5, 6])] }
/-- `work` with a Mandrel on every die. -/
def workM (m : Mandrel) : State := workDie { wdie with mandrel := m }
/-- The same at its own instant. -/
def nowM (m : Mandrel) : State := tick 0 (workM m)

/-- O43: no world in control; a good gate and an index beyond the table. -/
theorem witness_GatewaysPassControl : 3 < (nowM wmandrel).dies.length ∧ (getDie (nowM { cur := 0 }) 3).mandrel.cur = 0
    ∧ (let m := (getDie (nowM wmandrel) 3).mandrel
       m.cur = 2 ∧ m.gatesS[0]? = some { entry := 0x100, target := 1, callers := 4, args := 2, flags := 1, mboxLen := 0 } ∧ Nat.testBit 1 0 = true ∧ Nat.testBit 4 m.cur = true
       ∧ Nat.testBit 1 1 = false ∧ (getWorld (nowM wmandrel) 3 1).st = 0 ∧ m.gatesS[1]? = none) := by decide +kernel

/-- A die with a block held since an instant. -/
def heldSince (at_ : Nat) : State := nowM { held := 1, heldAt := [(0, at_)] }

/-- O44: a request held for 100 ms, and one for less. -/
theorem witness_WorldsRestartAndGate :
    (let m := (getDie (heldSince 4900000000) 3).mandrel
     mget m.heldAt 0 = some 4900000000 ∧ m.held.testBit 0 = true ∧ m.noted.testBit 0 = false ∧ 4900000000 + 100000000 ≤ (heldSince 4900000000).time.now)
    ∧ mget (getDie (heldSince 4900000000) 3).mandrel.heldAt 1 = none := by decide +kernel

/-- An access of the debug port's kind to an address. -/
def wacc (a : Nat) : Access := { master := 9, world := 0, addr := a, len := 4, kind := .read, cacheable := false, ordered := true, stage2 := false }

/-- A Mandrel whose masters may read 16 bytes at 0x4000. -/
def wregions : Mandrel := { wmandrel with regions := List.replicate 11 [{ base := 0x4000, limit := 0x4010, kinds := 1, worlds := 7, masters := 0x7FF, cache := 0, order := 0, locked := false }] }
/-- A state in which accesses are checked. -/
def accNow : State := nowM wregions
/-- The beats of an access that are refused. -/
def refused (a : Access) : List (Nat × Nat × Nat) := (beatsOf a).filterMap fun b => (beatReason accNow 3 a b).map fun r => (b, r)

/-- O45: accesses of the masters inside the region and outside it, the debug port's among them; a job's transfer and a job that transfers nothing. -/
theorem witness_RefusedAccessesAreReported : 3 < accNow.dies.length
    ∧ refused { wacc 0x100000 with master := 3 } = [] ∧ (∀ m ∈ [0, 1, 2, 3, 4, 5, 10], refused { wacc 0x200000 with master := m } ≠ [])
    ∧ ({ wacc 0x200000 with job := some 7 }).job = some 7 ∧ (wacc 0x200000).job = none
    ∧ refused (wacc 0x100000) = [] ∧ refused { wacc 0x100000 with kind := .write } ≠ []
    ∧ (mget (workJobs [(7, { phase := .source })]).jobs 7).any (fun x => x.phase == .source) = true
    ∧ (mget (workJobs [(7, { phase := .engine })]).jobs 7).any (fun x => x.phase != .source && x.phase != .table) = true := by decide +kernel

/-- The dispatcher's window in a package whose PF has these queues. -/
def takeNow (qs : List (Nat × Queue)) (s : State → State := id) : State :=
  endRound (takeWindow (tick 0 (s (workPf { wpf with queues := qs }))))
/-- An admin, a service and a work entry that may be taken. -/
def admQ : Nat × Queue := (0x40, { wq 16 with copies := [dsc [(0,1,0xC8),(32,1,1),(33,1,6),(35,1,1),(36,1,1)]] })
def svcQ : Nat × Queue := (0x20, { wq 0 with copies := [dsc [(0,1,0x91)]] })
def workE : Nat × Queue := (0, { wq 0 with copies := [dsc [(0,1,0x22),(24,8,64),(32,4,1)]] })

/-- O46: the takes of a microsecond used up; an admin entry, a service entry, a work entry to take, none; a die that polls, one that is halted. -/
theorem witness_JobsMoveOn :
    (let w := takeNow [admQ] (fun s => { s with takeUs := 5000000, takeCount := 96 })
     96 ≤ w.takeCount)
    ∧ (let w := takeNow [admQ]
       w.takeCount < 96 ∧ ready w 0 = [] ∧ (afterKey (ready w 2) w.rrAdmin).isSome = true)
    ∧ (let w := takeNow [svcQ]
       w.takeCount < 96 ∧ ready w 0 = [] ∧ (afterKey (ready w 2) w.rrAdmin).isNone = true ∧ (afterKey (ready w 1) w.rrService).isSome = true)
    ∧ (let w := takeNow [workE]
       w.takeCount < 96 ∧ w.takeSvc < 8 ∧ (afterKey (ready w 2) w.rrAdmin).isNone = true ∧ (afterKey (ready w 1) w.rrService).isNone = true
       ∧ (nextWork (ready w 0) { w with takeCount := w.takeCount + 1 }).isSome = true)
    ∧ (let w := takeNow []
       w.takeCount < 96 ∧ (afterKey (ready w 2) w.rrAdmin).isNone = true ∧ (afterKey (ready w 1) w.rrService).isNone = true
       ∧ (nextWork (ready w 0) { w with takeCount := w.takeCount + 1 }).isNone = true)
    ∧ (getDie (tick 0 (workDie { wdie with live := false })) 3).live = false
    ∧ ((getDie now 3).live = true ∧ (getDie now 3).halted = false ∧ now.crownFault = false ∧ 3 < now.dies.length)
    ∧ (mget (tick 0 (workJobs [(7, { phase := .table })])).jobs 7).isSome = true ∧ (mget now.jobs 7).isNone = true := by decide +kernel

/-- Two lanes, one with a job of a function and one with a device signature, and a job of class 2 that waits; the job's estimated time is that of an ECDSA signature. -/
def wlanes (jobs : KMap Job) (rq : List Nat) : State :=
  tick 0 { workJobs jobs with dies := List.replicate 4 { wdie with lanes := [{ job := some 7 }, { job := some 8 }], rq := rq } }
def laneJobs : KMap Job := [(7, { ring := 0, d := dsc [(0,1,0x30)] }), (8, { ring := ownRing, key := some (key 0x10 1) }),
  (9, { d := dsc [(0,1,0x30),(34,1,2)], key := some (key 0x10 1) })]

/-- O47: a MAC job on its core and one that is on none; jobs on lanes; a lane that yields and one that does not; a core that fails and one that is none. -/
theorem witness_EnginesEndAndFail :
    (let u := tick 0 (engineState 0x13 (sub 0 [(4,4,0x10003),(8,8,64),(16,4,4),(24,8,64),(33,1,4)] [1, 2, 3, 4]) work)
     let j := work.nextJob
     (mget u.jobs j).any (fun x => x.phase == .engine && onEngine u j x && !onLane u j && !stalled (getDie u x.die) (outlet x).1 (outlet x).2) = true)
    ∧ (let u := tick 0 (workJobs [(7, { phase := .source })])
       (mget u.jobs 7).any (fun x => x.phase == .source) = true)
    ∧ ((getDie now 1).lanes.getD 0 {}).job = none
    ∧ (let u := wlanes laneJobs [9]
       ((getDie u 1).lanes.getD 0 {}).job = some 7 ∧ checkedRelease (getJob u 7) = true)
    ∧ (let u := wlanes laneJobs []
       ((getDie u 1).lanes.getD 0 {}).job = some 7 ∧ pickRq u 1 0 = none)
    ∧ (let u := wlanes laneJobs [9]
       let n := (laneTime (getJob u 9)).getD 0
       let rem := [1000000, 2000000]
       pickRq u 1 0 = some 9 ∧ (getDie u 1).lanes.any laneIdle = false ∧ mayYield u ((getDie u 1).lanes.getD 0 {}) (rclass (getJob u 9)) (rem.getD 0 0) n = true ∧ u.hold = false
       ∧ ∀ l < (getDie u 1).lanes.length, l ≠ 0 → mayYield u ((getDie u 1).lanes.getD l {}) (rclass (getJob u 9)) (rem.getD l 0) n = true →
         yieldsBefore u ((getDie u 1).lanes.getD 0 {}) ((getDie u 1).lanes.getD l {}) (rem.getD 0 0) (rem.getD l 0) 0 l = true)
    ∧ (let u := wlanes laneJobs [9]
       pickRq u 1 0 = some 9 ∧ mayYield u ((getDie u 1).lanes.getD 0 {}) (rclass (getJob u 9)) 0 ((laneTime (getJob u 9)).getD 0) = false)
    ∧ ¬ ((getDie now 1).live = true ∧ 3 ≤ 2 ∧ 15 < ((getDie now 1).units 3).length ∧ (((getDie now 1).units 3).getD 15 {}).retired = false)
    ∧ ((getDie now 1).live = true ∧ 0 ≤ 2 ∧ 15 < ((getDie now 1).units 0).length ∧ (((getDie now 1).units 0).getD 15 {}).retired = false ∧ 1 < now.dies.length) := by decide +kernel

/-- The bows of every die at their own instant. -/
def nowBows (l : List Bow) : Die := getDie (tick 0 (workDie { wdie with bows := l })) 3

/-- A scheduled draw that is due. -/
def wdue : Draw := { id := 7, sched := true, due := some 1005000, count := 1, n1 := 51 }
/-- `work` at its instant with a due draw on these dies. -/
def nowDue (d : Die) (ds : List Draw := [wdue]) : State := tick 0 { workDie d with draws := ds }

/-- O48: bows in each state; waits that are over and that are not; a draw to place; due draws that run and that wait. -/
theorem witness_EntropyEventsAct :
    (getDie (tick 0 (workDie { wdie with live := false })) 3).live = false
    ∧ ((getDie now 3).live = true ∧ ((getDie now 3).bows.getD 0 {}).shown now.time.now ≠ 1)
    ∧ ((nowBows [{ st := 4 }]).live = true ∧ ((nowBows [{ st := 5 }]).bows.getD 0 {}).st ≠ 2 ∧ ((nowBows [{ st := 5 }]).bows.getD 0 {}).st ≠ 3)
    ∧ (((getDie now 3).bows.getD 0 {}).st = 3 ∧ (nextBow (getDie now 3) 0).isSome = true ∧ ((getDie now 3).bows.getD 1 {}).st = 2)
    ∧ (((nowBows [{ st := 3 }, {}, {}, {}]).bows.getD 0 {}).st = 3 ∧ nextBow (nowBows [{ st := 3 }, {}, {}, {}]) 0 = none)
    ∧ (let d := nowBows [{ st := 4, fails := [4900000000] }]
       d.live = true ∧ (d.bows.getD 0 {}).st = 4 ∧ ((d.bows.getD 0 {}).fails.getLast?.getD 0) + 100000000 ≤ now.time.now)
    ∧ ¬ ((getDie now 3).live = true ∧ ((getDie now 3).bows.getD 0 {}).st = 4 ∧ ((((getDie now 3).bows.getD 0 {}).fails.getLast?.getD 0) + 100000000 ≤ now.time.now))
    ∧ (mget (tick 0 (workJobs [(7, { phase := .wait 10, waitT := 4990000000 })])).jobs 7).any (fun x => x.phase == .wait 10 && decide (x.waitT + 10000000 ≤ now.time.now)) = true
    ∧ (mget (tick 0 (workJobs [(7, { phase := .source })])).jobs 7).any (fun x => x.phase == .source) = true ∧ (mget now.jobs 7).isNone = true
    ∧ (tick 0 { work with hold := true }).hold = true
    ∧ (let u := nowDue { wdie with drawDrbgs := [] }
       u.hold = false ∧ (u.draws.find? (·.id = 7)).any (fun r => r.due.isSome && (dueDie u r).isNone) = true)
    ∧ (let u := nowDue wdie [wdue, { wdue with id := 5 }]
       (u.draws.find? (·.id = 7)).any (fun r => r.due.isSome && (dueDie u r).isSome && notFirst u r) = true)
    ∧ (let u := nowDue { wdie with fifo := [] }
       (u.draws.find? (·.id = 7)).any (fun r => (dueDie u r).any fun p => !notFirst u r && (takeSeed p u).isNone) = true)
    ∧ (let u := nowDue wdie
       (u.draws.find? (·.id = 7)).any (fun r => (dueDie u r).any fun p => !notFirst u r && (takeSeed p u).isSome) = true) := by decide +kernel

/-! ## Ledger, fences, registers and the host link -/

/-- An epoch of tenant 0 with one leaf, of die 0. -/
def wpend : PendRoot :=
  { epoch := 5, firstSeq := 1, lastSeq := 1, counts := [1,0,0,0,0,0,0,0], dieVal := List.replicate 8 (zeros 48), roots := List.replicate 8 none }
/-- `work` at its instant with that epoch waiting for its roots. -/
def nowPend (p : PendRoot) (d : Die := wdie) : State := tick 0 { workDie d with ledgers := [(0, { pend := [p] })] }
/-- A batch of that tenant, and the job of its signature on a lane. -/
def wbatch (k : Nat) : Batch := { tenant := 0, first := 1, last := 5, key := k }
def nowBatch (k : Nat) (on : Bool) : State := tick 0 { workJobs [(7, { ring := ownRing, batch := some 0, key := some (key 0x14 1) })] with
  signQ := [wbatch k], dies := List.replicate 4 { wdie with lanes := [{ job := if on then some 7 else none }] } }
/-- A package with one closed page, its store working or not. -/
def nowPage (on : Bool) : State := tick 0 { work with jsActive := on, jsLog2 := 10, pages := [{ no := 0, epoch := 5, closed := true }] }

/-- O49. -/
theorem witness_LedgerEventsAct :
    (let u := nowPend wpend
     (getLedger u 0).pend.find? (·.epoch = 5) = some wpend ∧ (getDie u 3).live = true ∧ u.hold = false
       ∧ (wpend.host = true ∨ (wpend.roots.getD 0 none).isSome = true ∨ ((getDie u 0).live = true ∧ wpend.discarded.testBit 0 = false)))
    ∧ (getLedger now 0).pend.find? (·.epoch = 5) = none
    ∧ (let u := nowPend wpend { wdie with live := false }
       (getLedger u 0).pend.find? (·.epoch = 5) = some wpend ∧ (getDie u 0).live = false
       ∧ ¬ (wpend.host = true ∨ (wpend.roots.getD 0 none).isSome = true ∨ ((getDie u 0).live = true ∧ wpend.discarded.testBit 0 = false)))
    ∧ (∀ on : Bool, let u := nowBatch 0x10005 on
       (u.signQ.find? (·.sig.isNone)).isSome = true ∧ (u.jobs.find? (fun j => j.2.batch = some 0 && (laneOf u j.1).isSome)).isSome = on)
    ∧ now.signQ.find? (·.sig.isNone) = none
    ∧ (∀ k ∈ [0x10005, 0], let f := freeLane 7 (nowBatch k true)
       let w := { f with jobs := mdel f.jobs 7 }
       (w.signQ.find? fun (b : Batch) => (getJob (nowBatch k true) 7).batch = some b.no && b.sig.isNone) = some (wbatch k) ∧ (batchKey w (wbatch k)).isSome = decide (k ≠ 0))
    ∧ (let f := freeLane 7 now
       ({ f with jobs := mdel f.jobs 7 }).signQ.find? (fun (b : Batch) => (getJob now 7).batch = some b.no && b.sig.isNone) = none)
    ∧ (let u := tick 0 { workTime { wtime with now := 15000000000, epoch := 1015000 } with ledgers := [(0, { pend := [{ wpend with host := true, closedAt := 5000000000 }] })] }
       (awaiting (getLedger u 0)).any (fun p => decide (p.closedAt + (getLedger u 0).deadline * 1000000000 ≤ u.time.now)) = true)
    ∧ (let u := nowPend { wpend with host := true, closedAt := 5000000000 }
       (awaiting (getLedger u 0)).any (fun p => decide (u.time.now < p.closedAt + (getLedger u 0).deadline * 1000000000)) = true)
    ∧ awaiting (getLedger now 0) = none ∧ nextStorePage now = none
    ∧ (∀ on : Bool, let u := nowPage on
       (nextStorePage u).any (fun p => (u.jsActive && !busOff u 0 && storePlaceFree u p) == on) = true) := by decide +kernel

/-- A target of the fence schedule, and `work` at its instant with it, or 10 µs before its boundary. -/
def wtarget : FenceTarget := { target := 1005002, staging := true, acks := [0, 1, 2, 3] }
def nowFence (f : FenceTarget) : State := tick 0 { work with fence := [f] }
def dueFence (f : FenceTarget) (kw : Nat) : State := tick 0 { workDie { wdie with mandrel := { kw := { st := kw } } } with
  time := { wtime with now := 5001990000, epoch := 1005001 }, fence := [f] }

/-- O50: a target that is staged, one that is not; 10 µs before its boundary, acknowledged by the Crown, not acknowledged, and with its key world stopped; boundaries before and at their instant, in RETAIN and outside. -/
theorem witness_FenceAndBoundary :
    (let u := nowFence wtarget
     u.fence = [wtarget] ∧ wtarget.staging = true ∧ (getDie u 3).live = true ∧ mayStage u 3 wtarget = true
     ∧ ¬ (acquired u = true ∧ boundaryAt u wtarget.target ≤ u.time.now + 10000))
    ∧ (nowFence { wtarget with staging := false }).fence = [{ wtarget with staging := false }]
    ∧ (∀ k ∈ [0, 1], let u := dueFence wtarget k
       u.fence = [wtarget] ∧ acquired u = true ∧ boundaryAt u wtarget.target ≤ u.time.now + 10000 ∧ wtarget.acks.contains 0 = true ∧ (getDie u 0).mandrel.kw.st = k)
    ∧ (let f : FenceTarget := { wtarget with acks := [1, 2, 3] }
       let u := dueFence f 0
       u.fence = [f] ∧ acquired u = true ∧ boundaryAt u f.target ≤ u.time.now + 10000 ∧ f.acks.contains 0 = false)
    ∧ now.fence.head? = none
    ∧ acquired State.reset = false ∧ acquired work = true ∧ max work.time.now 5000999999 < boundaryAt work (work.time.epoch + 1)
    ∧ boundaryAt work (work.time.epoch + 1) ≤ max work.time.now 5001000000 ∧ work.pwrState ≠ 2 ∧ work.pwrState ≠ 3
    ∧ acquired { work with pwrState := 2 } = true ∧ boundaryAt { work with pwrState := 2 } (work.time.epoch + 1) ≤ max work.time.now 5001000000 := by decide +kernel

/-- O51: a window that is shut and one that is open, and offsets of each part of it. -/
theorem witness_BarAccessesAct : fnOpen now 5 = false ∧ fnOpen now 0 = true ∧ slotRing 0x13C = some 4
    ∧ slotRing 0x1304 = none ∧ 0x1100 ≤ 0x1304 ∧ 0x1304 < 0x1320 ∧ 0x2000 ≤ 0x23FC ∧ 0x23FC < 0x2400 ∧ slotRing 0x3000 = none ∧ 0x2400 ≤ 0x3000 ∧ 0x4000 ≤ 0x100008 := by decide +kernel

/-- O52: RETAIN and waking; a function that resets, one that does not, a PF with its instance. -/
theorem witness_HostLinkEventsAct : now.pwrState ≠ 2 ∧ now.pwrState ≠ 3 ∧ (tick 0 { work with pwrState := 2 }).pwrState = 2 ∧ (tick 0 { work with pwrState := 3 }).pwrState = 3
    ∧ (getFn now 0).present = true ∧ (getFn now 1).resetting = false
    ∧ (getFn (tick 0 { work with fns := [(0, wpf), (1, { wvf with resetting := true })] }) 1).resetting = true := by decide +kernel

/-! ## Lining, image, cards and management -/

/-- The words 0 to 7 of a package in FIELD. -/
def wfield : Otp := { words := [0x5A5A5A5A, 0xC3C3C3C3, 0x0FF00FF0, 0, 0, 0, 0, 0] }
/-- `work` in FIELD. -/
def workField : State := { work with lcs := .field, otp := wfield }

/-- O55: an instance under test, none; an entry to copy, none. -/
theorem witness_TamperEventsAct :
    (let m : MonTest := { job := none, code := 2, die := 0, inst := 0 }
     ((tick 0 { work with tamper := { work.tamper with tests := [m] } }).tamper.tests.find? fun m => sameMonitor m.code 2 && m.die = 0).filter (fun m => m.code = 2 && m.inst = 0) = some m)
    ∧ now.tamper.tests = []
    ∧ (let e : LiningEntry := { num := 0, code := 2, cls := 3, stamp := none, die := 0, detail := 0, count := 0 }
       uncopied (tick 0 { workField with lining := { work.lining with log := [e], logNext := 1 } }) = [e])
    ∧ uncopied now = [] := by decide +kernel

/-- O56: a reading above a warning level, one that has come back, one that changes nothing. -/
theorem witness_LiningAndHatterEventsAct :
    (let k := 0x130 * 2 + 1
     let out (c : List Nat) (x : Int) : Bool := !c.contains k && (sensorLimits now 0x130).any fun l => l.1 = 1 && decide (if l.2.1 then l.2.2 < x * 1000 else x * 1000 < l.2.2)
     let back (c : List Nat) (x : Int) : Bool := c.contains k && (sensorLimits now 0x130).all fun l => l.1 ≠ 1 || decide (if l.2.1 then x * 1000 ≤ l.2.2 - sensorBack 0x130 l.2.2 else l.2.2 + sensorBack 0x130 l.2.2 ≤ x * 1000)
     (∃ x ∈ ([-30000, 30000] : List Int), out [] x = true) ∧ back [k] 0 = true ∧ out [] 0 = false ∧ back [] 0 = false) := by decide +kernel

/-- `work` with one job that has waited for a second, in HOLD or not. -/
def nowWait (w : Nat) (hold : Bool) : State :=
  tick 0 { workJobs [(7, { phase := .wait w, waitT := 4000000000, draw := some { id := 7 } })] with hold := hold, pwr := { work.pwr with holdAt := 3900000000 } }
/-- The OTP words of a transition and of a set-up. -/
def nowTrans (imaged : Bool) (l : List OtpStep) : State := tick 0 { work with life := { work.life with trans := some { job := 7, target := 2, from_ := 1, imaged := imaged, todo := l } } }
def nowBurn (l : List OtpStep) : State := tick 0 { work with life := { work.life with burn := some { job := 7, todo := l } } }

/-- O57: each wait that HOLD bars, and one that it does not; the OTP words of a transition and of a set-up. -/
theorem witness_FlashOtpAndCounterEventsAct :
    (∀ w ∈ [3, 4, 14, 20, 24, 25, 30, 42, 44, 45], let u := nowWait w true
       u.hold = true ∧ (mget u.jobs 7).any (fun x => x.phase == .wait w && decide (max x.waitT u.pwr.holdAt + 1000000000 ≤ u.time.now)) = true)
    ∧ ((nowWait 3 false).hold = false ∧ (mget (nowWait 3 false).jobs 7).isSome = true) ∧ (mget now.jobs 7).isNone = true
    ∧ (tick 0 { work with hold := true }).hold = true ∧ (now.life.trans = none ∧ now.life.burn = none)
    ∧ (∀ b : Bool, ∀ l ∈ [[], [OtpStep.word 0 1, .word 1 1]], let u := nowTrans b l
       u.hold = false ∧ u.life.trans = some { job := 7, target := 2, from_ := 1, imaged := b, todo := l })
    ∧ (∀ l ∈ [[], [OtpStep.word 0 1]], let u := nowBurn l
       u.hold = false ∧ u.life.trans = none ∧ u.life.burn = some { job := 7, todo := l }) := by decide +kernel

/-- `work` at its instant with card ports, all alike. -/
def nowPorts (x : Port) : State := tick 0 { work with ports := List.replicate 4 x }
/-- The response of a card to command c with a status word whose bytes 1 and 0 are given. -/
def wframe (c hi lo : Nat) : Bytes := let b := [byte c, 0, 0, byte hi, byte lo]; b ++ [byte (crc7 b * 2 + 1)]
/-- A Reset Answer: VERSION 1, 3.3 V and 1.8 V, 25 MHz. -/
def wanswer : Bytes := fit 32 ([0x44, 0x50, 0x58, 0x31, 1, 3, 3, 25] ++ List.replicate 16 5 ++ zeros 8)
/-- A result block that reports a refusal. -/
def wrefusal : Bytes := fit 512 [1, 2]

/-- O58, step by step: good answers, bad ones, those of another command; blocks; a result that fails a check; the end of an exchange. -/
theorem witness_CardEventsAct :
    (getPort now 3).awaits = false
    ∧ (∀ k ∈ [CardStep.reset, .answer, .switch, .modeCheck, .status, .writeCmd, .commit, .commitCheck, .sign, .read], let x := getPort (nowPorts { step := k }) 3
       let f := wframe (stepCommand x).1 1 0
       x.step = k ∧ x.awaits = true ∧ x.probing = false ∧ frameOk f = true ∧ (cardStatus f).testBit 9 = false ∧ (cardStatus f).testBit 10 = false ∧ field f 0 1 = (stepCommand x).1)
    ∧ (let x := getPort (nowPorts { step := .sign, probing := true }) 3
       x.awaits = true ∧ x.probing = true ∧ field (wframe 2 1 0) 0 1 = 2 ∧ frameOk (wframe 2 1 0) = true)
    ∧ frameOk (zeros 6) = false ∧ (frameOk (wframe 0 5 0) = true ∧ (cardStatus (wframe 0 5 0)).testBit 9 = false ∧ (cardStatus (wframe 0 5 0)).testBit 10 = true)
    ∧ (∀ k ∈ [CardStep.answerData, .readData, .busy], (getPort (nowPorts { step := k }) 3).step = k)
    ∧ (let u := nowPorts { step := .checking, resp := wrefusal }
       (getPort u 3).step = .checking ∧ u.hold = false ∧ (getDie u 0).mandrel.kw.st ≠ 1
       ∧ (checkReason (if (field (getPort u 3).block 4 1).testBit 0 = true then (crownBytes 2 104 u).2 else u) (getPort u 3)).isSome = true)
    ∧ (getPort now 3).step = .idle ∧ (getPort (nowPorts { step := .busy }) 3).enrol = none ∧ (getPort (nowPorts { step := .busy, enrol := some 7 }) 3).enrol = some 7 := by decide +kernel

/-- A port whose card has answered, in a session or for an enrolment. -/
def wchecked (session : Nat) (enrol : Option Nat) : Port :=
  { step := .checking, session := session, enrol := enrol, answer := wanswer, resp := fit 512 ([1, 0, 0, 0] ++ zeros 4 ++ List.replicate 16 5 ++ List.replicate 64 1) }
def nowChecked (session : Nat) (enrol : Option Nat) : State :=
  tick 0 { work with ports := List.replicate 4 (wchecked session enrol), vault := { work.vault with sessions := [{ st := 1, num := 1, endAt := 60000000000 }, {}, {}, {}] } }

/-- O58: a block that passes needs a card signature that verifies, which is assumed. -/
theorem witness_CardCheckPasses : ∀ r ∈ [(1, none), (0, some 7)], let u := nowChecked r.1 r.2
    cardSigOk u (getPort u 3) = true → (getPort u 3).step = .checking ∧ u.hold = false ∧ (getDie u 0).mandrel.kw.st ≠ 1 ∧ (getPort u 3).session = r.1 ∧ (getPort u 3).enrol = r.2
      ∧ (field (getPort u 3).block 4 1).testBit 0 = false ∧ checkReason u (getPort u 3) = none := by
  intro r hr u h
  have k : (getPort u 3).step = .checking ∧ u.hold = false ∧ (getDie u 0).mandrel.kw.st ≠ 1 ∧ (getPort u 3).session = r.1 ∧ (getPort u 3).enrol = r.2
      ∧ (field (getPort u 3).block 4 1).testBit 0 = false := by revert r; decide +kernel
  refine ⟨k.1, k.2.1, k.2.2.1, k.2.2.2.1, k.2.2.2.2.1, k.2.2.2.2.2, ?_⟩
  simp only [checkReason, h]
  revert r; decide +kernel

/-- The Hatter runs on its bank A. -/
def workHatter : State := { work with fw := { comps := [{ run := some 0 }, {}, {}] } }

/-- O59: the Hatter stopped and running. -/
theorem witness_MctpAndMonitoringAnswer : ∀ b ∈ [Binding.smbus, .vdm], serves now b = false ∧ serves (tick 0 workHatter) b = true := by decide +kernel

/-- The Hatter's answer with an update in a state. -/
def nowUpd (n : Nat) : State := tick 0 { workHatter with fw := { workHatter.fw with upd := some { viaVdm := false, block := 512, st := n } } }

/-- O60: the Hatter stopped and running; updates in each state, and none. -/
theorem witness_UpdateAndAttestationAnswer : serves now .smbus = false ∧ serves (tick 0 workHatter) .smbus = true ∧ (tick 0 workHatter).fw.upd = none
    ∧ (∀ n ∈ [1, 2, 3, 4, 5], serves (nowUpd n) .smbus = true ∧ ((nowUpd n).fw.upd.filter fun x => x.viaVdm = decide (Binding.smbus = .vdm) && [n].contains x.st).isSome = true) := by decide +kernel


/-! ## The checks refuse -/

/-- A good row, and one each with a bad function, ring, descriptor length, source instant and fragment table. -/
theorem test_wf_descriptorRow :
    let x := sub 0 [] []
    (Instr.nop x).wf = true ∧ (Instr.nop { x with q := ⟨1024, 0⟩ }).wf = false ∧ (Instr.nop { x with q := ⟨0, 16⟩ }).wf = false ∧ (Instr.nop { x with q := ⟨0, 0x41⟩ }).wf = false
    ∧ (Instr.seal { x with d := ⟨zeros 63⟩ }).wf = false ∧ (Instr.seal { x with t := 1 }).wf = false ∧ (Instr.seal { x with frags := zeros 1025 }).wf = false := by decide +kernel

/-- A source of 16 MiB is the longest. -/
theorem test_wf_source (l : Bytes) (h : 16777216 < l.length) : wfSub { sub 0 [] [] with src := l } = false := by
  have : decide (l.length ≤ 16777216) = false := by simpa using h
  simp [wfSub, this]

theorem test_wf_rings : (Instr.ringDoorbell 0 ⟨0, 0x40⟩ 65535).wf = true ∧ (Instr.ringDoorbell 0 ⟨0, 0x1F⟩ 0).wf = false ∧ (Instr.ringDoorbell 0 ⟨0, 0⟩ 65536).wf = false
    ∧ (Instr.ringCqHead 0 0 16 0).wf = true ∧ (Instr.ringCqHead 0 0 17 0).wf = false ∧ (Instr.ringCqMod 0 0 0 (2 ^ 64)).wf = false
    ∧ (Instr.registerWrite 0 0 0 0 0).wf = false ∧ (Instr.registerWrite 0 0 0 65 0).wf = false
    ∧ (Instr.descriptorArrival 0 ⟨0, 0⟩ 0 (List.replicate 9 ⟨zeros 64⟩)).wf = false ∧ (Instr.descriptorArrival 0 ⟨0, 0⟩ 0 [⟨zeros 65⟩]).wf = false
    ∧ (Instr.ledgerLeafMessage 0 65536).wf = false := by decide +kernel

theorem test_wf_dies : (Instr.diePoll 0 7).wf = true ∧ (Instr.diePoll 0 8).wf = false ∧ (Instr.bandBringup 0 [1, 8]).wf = false ∧ (Instr.keepaliveTimer 0 0 4).wf = false
    ∧ (Instr.laneYield 0 0 6 [] 0).wf = false ∧ (Instr.engineFault 0 0 0 16).wf = false ∧ (Instr.bowRetest 0 0 4 true).wf = false
    ∧ (Instr.entropyStartup 0 0 none [4]).wf = false ∧ (Instr.heartbeatMiss 0 0 3).wf = false ∧ (Instr.claimRelease 0 0 8).wf = false ∧ (Instr.supplyReset 0 5 0).wf = false
    ∧ (Instr.gate 0 0 0 [0] none).wf = false ∧ (Instr.counterSaturation 0 0 64).wf = false ∧ (Instr.flitReceive 0 0 0 (zeros 255) 0).wf = false := by decide +kernel

theorem test_wf_access : (Instr.accessRefused 0 0 (wacc 0)).wf = true ∧ (Instr.accessRefused 0 0 { wacc 0 with len := 0 }).wf = false
    ∧ (Instr.accessRefused 0 0 { wacc 0 with world := 4 }).wf = false ∧ (Instr.debugAccess 0 0 { wacc 0 with master := 11 } false).wf = false := by decide +kernel

theorem test_wf_others : (Instr.hostRootDeadline 0 ⟨1024, true⟩).wf = false ∧ (Instr.hostRootDeadline 0 ⟨0xFFFF, true⟩).wf = true ∧ (Instr.quorumWindowEnd 0 4).wf = false
    ∧ (Instr.cardDataBlock 0 0 (zeros 31) true).wf = false ∧ (Instr.cardResponse 0 0 (zeros 5)).wf = false ∧ (Instr.cardCrcToken 0 0 256).wf = false
    ∧ (Instr.startupStepOverrun 0 11 0).wf = false ∧ (Instr.msixUnmask 0 0 67).wf = false ∧ (Instr.challenge 0 .smbus 0 (zeros 31)).wf = false
    ∧ (Instr.setTid 0 .smbus 256).wf = false ∧ (Instr.generationDrop 0 0 65536).wf = false := by decide +kernel

/-! ## The queue -/

/-- No row of the table has bits. -/
theorem test_noRowHasBits : decodeTableWord 512 0 = none := rfl

/-- The front command runs, and the queue keeps the rest. -/
theorem test_frontCommand : (match Sys2Proof.Machine.step { work with pending := [.ringDisable 0 ⟨0, 0⟩, .crownFault 0] } with
    | .next u => (getQ u ⟨0, 0⟩).st != .running && u.pending == [.crownFault 0]
    | _ => false) = true := by decide +kernel

/-- O4: reset has all its dies, and a step from it leads on. -/
theorem witness_StepKeepsThePart : DiesComplete State.reset ∧ (match step { State.reset with pending := [.powerOn 0] } with
    | .next u => u.pending == []
    | _ => false) = true :=
  ⟨show _ = _ by decide +kernel, by decide +kernel⟩

end Sys2Proof.Tests
end

section
/-! PROOFS. Band ports (R24 to R27): what each operation of a port does in each of its cases, and from these the four rows of O41. -/

namespace Sys2Proof.Proofs
open Sys2Proof Sys2Proof.Machine

/-! ## One case of a port's operation at a time -/

/-- The port takes part in traffic: its flits pass and it is not retraining. -/
abbrev Carries (die port : Nat) (s : State) : Prop := portUp s die port = true ∧ (getBand s die port).training = false

/-- A flit is good: its length and CRC agree, and the code of R31 corrects its body. -/
abbrev GoodFlit (f : Bytes) (worst : Nat) : Prop := flitOk f = true ∧ worst ≤ 2

section BandCases

variable {die port worst w : Nat} {f : Bytes} {s : State}

theorem flitReceive_of_not_carries (h : ¬ Carries die port s) : flitReceive die port f worst s = s := by
  have idle : (!portUp s die port) = true ∨ (getBand s die port).training = true := by
    simpa using not_and_or.mp h
  simp only [flitReceive, if_pos idle]

/-- On a port that carries flits the row comes to the checks of the flit. -/
theorem flitReceive_of_carries (h : Carries die port s) : flitReceive die port f worst s =
    if GoodFlit f worst then
      let s1 := modBand die port (fun p => { p with lastRx := s.time.now }) s
      let seq := bits (field f 0 2) 0 12
      if seq = ((getBand s die port).rxSeq + 1) % 4096 then
        forwardFlit die (flitOf f) (ackFlit die port f (modBand die port (fun p => { p with rxSeq := seq, nak := false }) s1))
      else s1
    else transmit die port (keepaliveFlit s die port) (modBand die port (fun p => { p with nak := true }) s) := by
  obtain ⟨up, steady⟩ := h
  by_cases good : GoodFlit f worst
  · obtain ⟨ok, few⟩ := good
    simp [flitReceive, up, steady, ok, few, Nat.not_lt.mpr few]
  · have bad : (!flitOk f || decide (2 < worst)) = true := by
      simpa using not_and_or.mp good
    simp only [flitReceive, up, steady, bad, if_neg good]
    simp

/-- An ACK without NAK only frees the retry buffer; a NAK calls for a replay, and from the fifth call on for a retrain. -/
theorem ackFlit_eq (die port : Nat) (f : Bytes) (s : State) : ackFlit die port f s =
    (let p := getBand s die port
     let a := bits (field f 2 2) 0 12
     let n := if a = p.acked then p.replays else 0
     let x := modBand die port (fun p => { p with acked := a, replays := n, retry := ackedUpTo p.retry a }) s
     let y := countOn die 0x0B 0 1 (modBand die port (fun p => { p with replays := n + 1 }) x)
     if (field f 2 2).testBit 12 = false then x else if n < 4 then replay die port y else startRetrain die port y) := by
  unfold ackFlit
  cases (field f 2 2).testBit 12 with
  | false => simp
  | true => simp only [if_true, Bool.true_eq_false, if_false, ← Nat.not_lt, ite_not]

theorem keepalive_eq (die port : Nat) (s : State) : keepalive die port s =
    if Carries die port s ∧ (getBand s die port).lastTx + 1000 ≤ s.time.now then transmit die port (keepaliveFlit s die port) s else s := by
  simp only [keepalive, Carries, and_assoc, Bool.not_eq_true']

theorem silence_eq (die port : Nat) (s : State) : silence die port s =
    if Carries die port s ∧ (getBand s die port).lastRx + 4000 ≤ s.time.now then startRetrain die port s else s := by
  simp only [silence, Carries, and_assoc, Bool.not_eq_true']

theorem retrainDone_of_not_training (h : (getBand s die port).training = false) : retrainDone die port w s = s := by
  simp [retrainDone, h]

theorem retrainDone_of_failed (h : (getBand s die port).training = true) (h4 : w ≠ 4) (h2 : w ≠ 2) :
    retrainDone die port w s = portDown die port s := by
  simp [retrainDone, h, h4, h2]

/-- A retrain that ends at x4 or x2 resumes at the lower width; the port that `modBand` changes is the one that `getBand` reads, so both
name the same width. -/
theorem retrainDone_of_trained (h : (getBand s die port).training = true) (hw : w = 4 ∨ w = 2) :
    retrainDone die port w s =
      (let v := modBand die port (fun p => { p with training := false, wide := min p.wide w, nak := false, lastRx := s.time.now }) s
       drainPort die port (replay die port
        (if min (getBand s die port).wide w < (getBand s die port).wide then recEventAt die 0 0x0B01 (byte port :: zeros 7) v else v))) := by
  have trained : ¬ (w ≠ 4 ∧ w ≠ 2) := by omega
  simp only [retrainDone, h, trained]
  rfl

end BandCases

/-! ## The rows -/

/-- Settles O41: each clause is the case of its row's operation in the state to which the clock has moved. -/
theorem bandPortsCarryAndRetrain : Obligations.BandPortsCarryAndRetrain := by
  unfold Obligations.BandPortsCarryAndRetrain
  intro t die port s u p now carries retrain
  refine ⟨?flit, congrArg _ (keepalive_eq die port u), congrArg _ (silence_eq die port u), ?retrain, fun _ => rfl⟩
  case flit =>
    intro f worst good seq w q a n x y
    refine ⟨fun h => congrArg _ (flitReceive_of_not_carries h), fun h bad => ?_, fun h ok gap => ?_, fun h ok inSeq => ?_⟩
    · exact congrArg _ ((flitReceive_of_carries h).trans (if_neg bad))
    · exact congrArg _ ((flitReceive_of_carries h).trans ((if_pos ok).trans (if_neg gap)))
    · have taken : flitReceive die port f worst u = forwardFlit die (flitOf f) (ackFlit die port f w) :=
        (flitReceive_of_carries h).trans ((if_pos ok).trans (if_pos inSeq))
      exact congrArg _ (taken.trans (congrArg _ (ackFlit_eq die port f w)))
  case retrain =>
    intro w v
    exact ⟨fun h => congrArg _ (retrainDone_of_not_training h), fun h h4 h2 => congrArg _ (retrainDone_of_failed h h4 h2),
      fun h hw => congrArg _ (retrainDone_of_trained h hw)⟩

end Sys2Proof.Proofs
end

section
/-! PROOFS. The completion-ring registers (R153, R154, R157): what a write of RING_CQ_HEAD and one of RING_CQ_MOD do in each of their cases,
and from these the two rows of O12. -/

namespace Sys2Proof.Proofs
open Sys2Proof Sys2Proof.Machine

variable {t fn c w : Nat} {s : State}

/-! ## The rows reach the registers only through the function's window -/

theorem ringCqHead_of_closed (closed : fnOpen (tick t s) fn = false) : exec (.ringCqHead t fn c w) s = .next (tick t s) := by
  change execRingCqHead t fn c w s = _
  simp [execRingCqHead, closed]

theorem ringCqHead_of_open (opened : fnOpen (tick t s) fn = true) :
    exec (.ringCqHead t fn c w) s = .next (cqHead fn c w (tick t s)) := by
  change execRingCqHead t fn c w s = _
  simp [execRingCqHead, opened]

theorem ringCqMod_of_closed (closed : fnOpen (tick t s) fn = false) : exec (.ringCqMod t fn c w) s = .next (tick t s) := by
  change execRingCqMod t fn c w s = _
  simp [execRingCqMod, closed]

theorem ringCqMod_of_open (opened : fnOpen (tick t s) fn = true) :
    exec (.ringCqMod t fn c w) s = .next (cqMod fn c w (tick t s)) := by
  change execRingCqMod t fn c w s = _
  simp [execRingCqMod, opened]

/-! ## RING_CQ_HEAD (R153) -/

theorem cqHead_of_absent (absent : mget (getFn s fn).cqs c = none) : cqHead fn c w s = s := by
  simp [cqHead, absent]

/-- On a ring that exists only the distances of the new head and of PRODUCER from the old head count. -/
theorem cqHead_of_ring (ring : (mget (getFn s fn).cqs c).isSome) : cqHead fn c w s =
    let r := (getFn s fn).cq c
    if idxDist r.producer r.head < idxDist (w % 65536) r.head then modCq fn c (fun y => { y with badHead := true }) s
    else (attached s fn c).foldl (fun a q => settleOwed ⟨fn, q⟩ a) (modCq fn c (fun y => { y with head := w % 65536 }) s) := by
  have there : ¬ (mget (getFn s fn).cqs c).isNone := by simpa [Option.isSome_iff_ne_none] using ring
  simp only [cqHead, if_neg there]

/-! ## RING_CQ_MOD (R154, R157) -/

theorem cqMod_of_absent (absent : mget (getFn s fn).cqs c = none) : cqMod fn c w s = s := by
  simp [cqMod, absent]

theorem cqMod_of_zeroCount (zero : w / 65536 % 256 = 0) : cqMod fn c w s = s := by
  simp [cqMod, bits, zero]

/-- A ring with a vector sends its message: UNSIGNALLED and the timer are cleared, and the vector is signalled. -/
theorem sendCq_of_vector (vector : ((getFn s fn).cq c).vector ≠ 0xFF) : sendCq fn c s =
    signal fn ((getFn s fn).cq c).vector (modCq fn c (fun y => { y with unsig := 0, timer := none }) s) := by
  simp only [sendCq, if_neg vector]

/-- A write with a COUNT sets both fields. It changes neither the vector nor UNSIGNALLED, so the ring as it was before the write decides
whether the message is due. -/
theorem cqMod_of_count (ring : (mget (getFn s fn).cqs c).isSome) (count : w / 65536 % 256 ≠ 0) :
    let r := (getFn s fn).cq c
    let v := modCq fn c (fun y => { y with timerUs := w % 1024, count := w / 65536 % 256 }) s
    cqMod fn c w s = if r.vector ≠ 0xFF ∧ w / 65536 % 256 < r.unsig then
      signal fn r.vector (modCq fn c (fun y => { y with unsig := 0, timer := none }) v)
    else v := by
  intro r v
  have acts : ¬ ((mget (getFn s fn).cqs c).isNone ∨ bits w 16 8 = 0) := by
    simpa [bits, Option.isSome_iff_ne_none] using And.intro ring count
  have fields : modCq fn c (fun y => { y with timerUs := bits w 0 10, count := bits w 16 8 }) s = v := by simp [v, bits]
  have changed : (getFn v fn).cq c = { r with timerUs := w % 1024, count := w / 65536 % 256 } := cq_modCq_same ..
  simp only [cqMod, if_neg acts, fields, changed]
  by_cases due : r.vector ≠ 0xFF ∧ w / 65536 % 256 < r.unsig
  · have vector : ((getFn v fn).cq c).vector = r.vector := by rw [changed]
    rw [if_pos due, if_pos due, sendCq_of_vector (vector ▸ due.1), vector]
  · rw [if_neg due, if_neg due]

/-! ## The rows -/

/-- Settles O12: behind an open window each clause is one case of the register's write; a closed window or an absent ring leaves the state
to which the clock has moved. -/
theorem cqRegisterWrites : Obligations.CqRegisterWrites := by
  unfold Obligations.CqRegisterWrites
  intro t fn c w s u r n
  refine ⟨?nothing, fun opened ring => ⟨fun beyond => ?_, fun within => ?_, fun zero => ?_, fun count => ?_⟩⟩
  case nothing =>
    intro h
    cases opened : fnOpen u fn with
    | false => exact ⟨ringCqHead_of_closed opened, ringCqMod_of_closed opened⟩
    | true =>
      have absent : mget (getFn u fn).cqs c = none := h.resolve_left (by simp [opened])
      exact ⟨(ringCqHead_of_open opened).trans (congrArg _ (cqHead_of_absent absent)),
        (ringCqMod_of_open opened).trans (congrArg _ (cqMod_of_absent absent))⟩
  · exact (ringCqHead_of_open opened).trans (congrArg _ ((cqHead_of_ring ring).trans (if_pos beyond)))
  · exact (ringCqHead_of_open opened).trans (congrArg _ ((cqHead_of_ring ring).trans (if_neg (Nat.not_lt.mpr within))))
  · exact (ringCqMod_of_open opened).trans (congrArg _ (cqMod_of_zeroCount zero))
  · exact (ringCqMod_of_open opened).trans (congrArg _ (cqMod_of_count ring count))

end Sys2Proof.Proofs
end

section
/-! PROOFS. The gateways (R406 to R408): what a GATE, a GATE_RET and an interrupt for a world do in each of their cases, and from these the
three rows of O43. -/

namespace Sys2Proof.Proofs
open Sys2Proof Sys2Proof.Machine

section GatewayCases

variable {die index w a0 a1 : Nat} {regs : List Nat} {mbox : Option (Nat × Nat)} {g : GateEntry} {s : State}

/-! ## GATE (R406, R407) -/

/-- The entry that a GATE calls: its index is looked up in the table of the world in control. -/
abbrev calledGate (m : Mandrel) (index : Nat) : Option GateEntry :=
  if index < 64 then (if m.cur = 1 then m.gatesK else m.gatesS)[index]? else none

/-- The checks on an entry that is there, in the order of R407. -/
theorem gateCode_some (s : State) (die : Nat) (g : GateEntry) (mbox : Option (Nat × Nat)) : gateCode s die (some g) mbox =
    if g.flags.testBit 0 = false then 1
    else if g.callers.testBit (getDie s die).mandrel.cur = false then 2
    else if g.flags.testBit 1 = true ∧ (mbox.any fun b => 131072 < b.1 + b.2 || g.mboxLen < b.2) = true then 3
    else if (getWorld s die g.target).st ≠ 0 then 4 else 0 := by
  simp only [gateCode, Bool.not_eq_true', Bool.and_eq_true]

theorem gateCall_of_hypervisor (idle : (getDie s die).mandrel.cur = 0) : gateCall die index regs mbox s = s := by
  simp only [gateCall, if_pos (Or.inr idle)]

/-- Only a call of an entry that is there can pass. -/
theorem gateCall_of_pass (there : die < s.dies.length) (runs : (getDie s die).mandrel.cur ≠ 0)
    (entry : calledGate (getDie s die).mandrel index = some g) (pass : gateCode s die (some g) mbox = 0) :
    gateCall die index regs mbox s = modMandrel die (fun m => { m with
      saved := (m.cur, true, passRegs 6 regs) :: m.saved, cur := g.target, regs := passRegs g.args regs, entry := g.entry }) s := by
  have calls : ¬ (s.dies.length ≤ die ∨ (getDie s die).mandrel.cur = 0) := not_or.mpr ⟨Nat.not_le.mpr there, runs⟩
  simp only [gateCall, if_neg calls, entry, pass, if_true]

/-- A missing entry and a failed check of one that is there are answered alike, by their code. -/
theorem gateCall_of_fail {called : Option GateEntry} (there : die < s.dies.length) (runs : (getDie s die).mandrel.cur ≠ 0)
    (entry : calledGate (getDie s die).mandrel index = called) (fail : gateCode s die called mbox ≠ 0) :
    gateCall die index regs mbox s =
      modMandrel die (fun m => { m with regs := lset (passRegs 6 regs) 0 (gateCode s die called mbox) }) s := by
  have calls : ¬ (s.dies.length ≤ die ∨ (getDie s die).mandrel.cur = 0) := not_or.mpr ⟨Nat.not_le.mpr there, runs⟩
  simp only [gateCall, if_neg calls, entry]
  cases called with
  | none => rfl
  | some g => exact if_neg fail

/-! ## GATE_RET and interrupts (R407, R408) -/

theorem gateReturn_of_none_saved (h : (getDie s die).mandrel.saved = []) : gateReturn die a0 a1 s = s := by
  simp only [gateReturn, h]

theorem gateReturn_of_saved {gate : Bool} {rest : List (Nat × Bool × List Nat)}
    (h : (getDie s die).mandrel.saved = (w, gate, regs) :: rest) : gateReturn die a0 a1 s =
    modMandrel die (fun m => { m with cur := w, regs := if gate then lset (lset regs 0 a0) 1 a1 else regs, saved := rest }) s := by
  simp only [gateReturn, h]

/-- An interrupt acts for a key or service world that runs and is not the one in control; no register is passed to it. -/
theorem worldInterrupt_eq (there : die < s.dies.length) : worldInterrupt die w s =
    if (w = 1 ∨ w = 2) ∧ (getDie s die).mandrel.cur ≠ w ∧ (getWorld s die w).st = 0 then modMandrel die (fun m => { m with
      saved := if m.cur = 0 then m.saved else (m.cur, false, m.regs) :: m.saved, cur := w, regs := [0, 0, 0, 0, 0, 0] }) s
    else s := by
  by_cases acts : (w = 1 ∨ w = 2) ∧ (getDie s die).mandrel.cur ≠ w ∧ (getWorld s die w).st = 0
  · obtain ⟨world, other, running⟩ := acts
    have zeroed : passRegs 0 [] = [0, 0, 0, 0, 0, 0] := rfl
    simp [worldInterrupt, Nat.not_le.mpr there, world, other, running, zeroed]
  · have idle : s.dies.length ≤ die ∨ (getDie s die).mandrel.cur = w ∨ (!decide (w = 1 ∨ w = 2)) = true ∨ (getWorld s die w).st ≠ 0 := by
      simp only [Bool.not_eq_true', decide_eq_false_iff_not]
      tauto
    simp only [worldInterrupt, if_pos idle, if_neg acts]

end GatewayCases

/-! ## The rows -/

/-- Settles O43: each clause is the case of its row's operation in the state to which the clock has moved; the code of the statement is
`gateCode` of the entry that is called. -/
theorem gatewaysPassControl : Obligations.GatewaysPassControl := by
  unfold Obligations.GatewaysPassControl
  intro t die s there u m
  refine ⟨fun index regs mbox => ?gate, fun a0 a1 => ?ret, fun w => congrArg _ (worldInterrupt_eq there)⟩
  case gate =>
    intro e code
    have codeEq : gateCode u die e mbox = code := by
      cases entry : e with
      | none => simp only [code, entry]; rfl
      | some g => simp only [code, entry]; exact gateCode_some u die g mbox
    refine ⟨fun idle => congrArg _ (gateCall_of_hypervisor idle), fun g runs entry pass => ?_, fun runs fail => ?_⟩
    · exact congrArg _ (gateCall_of_pass there runs entry (entry ▸ codeEq.trans pass))
    · rw [← codeEq] at fail ⊢
      exact congrArg _ (gateCall_of_fail there runs rfl fail)
  case ret =>
    match saved : m.saved with
    | [] => exact congrArg _ (gateReturn_of_none_saved saved)
    | (w, gate, regs) :: rest => exact congrArg _ (gateReturn_of_saved saved)

end Sys2Proof.Proofs
end

section
/-! PROOFS. Steps: every command answers a next state, and where the part has all its dies that state is of the same part, has as many dies
and the same commands waiting. From these O1, O2 and O4. -/

namespace Sys2Proof.Proofs
open Sys2Proof Sys2Proof.Machine Sys2Proof.Safety Sys2Proof.Laws

/-- The number of dies of the part depends on the part alone. -/
theorem diesComplete_of_same {s v : State} (complete : DiesComplete s) (same : Same s v) : DiesComplete v := by
  obtain ⟨part, dies, -⟩ := same
  simpa only [DiesComplete, dieCount, part, dies] using complete

/-- The outcome is a next state of the same part, with as many dies and the same commands waiting. -/
def NextKeeps (s : State) (o : Host.Outcome State Fault Refusal) : Prop := ∃ v, o = .next v ∧ Same s v

theorem nextKeeps_of_same {s v : State} (same : Same s v) : NextKeeps s (.next v) := ⟨v, rfl, same⟩

/-- A row that may reset the package needs all the dies of the part: a reset makes them anew. -/
theorem nextKeeps_of_reset {s : State} {t : Nat} {f : State → State} (complete : DiesComplete s)
    (keeps : ∀ v : State, v.dies.length = dieCount v → Same v (f v)) : NextKeeps s (.next (f (tick t s))) :=
  nextKeeps_of_same ((tick_keeps t s).trans (keeps _ (diesComplete_of_same complete (tick_keeps t s))))

/-- Every command is the clock's advance and operations whose frame is known; the rows that may reset the package stand apart. -/
theorem exec_nextKeeps (c : Instr) (s : State) (complete : DiesComplete s) : NextKeeps s (exec c s) := by
  cases c
  case powerOn => exact nextKeeps_of_reset complete powerOn_keeps
  case perstAssert width => exact nextKeeps_of_reset complete (perstAssert_keeps width)
  case supplyReset rail die => exact nextKeeps_of_reset complete (supplyReset_keeps rail die)
  case packageResetBegin => exact nextKeeps_of_reset complete resetDue_keeps
  case hypervisorWatchdog => exact nextKeeps_of_reset complete hypervisorDead_keeps
  case wakeDone ok => exact nextKeeps_of_reset complete (wakeDone_keeps ok)
  case sourceArrival t job src =>
    exact nextKeeps_of_same ((tick_keeps t s).trans ((sourceArrive_keeps _ job src _ (semOf_keeps _)).trans (settleLedger_keeps _)))
  all_goals exact nextKeeps_of_same (by simp)

/-- Settles O1: the two cases of the queue. -/
theorem stepRunsTheFrontCommand : Obligations.StepRunsTheFrontCommand := by
  unfold Obligations.StepRunsTheFrontCommand
  exact fun s => ⟨fun c rest front => by simp only [step, front], fun empty => by simp only [step, empty]⟩

/-- Settles O2: the meaning of each command of the table is a next state. -/
theorem everyCommandGoesOn : Obligations.EveryCommandGoesOn := by
  unfold Obligations.EveryCommandGoesOn
  intro c s
  cases c <;> exact ⟨_, rfl⟩

/-- Settles O4: a step idles on an empty queue, and otherwise is a command acting on a machine from whose queue it has gone. -/
theorem stepKeepsThePart : Obligations.StepKeepsThePart := by
  unfold Obligations.StepKeepsThePart
  intro s t complete stepped
  obtain ⟨front, empty⟩ := stepRunsTheFrontCommand s
  match queue : s.pending with
  | [] =>
    obtain rfl : s = t := by simpa [empty queue] using stepped
    exact ⟨complete, rfl, by simp [queue]⟩
  | c :: rest =>
    obtain ⟨v, next, same⟩ := exec_nextKeeps c { s with pending := rest } complete
    obtain rfl : v = t := by simpa [front c rest queue, next] using stepped
    have kept := diesComplete_of_same (s := { s with pending := rest }) complete same
    obtain ⟨part, -, pending⟩ := same
    exact ⟨kept, part, by simp [pending]⟩

/-- Settles O3: the reset state is fixed data. -/
theorem resetState : Obligations.ResetState := by
  unfold Obligations.ResetState
  have unready : ∀ n, (getFn State.reset n).ready = false
    | 0 => rfl
    | _ + 1 => rfl
  exact ⟨rfl, rfl, rfl, rfl, rfl, rfl, rfl, rfl, rfl, rfl, by decide, unready⟩

end Sys2Proof.Proofs
end

section
/-! PROOFS. Doorbells and stops (R125, R126): what a stop leaves of its queue, of the others and of FN_EVENT, and what a doorbell does in each
of its cases. From these O7 and O8. -/

namespace Sys2Proof.Proofs
open Sys2Proof Sys2Proof.Machine

section StopCases

variable {q r : QRef} {cause w : Nat} {owed : OwedStop} {tail : List Byte} {s : State}

/-! ## Stops (R126, R127) -/

/-- Placing an owed completion changes nothing of its queue but what is owed. -/
theorem getQ_settleOwed_same : ∃ o, getQ (settleOwed q s) q = { getQ s q with owed := o } := by
  unfold settleOwed
  dsimp only
  split
  · exact ⟨_, rfl⟩
  · split
    · exact ⟨none, by simp [pushReady]⟩
    · exact ⟨_, rfl⟩

theorem getQ_settleOwed_ne (other : r ≠ q) : getQ (settleOwed q s) r = getQ s r := by
  unfold settleOwed
  dsimp only
  split
  · rfl
  · split
    · simp [pushReady, getQ_modQ_ne _ _ _ _ other]
    · rfl

theorem settleOwed_fnEvent : (settleOwed q s).fnEvent = s.fnEvent := by
  unfold settleOwed
  dsimp only
  split
  · rfl
  · split
    · simp [pushReady]
    · rfl

/-- A package event is set once it has been raised. -/
theorem raiseFnEvent_set {i : Nat} (there : i < s.fnEvent.length) : (raiseFnEvent i s).fnEvent.getD i false = true := by
  unfold raiseFnEvent
  split
  next set => exact set
  next => rw [signal_fnEvent]; exact lset_getD_same _ _ _ _ there

/-- The stopped queue keeps HEAD, TAIL and its registers; copies, hold and failed read are gone. -/
theorem getQ_ringStop_same : ∃ o, getQ (ringStop q cause owed tail s) q =
    { getQ s q with st := .stopped, cause := cause, copies := [], failAt := none, hold := none, owed := o } := by
  obtain ⟨o, settled⟩ := getQ_settleOwed_same (q := q) (s := recEvent 0x0201 (leBytes 2 q.fn ++ leBytes 2 q.ring ++ leBytes 2 (getQ s q).head
    ++ leBytes 2 (getQ s q).tail ++ tail) (raiseFnEvent 4 (signal q.fn 0 (modQ q (fun y => { y with
      st := .stopped, cause := cause, copies := [], failAt := none, hold := none, owed := some owed }) s))))
  exact ⟨o, settled.trans (by simp)⟩

theorem getQ_ringStop_ne (other : r ≠ q) : getQ (ringStop q cause owed tail s) r = getQ s r := by
  simp [ringStop, getQ_settleOwed_ne other, getQ_modQ_ne _ _ _ _ other]

theorem ringStop_fnEvent (there : 4 < s.fnEvent.length) : (ringStop q cause owed tail s).fnEvent.getD 4 false = true := by
  simp only [ringStop, settleOwed_fnEvent, recEvent_fnEvent]
  exact raiseFnEvent_set (by simpa using there)

/-! ## Doorbells (R125) -/

theorem ringDoorbell_eq (t : Nat) : exec (.ringDoorbell t q w) s =
    .next (if fnOpen (tick t s) q.fn then doorbell q w (tick t s) else tick t s) := rfl

/-- Rows 1 and 2: a function that is not present, a resetting one, or no queue. -/
theorem doorbell_of_none (h : (getFn s q.fn).resetting = true ∨ (getFn s q.fn).present = false ∨ (getQ s q).st = .absent) :
    doorbell q w s = countOn 0 0x80 q.fn 1 s := by
  change _ ∨ _ ∨ ((getFn s q.fn).queue q.ring).st = _ at h
  rcases h with resets | gone | absent
  · simp [doorbell, resets]
  · simp [doorbell, gone]
  · simp [doorbell, absent]

/-- Row 3. -/
theorem doorbell_of_stopped (serves : (getFn s q.fn).resetting = false) (present : (getFn s q.fn).present = true)
    (stopped : (getQ s q).st = .stopped) :
    doorbell q w s = modQ q (fun y => { y with dropped := true }) (countOn 0 0x80 q.fn 1 s) := by
  change ((getFn s q.fn).queue q.ring).st = _ at stopped
  simp [doorbell, serves, present, stopped]

/-- Rows 4 to 7: a queue that is DISABLED or RUNNING compares the new tail with its size and with what is posted. -/
theorem doorbell_of_on (serves : (getFn s q.fn).resetting = false) (present : (getFn s q.fn).present = true)
    (on : (getQ s q).st = .disabled ∨ (getQ s q).st = .running) : doorbell q w s =
      let x := getQ s q
      let v := countOn 0 0x80 q.fn 1 s
      if 2 ^ x.log2 < idxDist (w % 65536) x.head then ringStop q 1 (.overrun 1 (w % 65536) x.tail x.head) (leBytes 2 (w % 65536)) v
      else if idxDist (w % 65536) x.head < idxDist x.tail x.head then ringStop q 2 (.overrun 2 (w % 65536) x.tail x.head) (leBytes 2 (w % 65536)) v
      else modQ q (fun y => { y with tail := w % 65536, hold := none, done := false }) v := by
  have there : ((getFn s q.fn).queue q.ring).st ≠ .absent ∧ ((getFn s q.fn).queue q.ring).st ≠ .stopped := by
    change ((getFn s q.fn).queue q.ring).st = _ ∨ ((getFn s q.fn).queue q.ring).st = _ at on
    rcases on with st | st <;> simp [st]
  obtain ⟨notAbsent, notStopped⟩ := there
  simp only [doorbell, serves, present, Bool.not_true, Bool.or_self, Bool.false_eq_true, if_false, if_neg notAbsent, if_neg notStopped]
  rfl

end StopCases

/-! ## The rows -/

/-- Settles O7: behind an open window each clause is one case of the doorbell. -/
theorem doorbellMovesTail : Obligations.DoorbellMovesTail := by
  unfold Obligations.DoorbellMovesTail
  intro t w q s u v x
  refine ⟨fun closed => ?_, fun opened => ?_⟩
  · rw [ringDoorbell_eq, closed]; rfl
  · have row : exec (.ringDoorbell t q w) s = .next (doorbell q w u) := by rw [ringDoorbell_eq, opened]; rfl
    refine ⟨fun none => row.trans (congrArg _ (doorbell_of_none none)), fun serves present => ⟨fun stopped => ?_, fun on forward fits => ?_⟩⟩
    · exact row.trans (congrArg _ (doorbell_of_stopped serves present stopped))
    · exact row.trans (congrArg _ ((doorbell_of_on serves present on).trans ((if_neg (Nat.not_lt.mpr fits)).trans (if_neg (Nat.not_lt.mpr forward)))))

/-- Settles O8: of the two illegal doorbells the first that applies stops the queue, and the rest is what a stop leaves. -/
theorem doorbellStopsQueue : Obligations.DoorbellStopsQueue := by
  unfold Obligations.DoorbellStopsQueue
  intro t w q s u x a b opened serves present on illegal
  have row : ∃ owed, doorbell q w u =
      ringStop q (if 2 ^ x.log2 < b then 1 else 2) owed (leBytes 2 (w % 65536)) (countOn 0 0x80 q.fn 1 u) := by
    rw [doorbell_of_on serves present on]
    by_cases beyond : 2 ^ x.log2 < b
    · exact ⟨_, (if_pos beyond).trans (by rw [if_pos beyond])⟩
    · exact ⟨_, (if_neg beyond).trans ((if_pos (illegal.resolve_left beyond)).trans (by rw [if_neg beyond]))⟩
  obtain ⟨owed, row⟩ := row
  have next : exec (.ringDoorbell t q w) s = .next (doorbell q w u) := by rw [ringDoorbell_eq, opened]; rfl
  obtain ⟨o, stopped⟩ := getQ_ringStop_same (q := q) (cause := if 2 ^ x.log2 < b then 1 else 2) (owed := owed)
    (tail := leBytes 2 (w % 65536)) (s := countOn 0 0x80 q.fn 1 u)
  refine ⟨_, next.trans (congrArg _ row), ?_⟩
  simp only [stopped, getQ_countOn, true_and]
  exact ⟨rfl, rfl, fun there => ringStop_fnEvent there, (SameJobs.ringStop ..).1, fun r other => getQ_ringStop_ne other⟩

end Sys2Proof.Proofs
end

section
/-! PROOFS. Holds, ring control and arrivals (R119, R128, R129, R133 to R135, R143, R147 to R149): one case of each operation at a time, and
from these O9, O10, O11 and O13. -/

namespace Sys2Proof.Proofs
open Sys2Proof Sys2Proof.Machine

section HoldCases

variable {q : QRef} {w h : Nat} {s : State}

/-- A change of a queue depends only on what it makes of the queue as it stands. -/
theorem modQ_congr {f g : Queue → Queue} (agree : f (getQ s q) = g (getQ s q)) : modQ q f s = modQ q g s := by
  simp only [getQ] at agree
  simp only [modQ, modFn, agree]

/-! ## RING_INVALIDATE (R134) -/

theorem ringInvalidate_eq (t : Nat) : exec (.ringInvalidate t q w) s =
    .next (if fnOpen (tick t s) q.fn then invalidate q w (tick t s) else tick t s) := rfl

theorem invalidate_of_absent (absent : (getQ s q).st = .absent) : invalidate q w s = s := by
  simp only [invalidate, if_pos absent]

/-- FROM has not yet been taken: the copies before FROM stay, and the hold goes to FROM or stays at the lower of the two. -/
theorem invalidate_of_untaken (there : (getQ s q).st ≠ .absent)
    (untaken : idxDist (w % 65536) (getQ s q).head ≤ idxDist (getQ s q).tail (getQ s q).head) : invalidate q w s = modQ q (fun y => { y with
      copies := y.copies.take (idxDist (w % 65536) y.head)
      failAt := y.failAt.filter fun i => idxDist i y.head < idxDist (w % 65536) y.head
      hold := some (match (getQ s q).hold with
        | some h => if idxDist h (getQ s q).head ≤ idxDist (w % 65536) (getQ s q).head then h else w % 65536
        | none => w % 65536)
      holdSince := if y.hold = none then s.time.now else y.holdSince
      holdNoted := y.hold.isSome && y.holdNoted
      headAt := y.head, done := true, late := false }) s := by
  have inTime : decide ((getQ s q).posted < idxDist (w % 65536) (getQ s q).head) = false := decide_eq_false (Nat.not_lt.mpr untaken)
  simp only [invalidate, if_neg there, inTime, Bool.false_eq_true, if_false, Bool.not_false, Bool.true_and] <;> rfl

/-- FROM has been taken already: no copy stays, and the hold goes to HEAD or stays at the lower of the two. -/
theorem invalidate_of_taken (there : (getQ s q).st ≠ .absent)
    (taken : idxDist (getQ s q).tail (getQ s q).head < idxDist (w % 65536) (getQ s q).head) : invalidate q w s = modQ q (fun y => { y with
      copies := [], failAt := none
      hold := some (match (getQ s q).hold with
        | some h => if idxDist h (getQ s q).head ≤ idxDist (getQ s q).head (getQ s q).head then h else (getQ s q).head
        | none => (getQ s q).head)
      holdSince := if y.hold = none then s.time.now else y.holdSince
      holdNoted := y.hold.isSome && y.holdNoted
      headAt := y.head, done := true, late := true }) s := by
  have late : decide ((getQ s q).posted < idxDist (w % 65536) (getQ s q).head) = true := decide_eq_true taken
  simp only [invalidate, if_neg there, late, if_true]
  exact modQ_congr (by simp <;> rfl)

/-! ## The hold of 1 s (R135) -/

theorem holdTimeout_eq (q : QRef) (s : State) : holdTimeout q s =
    if (getQ s q).hold.isSome ∧ (getQ s q).holdNoted = false ∧ (getQ s q).holdSince + 1000000000 ≤ s.time.now then
      recEvent 0x0202 (leBytes 2 q.fn ++ leBytes 2 q.ring ++ zeros 4) (modQ q (fun y => { y with holdLong := true, holdNoted := true }) s)
    else s := by
  simp only [holdTimeout, Bool.not_eq_true']

/-! ## ENABLE (R147 to R149) -/

theorem ringEnable_eq (t : Nat) : exec (.ringEnable t q) s =
    .next (if fnOpen (tick t s) q.fn then enableRing q (tick t s) else tick t s) := rfl

theorem ringDisable_eq (t : Nat) : exec (.ringDisable t q) s =
    .next (if fnOpen (tick t s) q.fn then disableRing q (tick t s) else tick t s) := rfl

/-- A queue that is not DISABLED and idle is not enabled. -/
theorem enableRing_of_unready (h : (getQ s q).st ≠ .disabled ∨ idle s q = false) : enableRing q s = s := by
  unfold enableRing
  rw [if_neg]
  rintro ⟨disabled, idles, -⟩
  rcases h with st | busy
  · exact st disabled
  · simp [busy] at idles

/-- The PF admin ring needs legal registers. -/
theorem enableRing_of_illegal (admin : q = ⟨0, 0x40⟩) (illegal : pfAdminLegal s = false) : enableRing q s = s := by
  unfold enableRing
  rw [if_neg]
  rintro ⟨-, -, legal⟩
  simp [legal admin] at illegal

/-- A queue that is enabled runs; only the first enabling of the PF admin ring writes an index block. -/
theorem enableRing_of_ready (disabled : (getQ s q).st = .disabled) (idles : idle s q = true) (legal : q = ⟨0, 0x40⟩ → pfAdminLegal s = true) :
    enableRing q s = if q = ⟨0, 0x40⟩ ∧ s.pfFresh = true then indexOut 0 16 { modQ q (fun y => { y with st := .running }) s with pfFresh := false }
      else modQ q (fun y => { y with st := .running }) s := by
  simp only [enableRing, if_pos (And.intro disabled (And.intro idles legal))]

theorem disableRing_of_stopped (stopped : (getQ s q).st = .stopped) :
    disableRing q s = modQ q (fun y => { y with st := .disabled, tail := y.head, copies := [] }) s := by
  simp only [disableRing, stopped]

theorem disableRing_of_running (running : (getQ s q).st = .running) :
    let v := modQ q (fun y => { y with st := .disabled, copies := [], failAt := none, hold := none }) s
    disableRing q s = (unhanded v q).foldl (fun a j => squash j a) v := by
  simp only [disableRing, running]

theorem disableRing_of_off (off : (getQ s q).st = .absent ∨ (getQ s q).st = .disabled) : disableRing q s = s := by
  rcases off with st | st <;> simp only [disableRing, st]

/-! ## RING_POLL_Dn (R143) -/

theorem ringPollWrite_eq (t die : Nat) : exec (.ringPollWrite t die w) s =
    .next (if windowOpen (tick t s) 0 true then pollWrite die w (tick t s) else tick t s) := rfl

theorem pollWrite_of_legal {die : Nat} (there : die < s.dies.length) (serves : (getDie s die).fenced = none) (low : 1 ≤ w) (high : w ≤ 200) :
    pollWrite die w s = modDie die (fun d => { d with pollIv := w }) (tellDie 6 1 w die s) := by
  have interval : bits w 0 8 = w := by simp [bits]; omega
  simp only [pollWrite, interval]
  rw [if_pos ⟨there, low, high, by omega, serves⟩]

theorem pollWrite_of_illegal {die : Nat}
    (illegal : s.dies.length ≤ die ∨ (getDie s die).fenced.isSome ∨ w % 256 = 0 ∨ 200 < w % 256) : pollWrite die w s = s := by
  have interval : bits w 0 8 = w % 256 := by simp [bits]
  simp only [pollWrite, interval]
  rw [if_neg]
  rintro ⟨there, low, high, -, serves⟩
  rcases illegal with gone | fenced | zero | beyond
  · omega
  · simp [serves] at fenced
  · omega
  · omega

/-! ## Arrivals (R129, R133) -/

theorem arrive_of_next {first : Nat} {ds : List Desc} (running : (getQ s q).st = .running)
    (next : first % 65536 = ((getQ s q).head + (getQ s q).copies.length) % 65536) (bus : busOff s q.fn = false) (d0 : (getFn s q.fn).d3hot = false) :
    arrive q first ds s = modQ q (fun y => { y with copies := y.copies
      ++ (ds.take (min (prefetchRoom (getQ s q)) (2 ^ (getQ s q).log2 - first % 2 ^ (getQ s q).log2))).map (fun d => (⟨fit 64 d.bytes⟩ : Desc)) }) s := by
  simp only [arrive]
  rw [if_pos ⟨running, next, by simp [bus], by simp [d0]⟩]
  rfl

theorem arrive_of_other {first : Nat} {ds : List Desc} (other : (getQ s q).st ≠ .running
    ∨ first % 65536 ≠ ((getQ s q).head + (getQ s q).copies.length) % 65536 ∨ busOff s q.fn = true ∨ (getFn s q.fn).d3hot = true) :
    arrive q first ds s = s := by
  simp only [arrive]
  rw [if_neg]
  rintro ⟨running, next, bus, d0⟩
  rcases other with st | gap | off | hot
  · exact st running
  · exact gap next
  · simp [off] at bus
  · simp [hot] at d0

/-! ## Reads that fail (R119, R128) -/

/-- The entry may be read ahead: at or beyond the copies, and below the room. -/
abbrev ReadAhead (s : State) (q : QRef) (idx : Nat) : Prop := (getQ s q).copies.length ≤ idxDist idx (getQ s q).head
  ∧ idxDist idx (getQ s q).head < (getQ s q).copies.length + prefetchRoom (getQ s q)

theorem fetchFail_of_other {idx : Nat} (h : (getQ s q).st ≠ .running ∨ ¬ ReadAhead s q idx) : fetchFail q idx s = s := by
  simp only [fetchFail]
  rw [if_neg]
  rintro ⟨running, ahead⟩
  exact h.elim (fun st => st running) (fun no => no ahead)

/-- The error is reported at the entry's address, and the queue has the failed read. -/
theorem fetchFail_of_ahead {idx : Nat} (running : (getQ s q).st = .running) (ahead : ReadAhead s q idx) : fetchFail q idx s =
    fetchStop q (modQ q (fun y => { y with failAt := some (idx % 65536) })
      (aerError q.fn 1 ((getQ s q).base + idx % 2 ^ (getQ s q).log2 * 64) s)) := by
  simp only [fetchFail]
  rw [if_pos ⟨running, ahead⟩]
  rfl

theorem fetchStop_of_later (later : (getQ s q).failAt ≠ some (getQ s q).head) : fetchStop q s = s := by
  simp only [fetchStop, later, and_false, if_false]

/-- At HEAD the entry counts as taken and the queue stops with cause 3. -/
theorem fetchStop_of_head (running : (getQ s q).st = .running) (head : (getQ s q).failAt = some (getQ s q).head) : ∃ o, getQ (fetchStop q s) q =
    { getQ s q with head := ((getQ s q).head + 1) % 65536, st := .stopped, cause := 3, copies := [], failAt := none, hold := none, owed := o } := by
  simp only [fetchStop, running, head, and_self, if_true]
  obtain ⟨o, stopped⟩ := getQ_ringStop_same (q := q) (cause := 3) (owed := .fetchFail (((getQ s q).head + 1) % 65536)) (tail := [])
    (s := modQ q (fun y => { y with head := (y.head + 1) % 65536 }) s)
  exact ⟨o, by rw [stopped, getQ_modQ_same]⟩

/-- An entry at distance 0 is the one at HEAD. -/
theorem eq_head_of_idxDist {idx head : Nat} (zero : idxDist idx head = 0) (small : head < 65536) : idx % 65536 = head := by
  simp only [idxDist] at zero
  omega

end HoldCases

/-! ## The rows -/

/-- Settles O9: without a hold in force the place of FROM alone decides. -/
theorem invalidatePlacesHold : Obligations.InvalidatePlacesHold := by
  unfold Obligations.InvalidatePlacesHold
  intro t w q s u x fr
  refine ⟨fun nothing => ?_, fun opened there free => ?_⟩
  · rw [ringInvalidate_eq]
    rcases nothing with closed | absent
    · rw [closed]; rfl
    · rw [invalidate_of_absent absent, ite_self]
  · have row : exec (.ringInvalidate t q w) s = .next (invalidate q w u) := by rw [ringInvalidate_eq, opened]; rfl
    have noHold : (getQ u q).hold = none := free
    refine ⟨fun untaken => ?_, fun taken => ?_⟩
    · rw [row, invalidate_of_untaken there untaken]
      exact congrArg _ (modQ_congr (by simp [noHold, fr]))
    · rw [row, invalidate_of_taken there taken]
      exact congrArg _ (modQ_congr (by simp [noHold]))

/-- Settles O10: a hold in force keeps its instant and its record, and goes to the lower place. -/
theorem holdMovesDownAndIsReported : Obligations.HoldMovesDownAndIsReported := by
  unfold Obligations.HoldMovesDownAndIsReported
  intro t w h q s u x fr
  have timer : exec (.invHoldTimeout t q) s = .next (holdTimeout q u) := rfl
  refine ⟨fun held opened there => ?_, fun held unnoted due => ?_, fun idle => ?_⟩
  · have row : exec (.ringInvalidate t q w) s = .next (invalidate q w u) := by rw [ringInvalidate_eq, opened]; rfl
    have inForce : (getQ u q).hold = some h := held
    refine ⟨fun untaken => ?_, fun taken => ?_⟩
    · rw [row, invalidate_of_untaken there untaken]
      exact congrArg _ (modQ_congr (by simp [inForce, fr, x]))
    · rw [row, invalidate_of_taken there taken]
      exact congrArg _ (modQ_congr (by simp [inForce, x]))
  · rw [timer, holdTimeout_eq, if_pos ⟨by rw [show (getQ u q).hold = _ from held]; rfl, unnoted, due⟩]
  · rw [timer, holdTimeout_eq, if_neg]
    rintro ⟨some, fresh, due⟩
    rcases idle with free | noted | short
    · rw [show (getQ u q).hold = _ from free] at some; cases some
    · rw [show (getQ u q).holdNoted = _ from noted] at fresh; cases fresh
    · exact absurd due (Nat.not_le.mpr short)

/-- Settles O11: behind an open window each clause is one case of ENABLE or of the poll interval. -/
theorem ringControlAndPoll : Obligations.RingControlAndPoll := by
  unfold Obligations.RingControlAndPoll
  intro t w q s u
  refine ⟨fun closed => ?_, fun opened => ?_, fun die window there serves low high => ?_, fun die illegal => ?_⟩
  · rw [ringEnable_eq, ringDisable_eq, closed]; exact ⟨rfl, rfl⟩
  · have enable : exec (.ringEnable t q) s = .next (enableRing q u) := by rw [ringEnable_eq, opened]; rfl
    have disable : exec (.ringDisable t q) s = .next (disableRing q u) := by rw [ringDisable_eq, opened]; rfl
    rw [enable, disable]
    refine ⟨fun disabled idles other => ?_, fun disabled idles admin => ⟨fun illegal => ?_, fun legal => ?_⟩, fun unready => ?_,
      fun stopped => ?_, fun running => ?_, fun off => ?_⟩
    · rw [enableRing_of_ready disabled idles (fun admin => absurd admin other), if_neg (fun h => other h.1)]
    · rw [enableRing_of_illegal admin illegal]
    · rw [enableRing_of_ready disabled idles (fun _ => legal)]
      simp only [admin, true_and]
    · rw [enableRing_of_unready unready]
    · rw [disableRing_of_stopped stopped]
    · exact congrArg _ (disableRing_of_running running)
    · rw [disableRing_of_off off]
  · rw [ringPollWrite_eq, window, if_pos rfl, pollWrite_of_legal there serves low high]
  · rw [ringPollWrite_eq]
    rcases illegal with closed | illegal
    · rw [closed]; rfl
    · rw [pollWrite_of_illegal illegal, ite_self]

/-- Settles O13: an arrival is kept or does nothing; a failed read stops the queue at once, is kept, or does nothing. -/
theorem prefetchAndFetchFailure : Obligations.PrefetchAndFetchFailure := by
  unfold Obligations.PrefetchAndFetchFailure
  intro t q err s u x
  have fails : ∀ idx, exec (.descriptorFetchFail t q idx err) s = .next (fetchFail q idx u) := fun _ => rfl
  refine ⟨fun first ds running next bus d0 => congrArg _ (arrive_of_next running next bus d0),
    fun first ds other => congrArg _ (arrive_of_other other), fun idx running zero small empty room => ?_,
    fun idx running copied room later => ?_, fun idx other => ?_⟩
  · have ahead : ReadAhead u q idx := by
      have here : (getQ u q).copies = [] := empty
      exact ⟨by rw [here]; exact Nat.zero_le _, by rw [here, zero]; simpa using room⟩
    have head : idx % 65536 = x.head := eq_head_of_idxDist zero small
    refine ⟨_, (fails idx).trans (congrArg _ (fetchFail_of_ahead running ahead)), ?_⟩
    generalize faulted : aerError q.fn 1 _ u = v
    have kept : getQ v q = x := by rw [← faulted, getQ_aerError]
    have jobs : v.jobs = u.jobs := by simp [← faulted, aerError]
    obtain ⟨o, stopped⟩ := fetchStop_of_head (q := q) (s := modQ q (fun y => { y with failAt := some (idx % 65536) }) v)
      (by simpa [kept] using running) (by simpa [kept] using head)
    rw [stopped, getQ_modQ_same, kept]
    exact ⟨rfl, rfl, rfl, rfl, rfl, ((SameJobs.fetchStop ..).1.trans (modQ_jobs ..)).trans jobs⟩
  · rw [fails, fetchFail_of_ahead running ⟨copied, room⟩, fetchStop_of_later]
    simpa using later
  · rw [fails, fetchFail_of_other]
    rcases other with st | taken | beyond
    · exact .inl st
    · exact .inr fun ahead => absurd ahead.1 (Nat.not_le.mpr taken)
    · exact .inr fun ahead => absurd ahead.2 (Nat.not_lt.mpr beyond)

end Sys2Proof.Proofs
end

section
/-! PROOFS. Posting of completions and the moderation timer (R118, R152, R155, R156). From these O14. -/

namespace Sys2Proof.Proofs
open Sys2Proof Sys2Proof.Machine

section PostCases

variable {fn c : Nat} {k : Completion} {s : State}

/-- A sampling record leaves the outputs and the functions alone. -/
theorem pushSample_frame (die fn : Nat) (b : Bytes) (s : State) :
    (pushSample die fn b s).out = s.out ∧ (pushSample die fn b s).fns = s.fns := by
  unfold pushSample
  dsimp only
  split
  · exact ⟨rfl, rfl⟩
  · split
    · simp
    · split <;> simp

/-- The count and the sampling record of a posted completion, and the removal of its job. -/
def postNote (fn : Nat) (c : Completion) (s : State) : State :=
  let v := match c.sample with
    | some (op, takenAt, e) => jobSample fn c.tag op c.ring c.die c.status takenAt e (c.job.getD 0) false (countOn 0 0x82 fn 1 s)
    | none => countOn 0 0x82 fn 1 s
  match c.job with
  | some j => { v with jobs := mdel v.jobs j }
  | none => v

theorem postNote_frame (fn : Nat) (c : Completion) (s : State) : (postNote fn c s).out = s.out ∧ (postNote fn c s).fns = s.fns := by
  unfold postNote
  rcases c.sample with _ | ⟨op, takenAt, e⟩ <;> cases c.job <;> simp [jobSample, pushSample_frame]

/-- A completion without DST output is one write of 32 bytes; the ring's registers follow, and what is noted of it changes neither the ring nor
the outputs. -/
theorem postOne_of_no_output (none : k.out = []) : postOne fn c k s = postNote fn k (modCq fn c (fun r => { r with
      producer := (r.producer + 1) % 65536, posted := r.posted + 1, reserved := r.reserved - 1
      timer := if r.unsig = 0 ∧ r.timerUs ≠ 0 ∧ r.vector ≠ 0xFF then some (s.time.now + r.timerUs * 1000) else r.timer
      unsig := satAdd r.unsig 1 255 })
    (emit (.write fn (((getFn s fn).cq c).entryAddr ((getFn s fn).cq c).producer) (k.bytes (k.epochAt s))) s)) := by
  simp only [postOne, postNote, none, if_true] <;> rfl

theorem out_emit (o : Out) (s : State) : (emit o s).out = s.out ++ [o] := rfl

theorem getFn_eq_of_fns {s v : State} (same : v.fns = s.fns) (n : Nat) : getFn v n = getFn s n := by
  simp only [getFn, same]

theorem postCq_of_off (off : busOff s fn = true) : postCq fn c s = s := by
  simp only [postCq, if_pos off]

theorem postCq_of_empty (index : ((getFn s fn).cq c).idxDue = none) (ready : ((getFn s fn).cq c).ready = []) : postCq fn c s = s := by
  simp [postCq, heldIndex, index, ready]

/-- One ready completion of a ring without a vector: the completion, then the index block. -/
theorem postCq_of_one (one : ((getFn s fn).cq c).ready = [k]) (on : busOff s fn = false) (index : ((getFn s fn).cq c).idxDue = none)
    (vector : ((getFn s fn).cq c).vector = 0xFF) (output : k.out = []) :
    postCq fn c s = writeIndex fn c (k.epochAt s) (postOne fn c k (modCq fn c (fun r => { r with ready := [] }) s)) := by
  have mute : ∀ v : State, ((getFn v fn).cq c).vector = 0xFF → messageDue ((getFn v fn).cq c) [k] = false := by
    intro v noVector; simp [messageDue, noVector]
  have kept : ((getFn (writeIndex fn c (k.epochAt s) (postOne fn c k (modCq fn c (fun r => { r with ready := [] }) s))) fn).cq c).vector = 0xFF := by
    rw [postOne_of_no_output output]
    simp only [writeIndex, getFn_eq_of_fns (emit_fns ..), getFn_eq_of_fns (postNote_frame ..).2, cq_modCq_same, vector]
  simp [postCq, heldIndex, on, index, one, mute _ kept]

theorem cqTimer_of_due {e : Nat} (timer : ((getFn s fn).cq c).timer = some e) (due : e ≤ s.time.now) : cqTimer fn c s =
    let v := modCq fn c (fun y => { y with unsig := 0, timer := none }) s
    if ((getFn s fn).cq c).vector = 0xFF then v else signal fn ((getFn s fn).cq c).vector v := by
  simp only [cqTimer, timer, if_pos due, sendCq]

theorem cqTimer_of_idle (early : ∀ e, ((getFn s fn).cq c).timer = some e → s.time.now < e) : cqTimer fn c s = s := by
  unfold cqTimer
  split
  next e timer => exact if_neg (Nat.not_le.mpr (early e timer))
  next => rfl

end PostCases

/-- Settles O14: a posting that writes nothing, one of a single completion, and the timer. -/
theorem completionPostAndTimer : Obligations.CompletionPostAndTimer := by
  unfold Obligations.CompletionPostAndTimer
  intro t fn c s u r
  have post : exec (.completionPost t fn c) s = .next (postCq fn c u) := rfl
  have timed : exec (.cqTimerExpiry t fn c) s = .next (cqTimer fn c u) := rfl
  refine ⟨fun nothing => ?_, fun k one on index output vector => ?_, fun e timer due => ?_, fun early => ?_⟩
  · rcases nothing with off | ⟨index, ready⟩
    · rw [post, postCq_of_off off]
    · rw [post, postCq_of_empty index ready]
  · refine ⟨_, post.trans (congrArg _ (postCq_of_one one on index vector output)), ?_⟩
    have epoch : ∀ f, k.epochAt (modCq fn c f u) = k.epochAt u := fun f => by simp only [Completion.epochAt, modCq_time]
    rw [postOne_of_no_output output]
    have gen : ∀ f v, (getFn (modCq fn c f v) fn).gen = (getFn v fn).gen := fun f v => ((SameJobs.modCq fn c f v).2.2.2 fn).2
    simp [writeIndex, out_emit, gen, getFn_eq_of_fns (emit_fns ..), getFn_eq_of_fns (postNote_frame ..).2, (postNote_frame ..).1, epoch, r,
      Cq.entryAddr]
  · rw [timed, cqTimer_of_due timer due]
  · rw [timed, cqTimer_of_idle early]

end Sys2Proof.Proofs
end

section
/-! PROOFS. The time events (R39, R54, R55, R68, R73): what each of them makes of the timescale. From these O6. -/

namespace Sys2Proof.Proofs
open Sys2Proof Sys2Proof.Machine

/-- The report of an acquisition that is not complete (R73). -/
theorem acqOverdue_eq (s : State) : acqOverdue s =
    if s.startStep = 10 ∧ acquired s = false ∧ s.time.acqDue ≤ s.time.now then
      recEvent 0x0103 (leBytes 4 ((s.time.now - s.time.acqStart) / 1000000000) ++ zeros 4) { s with time := { s.time with acqDue := s.time.acqDue + 60000000000 } }
    else s := by
  simp only [acqOverdue, Bool.not_eq_true', modTime]

/-- A timing word that acts has the Crown's epoch (R39). -/
theorem timingWord_eq (die epoch : Nat) (s : State) : timingWord die epoch s =
    if (getDie s die).live = true ∧ epoch = s.time.epoch then modDie die (fun d => { d with epoch := s.time.epoch }) s else s := by
  unfold timingWord
  split
  next acts => rw [acts.2]
  next => rfl

/-- Settles O6: the meaning of each row, by the cases of its guard. -/
theorem timeReasonsAndAcquisition : Obligations.TimeReasonsAndAcquisition := by
  unfold Obligations.TimeReasonsAndAcquisition
  intro t s u
  have lock : exec (.pllLock t) s = .next (pllLock u) := rfl
  refine ⟨rfl, rfl, rfl, rfl, rfl, fun step unset => ?_, fun other => ?_, congrArg _ (acqOverdue_eq u), fun die epoch => congrArg _ (timingWord_eq die epoch u)⟩
  · rw [lock, pllLock, if_pos ⟨step, unset⟩]; rfl
  · rw [lock, pllLock, if_neg other]; rfl

end Sys2Proof.Proofs
end

section
/-! PROOFS. Descriptor rows from the take to the operation (R12, R18, R136, R504): a row that is not taken, one whose admission fails, one whose
operation is performed, and an opcode that its queue does not accept. From these O15, O16 and O17. -/

namespace Sys2Proof.Proofs
open Sys2Proof Sys2Proof.Machine Sys2Proof.Safety

/-! ## Every row runs its opcode -/

theorem exec_row (x : Sub) (s : State) : ∀ r ∈ workRows ++ commandRows, exec (r.2 x) s = .next (runOp r.1 x s) := by
  rw [← List.forall_iff_forall_mem]
  repeat' constructor

theorem exec_commandRow {x : Sub} {s : State} {r : Nat × (Sub → Instr)} (row : r ∈ commandRows) : exec (r.2 x) s = .next (runOp r.1 x s) :=
  exec_row x s r (List.mem_append_right _ row)

/-- An opcode is a byte. -/
theorem commandRow_op_lt {r : Nat × (Sub → Instr)} (row : r ∈ commandRows) : r.1 < 256 := by
  have bytes : ∀ op ∈ commandRows.map (·.1), op < 256 := by decide
  exact bytes r.1 (List.mem_map_of_mem row)

/-! ## An opcode that is not accepted (R12) -/

/-- The opcode of a descriptor survives the job's copy of 64 bytes. -/
theorem op_fit (d : Desc) : (⟨fit 64 d.bytes⟩ : Desc).op = d.op := by
  simp only [Desc.op, Desc.f, field]
  apply leNat_ext
  intro i
  rw [slice_getD, slice_getD]
  split
  next first => rw [fit_getD, if_pos (by omega)]
  next => rfl

/-- LOCKED apart, the only failure is INFO 0xFF. -/
theorem admission_of_unaccepted {sem : OpSem} {s : State} {j : Job} (unaccepted : opAccepted j.d.op j.ring = false) (unlocked : lockedFail s j = []) :
    admission sem s j = some ⟨stInput, 0xFF⟩ := by
  simp [admission, unaccepted, unlocked, firstFail]

/-- A job whose opcode its queue does not accept goes to no world: it is refused at its admission. -/
theorem toWorld_of_unaccepted {id : Nat} {s : State} {j : Job} (there : mget s.jobs id = some j) (unaccepted : opAccepted j.d.op j.ring = false)
    (unlocked : lockedFail (admitState id s) (admittedJob s j) = []) :
    toWorld id s = finishJob id stInput 0xFF [] [] (modJob id (fun y => { y with refused := true }) (admitState id s)) := by
  have job : getJob s id = j := getJob_of there
  have fails : admission (fullSem j.d.op) (admitState id s) (admittedJob s j) = some ⟨stInput, 0xFF⟩ := admission_of_unaccepted unaccepted unlocked
  simp only [toWorld, job, unaccepted, Bool.false_eq_true, false_and, if_false, admitOwn, admitJob, there, fails]
  rfl

theorem runDesc_of_taken {d : Desc} {x : Sub} {s w : State} (taken : taking x.q d s = some w) :
    runDesc d x s = rowEnd x.q (getQ s x.q).cq (takeJob x.q d w).1 (workJob (takeJob x.q d w).1 x (takeJob x.q d w).2) := by
  simp only [runDesc, taken]

/-! ## The rows -/

/-- Settles O15: a row whose entry the dispatcher does not take only lets time pass. -/
theorem untakenRowWaits : Obligations.UntakenRowWaits := by
  unfold Obligations.UntakenRowWaits
  intro x s r row untaken
  rw [exec_row x s r row, runOp_waits r.1 x s untaken]

/-- Settles O16: the three ways of a command from its admission. -/
theorem failedAdmissionCompletes : Obligations.FailedAdmissionCompletes := by
  unfold Obligations.FailedAdmissionCompletes
  refine fun x s => ⟨fun f r row reaches fails => ?_, fun r row accepted => ?_, fun r row accepted => ?_⟩
  · rw [exec_commandRow row, runOp_refused r.1 (commandRow_op_lt row) x s f reaches fails]
    rfl
  · rw [exec_commandRow row, runOp_accepted r.1 (commandRow_op_lt row) x s accepted]
  · rw [exec_commandRow row, runOp_sourced r.1 (commandRow_op_lt row) x s accepted]

/-- Settles O17: the job of the take is refused, and the refusal leaves no work of the row. -/
theorem invalidOpcodeCompletes : Obligations.InvalidOpcodeCompletes := by
  unfold Obligations.InvalidOpcodeCompletes
  intro x s u
  have row : exec (.invalidOpcode x) s = .next (if opAccepted x.d.op x.q.ring then u else runDesc x.d x u) := rfl
  refine ⟨fun nothing => ?_, ?_⟩
  · rw [row]
    rcases nothing with accepted | untaken
    · rw [accepted]; rfl
    · simp only [runDesc, untaken, ite_self]
  · intro w unaccepted taken command v id unlocked
    have job := takeEntry_job x.q x.d w
    have takes : takeJob x.q x.d w = (id, toWorld id v) := by
      simp only [takeJob, command, if_false, takeEntry_id]
      rfl
    have refused := toWorld_of_unaccepted job (by simpa [op_fit] using unaccepted) (by simpa [v, id, getJob_of job] using unlocked)
    rw [row, unaccepted, runDesc_of_taken taken, takes]
    simp only [Bool.false_eq_true, if_false, refused, v, id]
    rw [workJob_finish]

end Sys2Proof.Proofs
end

section
/-! PROOFS. From a row to its operation: what the outcome of an accepted row is once its operation is known, for a command without a source
and for one that holds its source; what the job of a row is there; and the bytes of the answers. -/

namespace Sys2Proof.Proofs
open Sys2Proof Sys2Proof.Machine Sys2Proof.Safety

section RowEnds

variable {op st info : Nat} {x : Sub} {s v : State} {o : Host.Outcome State Fault Refusal} {result out : Bytes}

/-- A job that is not at an engine has no engine work of its row to end. -/
theorem endWork_of_phase {id : Nat} {j : Job} (there : mget v.jobs id = some j) (phase : j.phase ≠ .engine) : endWork id v = v := by
  simp only [endWork, getJob_of there, if_neg phase]

/-! ## Commands without a source -/

theorem next_of_accepted (row : o = .next (runOp op x s)) (small : op < 256) (accepted : Accepted op x s)
    (go : (semOf op).go (jobOf x s) (admission0 op x s) = v) : o = .next (ended x s (workJob (jobOf x s) x v)) := by
  rw [row, runOp_accepted op small x s accepted]
  exact congrArg (fun w => Host.Outcome.next (ended x s (workJob (jobOf x s) x w))) go

/-- The operation finishes the job. -/
theorem next_of_finish (row : o = .next (runOp op x s)) (small : op < 256) (accepted : Accepted op x s)
    (go : (semOf op).go (jobOf x s) (admission0 op x s) = finishJob (jobOf x s) st info result out v) :
    o = .next (ended x s (finishJob (jobOf x s) st info result out v)) :=
  (next_of_accepted row small accepted go).trans (by rw [workJob_finish])

theorem next_of_ok (row : o = .next (runOp op x s)) (small : op < 256) (accepted : Accepted op x s)
    (go : (semOf op).go (jobOf x s) (admission0 op x s) = okJob (jobOf x s) result out v) : o = .next (completed x s result out v) :=
  next_of_finish row small accepted go

/-- The operation leaves the job waiting. -/
theorem next_of_waiting {p : Phase} (row : o = .next (runOp op x s)) (small : op < 256) (accepted : Accepted op x s)
    (go : (semOf op).go (jobOf x s) (admission0 op x s) = v) (waits : ∃ j, mget v.jobs (jobOf x s) = some j ∧ j.phase = p)
    (rest : p = .fence ∨ p = .done ∨ ∃ n, p = .wait n) : o = .next (ended x s v) :=
  (next_of_accepted row small accepted go).trans (by rw [workJob_phase _ _ _ p waits rest])

/-! ## Commands with a source -/

theorem next_of_sourced (row : o = .next (runOp op x s)) (small : op < 256) (accepted : AcceptedSrc op x s)
    (go : (semOf op).go (jobOf x s) (sourceHeld op x s) = v) : o = .next (ended x s (endWork (jobOf x s) v)) := by
  rw [row, runOp_sourced op small x s accepted, go]

theorem next_of_sourced_finish (row : o = .next (runOp op x s)) (small : op < 256) (accepted : AcceptedSrc op x s)
    (go : (semOf op).go (jobOf x s) (sourceHeld op x s) = finishJob (jobOf x s) st info result out v) :
    o = .next (ended x s (finishJob (jobOf x s) st info result out v)) :=
  (next_of_sourced row small accepted go).trans (by rw [endWork_finish])

theorem next_of_sourced_ok (row : o = .next (runOp op x s)) (small : op < 256) (accepted : AcceptedSrc op x s)
    (go : (semOf op).go (jobOf x s) (sourceHeld op x s) = okJob (jobOf x s) result out v) : o = .next (completed x s result out v) :=
  next_of_sourced_finish row small accepted go

theorem next_of_sourced_waiting {j : Job} (row : o = .next (runOp op x s)) (small : op < 256) (accepted : AcceptedSrc op x s)
    (go : (semOf op).go (jobOf x s) (sourceHeld op x s) = v) (there : mget v.jobs (jobOf x s) = some j) (waits : j.phase ≠ .engine) :
    o = .next (ended x s v) :=
  (next_of_sourced row small accepted go).trans (by rw [endWork_of_phase there waits])

/-! ## The job of a row -/

variable (op x s)

theorem getJob_admission0 : getJob (admission0 op x s) (jobOf x s) = admittedJobOf op x s := rfl

/-- The job of a row has the row's descriptor, opcode aside. -/
theorem admittedJobOf_f {i n : Nat} (low : 1 ≤ i) (high : i + n ≤ 64) : (admittedJobOf op x s).d.f i n = x.d.f i n := by
  rw [(admission0_job op x s).2.1]
  exact f_withOp x.d op i n low high

theorem admittedJobOf_d : (admittedJobOf op x s).d = x.d.withOp op := (admission0_job op x s).2.1

theorem admittedJobOf_fn : (admittedJobOf op x s).fn = x.q.fn := (admission0_job op x s).2.2.1

theorem admittedJobOf_aux : (admittedJobOf op x s).d.aux = x.d.aux := admittedJobOf_f op x s (by decide) (by decide)

theorem admittedJobOf_handle : (admittedJobOf op x s).d.handle = x.d.handle := admittedJobOf_f op x s (by decide) (by decide)

theorem admittedJobOf_targetField : (admittedJobOf op x s).d.targetField = x.d.targetField := admittedJobOf_f op x s (by decide) (by decide)

/-- With its source held the job has the same descriptor, function and tenant. -/
theorem sourceHeld_same : (getJob (sourceHeld op x s) (jobOf x s)).d = x.d.withOp op ∧ (getJob (sourceHeld op x s) (jobOf x s)).fn = x.q.fn
    ∧ (getJob (sourceHeld op x s) (jobOf x s)).tenant = (admittedJobOf op x s).tenant := by
  obtain ⟨stamp, held⟩ := sourceHeld_job op x s
  have d := admittedJobOf_d op x s
  have fn := admittedJobOf_fn op x s
  generalize admittedJobOf op x s = j at held d fn ⊢
  rw [getJob_of held]
  exact ⟨d, fn, rfl⟩

theorem sourceHeld_f {i n : Nat} (low : 1 ≤ i) (high : i + n ≤ 64) : (getJob (sourceHeld op x s) (jobOf x s)).d.f i n = x.d.f i n := by
  rw [(sourceHeld_same op x s).1]
  exact f_withOp x.d op i n low high

theorem sourceHeld_there : mget (sourceHeld op x s).jobs (jobOf x s) = some (getJob (sourceHeld op x s) (jobOf x s)) := by
  obtain ⟨stamp, held⟩ := sourceHeld_job op x s
  rw [getJob_of held, held]

end RowEnds

/-! ## Bytes -/

@[simp] theorem length_leBytes (n v : Nat) : (leBytes n v).length = n := by
  induction n generalizing v with
  | zero => rfl
  | succ n ih => simp [leBytes, ih]

@[simp] theorem length_zeros (n : Nat) : (zeros n).length = n := List.length_replicate

@[simp] theorem length_fit (n : Nat) (b : Bytes) : (fit n b).length = n := by
  simp [fit]
  omega

@[simp] theorem length_stampBytes (t : Stamp) : t.bytes.length = 16 := by simp [Stamp.bytes]

/-- The little-endian bytes of a number spell its low part. -/
@[simp] theorem leNat_leBytes (n v : Nat) : leNat (leBytes n v) = v % 256 ^ n := by
  induction n generalizing v with
  | zero => simp [leBytes, leNat, Nat.mod_one]
  | succ n ih => rw [leBytes, leNat, byte_toNat, ih, pow_succ', Nat.mod_mul]

/-- A field that begins after a first run of bytes is a field of the rest. -/
theorem field_append_right {a b : Bytes} {off len : Nat} (beyond : a.length ≤ off) : field (a ++ b) off len = field b (off - a.length) len := by
  simp only [field, slice, List.drop_append, List.drop_eq_nil_of_le beyond, List.nil_append]

/-- A field that fills a first run of bytes. -/
theorem field_append_left {a b : Bytes} {len : Nat} (whole : a.length = len) : field (a ++ b) 0 len = leNat a := by
  simp only [field, slice, List.drop_zero, ← whole, List.take_left]

theorem field_cons_succ {b : Byte} {l : Bytes} {off len : Nat} : field (b :: l) (off + 1) len = field l off len := rfl

theorem field_cons_one {b : Byte} {l : Bytes} : field (b :: l) 0 1 = b.toNat := by simp [field, slice, leNat]

end Sys2Proof.Proofs
end

section
/-! PROOFS. The queries (R83, R86, R107, R205, R265, R308, R312, R399, R400, R436, R442, R446): the answer of each. From these O19 to O22. -/

namespace Sys2Proof.Proofs
open Sys2Proof Sys2Proof.Machine Sys2Proof.Safety

section Answers

variable {id : Nat} {s : State} {j : Job}

/-! ## Time (R83, R86) -/

/-- The fields of the block of EPC_QUERY lie one after the other. -/
theorem epcBlock_fields (s : State) (j : Job) : (epcBlock s j).length = 64 ∧ field (epcBlock s j) 16 6 = s.time.epoch % 2 ^ 48
    ∧ field (epcBlock s j) 22 2 = s.ecfg.k % 65536 ∧ field (epcBlock s j) 24 1 = s.time.st.num % 256
    ∧ field (epcBlock s j) 25 1 = s.time.reasons.num % 256 := by
  have one : ∀ b l, field (b :: l) 1 1 = field l 0 1 := fun _ _ => rfl
  refine ⟨by simp [epcBlock, leInt], ?_, ?_, ?_, ?_⟩
  all_goals
    simp only [epcBlock, List.append_assoc]
    simp [field_append_right, field_append_left, one, field_cons_one]

/-- Each entry of GAME_CLOSE_READ has 32 bytes. -/
theorem length_closeEntryBytes (s : State) (j : Job) (e : CloseEntry) : (closeEntryBytes s j e).length = 32 := by
  simp [closeEntryBytes]

theorem epcQuery_go : (semOf 0x91).go id s = okJob id [] (epcBlock s (getJob s id)) s := rfl

theorem closeRead_go (job : getJob s id = j) : (semOf 0x93).go id s =
    okJob id (leBytes 4 (closeNow s j).length ++ zeros 4) ((closeNow s j).map (closeEntryBytes s j)).flatten s := by
  subst job; rfl

/-! ## Keys and curves (R265, R308) -/

theorem keyInfo_go (job : getJob s id = j) : (semOf 0x86).go id s =
    if j.d.f 34 1 = 0 then okJob id [] (infoRecord s (j.d.f 32 2)) s
    else okJob id (leBytes 4 ((infoSlots s j).take (j.d.aux / 64)).length ++ zeros 4) (((infoSlots s j).take (j.d.aux / 64)).map (infoRecord s)).flatten s := by
  subst job; rfl

theorem keyPublic_go (job : getJob s id = j) : (semOf 0x87).go id s =
    okJob id (leBytes 2 (slotOf (crownBank s) j.d.handle).pub.length ++ zeros 6) (slotOf (crownBank s) j.d.handle).pub s := by
  subst job; rfl

/-- What the last pending change of a curve table does: 1 loads, 2 unloads. -/
def pendingCurve (s : State) (t n : Nat) : Nat := (curveChanges s t n).getLast?.elim 0 fun loads => if loads then 1 else 2

theorem curveRead_go (job : getJob s id = j) : (semOf 0xB2).go id s = okJob id ([byte (pendingCurve s j.tenant (j.d.f 32 1))] ++ zeros 7)
    ((mget (crownBank s).curves (j.tenant * 16 + j.d.f 32 1)).getD []) s := by
  subst job
  have pending : ∀ o : Option Bool, (match o with
    | none => 0
    | some loads => if loads then 1 else 2) = o.elim 0 fun loads => if loads then 1 else 2 := by rintro (_ | _) <;> rfl
  change curveReadGo id s = _
  simp only [curveReadGo, pendingCurve, ← pending] <;> rfl

/-! ## Package (R107, R312, R436, R442, R446) -/

theorem length_queryBlock (s : State) (fn : Nat) : (queryBlock s fn).length = 128 := by
  simp [queryBlock, grantBlock]

theorem length_cntBlock (s : State) (fn no die : Nat) : (cntBlock s fn no die).length = 576 := by
  have entries : ∀ g : Nat → Counter, ((List.range 64).flatMap fun i => cntEntry (g i)).length = 512 := by
    intro g; simp [List.length_flatMap, cntEntry]
  simp only [cntBlock, List.length_append, length_leBytes, length_zeros, List.length_cons, List.length_nil]
  split
  · rw [entries]
  · rw [length_zeros]

theorem instanceQuery_go (job : getJob s id = j) : (semOf 0xC5).go id s = okJob id [] (queryBlock s (j.d.f 32 2)) s := by
  subst job; rfl

theorem quorumStatus_go : (semOf 0x8D).go id s = okJob id [] (s.vault.sessions.map (sessionEntry s)).flatten s := rfl

theorem fwQuery_go : (semOf 0x9B).go id s = okJob id [] (fwEntry s 0 ++ fwEntry s 1 ++ fwEntry s 2) s := by
  change okJob id [] ((List.range 3).flatMap (fwEntry s)) s = _
  simp [List.range_succ]

theorem cntRead_go (job : getJob s id = j) : (semOf 0x9F).go id s = okJob id [] ((cntDies s j.d).flatMap (cntBlock s j.fn 0)) s := by
  subst job; rfl

/-- Of the samples `l` that its function may see CNT_SAMPLE_READ answers `n`; they leave the buffer of the die on the PF only. -/
theorem cntSampleRead_go {l : List SampleRec} {n : Nat} (job : getJob s id = j)
    (seen : ((getDie s (j.d.f 32 1)).sampler.recs.filter fun r => j.fn = 0 || r.fn = j.fn) = l) (room : min (j.d.aux / 32) l.length = n) :
    (semOf 0xAE).go id s = okJob id (leBytes 2 n ++ leBytes 2 (l.length - if j.fn = 0 then n else 0)) ((l.take n).flatMap (·.bytes))
      (if j.fn = 0 ∧ n ≠ 0 then modDie (j.d.f 32 1) (fun d => { d with sampler := { d.sampler with recs := d.sampler.recs.drop n, full := false } }) s
        else s) := by
  subst job
  have taken : l.take n = l.take ((getJob s id).d.aux / 32) := by simp [← room, List.take_eq_take_iff]
  change cntSampleReadGo id s = _
  simp only [taken]
  simp only [cntSampleReadGo, seen, List.length_take, room]

/-! ## Logs (R205, R214, R399, R400) -/

theorem logRead_go (job : getJob s id = j) :
    let l := if j.d.f 32 1 = 0 then s.tamper.log.drop (j.d.f 40 2) else (s.lining.log.dropWhile fun e => e.num ≠ j.d.f 40 2).map LiningEntry.bytes
    let o := l.take (j.d.aux / 32)
    (semOf 0xAA).go id s = okJob id (leBytes 2 o.length ++ leBytes 2 (badLink s.tamper.log)) o.flatten s := by
  subst job; rfl

/-- A record of the event flash as TMP_EVENT_READ shows it. -/
def shownEvent (s : State) (i : Nat) : Bytes :=
  match s.evFlash[i]? with
  | none => []
  | some r => lset (r.r.head r.number) 15 (byte (bit (!macOk s i) 7)) ++ r.mac

/-- The answer of TMP_EVENT_READ from record `st.1` on, FIRST having been overwritten where `st.2` says so. -/
theorem eventRead_go {st : Nat × Bool} {n : Nat} (job : getJob s id = j) (first : eventStart s (j.d.f 40 4) = st)
    (count : min (min (j.d.f 48 4) (j.d.aux / 32)) (s.evFlash.length - st.1) = n) : (semOf 0xAB).go id s =
      okJob id (leBytes 4 n ++ [byte (if st.2 then 2 else if ∀ i < n, macOk s (i + st.1) = true then 0 else 1)])
        ((List.range n).flatMap fun i => shownEvent s (i + st.1)) s := by
  subst job
  have good : ((List.range n).map (· + st.1)).all (macOk s) = true ↔ ∀ i < n, macOk s (i + st.1) = true := by simp
  change eventReadGo id s = _
  simp only [eventReadGo, first, count, good, List.flatMap_map]
  rfl

/-- Content that lies in the store only is first read back. -/
theorem ldgRead_go (job : getJob s id = j) (fresh : j.tmp = 0) :
    let n := ((readEpochs s j).map fun e => (storeOnly s e).length).sum * 4608
    let items := fitItems (readItems s j) j.d.aux
    (semOf 0xA4).go id s = if n = 0 then okJob id (leBytes 4 items.length ++ zeros 4) items.flatten s
      else modJob id (fun y => { y with phase := .source, srcLen := n, tmp := 1 }) s := by
  subst job
  intro n items
  change ldgReadGo id s = _
  by_cases none : n = 0
  · simp [ldgReadGo, readBack, fresh, n, items, none]
  · simp [ldgReadGo, readBack, fresh, n, none]

end Answers

/-! ## The rows -/

/-- Settles O19: both operations answer at once and leave the state of their admission. -/
theorem timeQueriesAnswer : Obligations.TimeQueriesAnswer := by
  unfold Obligations.TimeQueriesAnswer
  refine fun x s => ⟨fun accepted => ?_, fun accepted => ?_⟩
  · exact ⟨_, next_of_ok (op := 0x91) rfl (by decide) accepted epcQuery_go, epcBlock_fields ..⟩
  · refine ⟨_, next_of_ok (op := 0x93) rfl (by decide) accepted (closeRead_go (getJob_admission0 ..)), ?_⟩
    simp [List.length_flatten, Function.comp_def, length_closeEntryBytes, Nat.mul_comm]

/-- Settles O20: each query answers at once from the state of its admission. -/
theorem keyAndCurveQueriesAnswer : Obligations.KeyAndCurveQueriesAnswer := by
  unfold Obligations.KeyAndCurveQueriesAnswer
  refine fun x s => ⟨fun accepted => ?_, fun accepted => ?_, fun accepted => ?_⟩
  · have go := keyInfo_go (getJob_admission0 0x86 x s)
    simp only [admittedJobOf_f 0x86 x s (i := 34) (n := 1) (by decide) (by decide), admittedJobOf_aux,
      admittedJobOf_f 0x86 x s (i := 32) (n := 2) (by decide) (by decide)] at go
    refine ⟨fun one => ?_, fun many => ?_⟩
    · exact next_of_ok rfl (by decide) accepted (go.trans (if_pos one))
    · exact next_of_ok rfl (by decide) accepted (go.trans (if_neg (by omega)))
  · have go := keyPublic_go (getJob_admission0 0x87 x s)
    rw [admittedJobOf_handle] at go
    exact next_of_ok rfl (by decide) accepted go
  · intro a t pending
    have go := curveRead_go (getJob_admission0 0xB2 x s)
    rw [admittedJobOf_f 0xB2 x s (i := 32) (n := 1) (by decide) (by decide)] at go
    have same : pendingCurve a t (x.d.f 32 1) = pending := by
      simp only [pendingCurve, pending]
      cases (curveChanges a t (x.d.f 32 1)).getLast? <;> rfl
    rw [← same]
    exact next_of_ok rfl (by decide) accepted go

/-- Settles O21: each query answers at once; CNT_SAMPLE_READ alone, on the PF, takes what it answers from the die. -/
theorem packageQueriesAnswer : Obligations.PackageQueriesAnswer := by
  unfold Obligations.PackageQueriesAnswer
  refine fun x s => ⟨fun accepted => ?_, fun accepted => ?_, fun accepted => ?_, fun accepted => ?_, fun accepted => ?_⟩
  · have go := instanceQuery_go (getJob_admission0 0xC5 x s)
    rw [admittedJobOf_f 0xC5 x s (i := 32) (n := 2) (by decide) (by decide)] at go
    exact ⟨next_of_ok rfl (by decide) accepted go, length_queryBlock ..⟩
  · exact next_of_ok rfl (by decide) accepted quorumStatus_go
  · exact next_of_ok rfl (by decide) accepted fwQuery_go
  · have go := cntRead_go (getJob_admission0 0x9F x s)
    rw [admittedJobOf_fn, show cntDies (admission0 0x9F x s) (admittedJobOf 0x9F x s).d = cntDies (admission0 0x9F x s) x.d by
      simp only [cntDies, admittedJobOf_f 0x9F x s (i := 32) (n := 1) (by decide) (by decide)]] at go
    exact ⟨next_of_ok rfl (by decide) accepted go, length_cntBlock _ _ _⟩
  · intro a die l n out
    have seen : ((getDie (admission0 0xAE x s) ((admittedJobOf 0xAE x s).d.f 32 1)).sampler.recs.filter
        fun r => (admittedJobOf 0xAE x s).fn = 0 || r.fn = (admittedJobOf 0xAE x s).fn) = l := by
      rw [admittedJobOf_f 0xAE x s (by decide) (by decide), admittedJobOf_fn]
    have room : min ((admittedJobOf 0xAE x s).d.aux / 32) l.length = n := by rw [admittedJobOf_aux]
    have go := cntSampleRead_go (getJob_admission0 0xAE x s) seen room
    rw [admittedJobOf_fn, admittedJobOf_f 0xAE x s (by decide) (by decide)] at go
    refine ⟨fun stays => ?_, fun pf some => ?_⟩
    · have kept : (l.length - if x.q.fn = 0 then n else 0) = l.length := by
        rcases stays with other | none
        · rw [if_neg other, Nat.sub_zero]
        · rw [none, ite_self, Nat.sub_zero]
      have untouched : ¬ (x.q.fn = 0 ∧ n ≠ 0) := fun h => stays.elim (fun other => other h.1) h.2
      rw [kept, if_neg untouched] at go
      exact next_of_ok rfl (by decide) accepted go
    · rw [if_pos pf, if_pos ⟨pf, some⟩] at go
      exact next_of_ok rfl (by decide) accepted go

/-- Settles O22: each query answers at once, but for content that is first read back. -/
theorem logQueriesAnswer : Obligations.LogQueriesAnswer := by
  unfold Obligations.LogQueriesAnswer
  refine fun x s => ⟨fun accepted => ?_, fun accepted => ?_, fun accepted => ?_⟩
  · have fresh : (admittedJobOf 0xA4 x s).tmp = 0 := (admission0_job 0xA4 x s).2.2.2.2.2.1
    have go := ldgRead_go (getJob_admission0 0xA4 x s) fresh
    simp only [admittedJobOf_aux] at go
    exact ⟨fun held => next_of_ok rfl (by decide) accepted (go.trans (if_pos held)),
      fun stored => next_of_accepted rfl (by decide) accepted (go.trans (if_neg stored))⟩
  · have go := logRead_go (getJob_admission0 0xAA x s)
    simp only [admittedJobOf_aux, admittedJobOf_f 0xAA x s (i := 32) (n := 1) (by decide) (by decide),
      admittedJobOf_f 0xAA x s (i := 40) (n := 2) (by decide) (by decide)] at go
    exact next_of_ok rfl (by decide) accepted go
  · intro a st n code out
    have first : eventStart a ((admittedJobOf 0xAB x s).d.f 40 4) = st := by
      rw [admittedJobOf_f 0xAB x s (by decide) (by decide)]
    have count : min (min ((admittedJobOf 0xAB x s).d.f 48 4) ((admittedJobOf 0xAB x s).d.aux / 32)) (a.evFlash.length - st.1) = n := by
      rw [admittedJobOf_f 0xAB x s (by decide) (by decide), admittedJobOf_aux]
    have shown : out = (List.range n).flatMap fun i => shownEvent a (i + st.1) := by
      refine congrArg (fun f => List.flatMap f (List.range n)) (funext fun i => ?_)
      unfold shownEvent
      generalize a.evFlash[i + st.1]? = e
      cases e <;> rfl
    rw [shown]
    exact next_of_ok rfl (by decide) accepted (eventRead_go (getJob_admission0 ..) first count)

end Sys2Proof.Proofs
end

section
/-! PROOFS. The fenced commands (R75, R76): what one schedules, for which boundary, and the refusal of a 65th target. From these O23. -/

namespace Sys2Proof.Proofs
open Sys2Proof Sys2Proof.Machine Sys2Proof.Safety

section Scheduling

variable {op : Nat} {x : Sub} {s : State}

/-- The change of a fenced command, accepted for its boundary. -/
def scheduled (op : Nat) (x : Sub) (s : State) (tgt : Nat) (cs : List Change) : State :=
  if fenceFull (admission0 op x s) tgt then ended x s (finishJob (jobOf x s) stQuota 0 [] [] (admission0 op x s)) else fencedState op x s tgt cs

/-- The boundary of a fenced command: TARGET, or the admission's epoch plus 2. -/
theorem targetOf_admitted : targetOf (admittedJobOf op x s).d.targetField (admittedJobOf op x s).epoch =
    targetOf x.d.targetField (admission0 op x s).time.epoch := by
  rw [admittedJobOf_targetField, admittedJobOf_epoch]

theorem acceptFenced_full {id tgt : Nat} {cs : List Change} (fresh : stale s (getJob s id) = false) (full : fenceFull s tgt = true) :
    acceptFenced id tgt cs s = finishJob id stQuota 0 [] [] s := by simp [acceptFenced, fresh, full]

/-- A fenced command whose operation accepts changes for the boundary that it names. -/
theorem next_of_fenced {o : Host.Outcome State Fault Refusal} {cs ds : List Change} (row : o = .next (runOp op x s)) (small : op < 256)
    (accepted : Accepted op x s)
    (go : (semOf op).go (jobOf x s) (admission0 op x s) =
      acceptFenced (jobOf x s) (targetOf (admittedJobOf op x s).d.targetField (admittedJobOf op x s).epoch) cs (admission0 op x s))
    (same : cs = ds) : o = .next (scheduled op x s (targetOf x.d.targetField (admission0 op x s).time.epoch) ds) := by
  subst same
  rw [targetOf_admitted] at go
  unfold scheduled
  split
  next full => exact next_of_finish row small accepted (go.trans (acceptFenced_full (admission0_fresh op x s) full))
  next room =>
    rw [row]
    exact congrArg _ (runOp_fenced op small x s accepted _ cs go (Bool.eq_false_iff.mpr room))

end Scheduling

section Changes

variable {id : Nat} {s : State} {j : Job}

theorem closeSet_go (job : getJob s id = j) : (semOf 0x92).go id s = acceptFenced id (targetOf j.d.targetField j.epoch)
    [if j.d.f 34 1 = 0 then .closeSet j.tenant { game := j.d.f 32 2, seconds := j.d.f 36 6, ns := j.d.f 42 4 }
      else .closeRetire j.tenant (j.d.f 32 2)] s := by
  subst job; rfl

theorem ldgConfigure_go (job : getJob s id = j) : (semOf 0xA2).go id s = acceptFenced id (targetOf j.d.targetField j.epoch)
    [.ledgerCfg (if j.d.f 33 1 = 1 then 0xFFFF else j.tenant) (j.d.f 32 1) (j.d.f 36 4) (j.d.f 34 1) (j.d.f 40 2)] s := by
  subst job; rfl

theorem splitSet_go (job : getJob s id = j) : (semOf 0xC4).go id s = acceptFenced id (targetOf j.d.targetField j.epoch)
    (.splitSet (j.d.f 32 2) (j.d.f 36 2) (j.d.f 38 1) ::
      if (j.d.f 38 1).testBit 1 then [.ledgerPol (tenantOf s (j.d.f 32 2)) (j.d.f 36 2 / 4 % 4)] else []) s := by
  subst job; rfl

theorem epcConfigure_go (job : getJob s id = j) : (semOf 0x94).go id s =
    if acquired s then acceptFenced id (targetOf j.d.targetField j.epoch) [.epcParams (j.d.f 32 1) (epcOf j.d)] s
    else okJob id [] [] (consume (fencedRoles s j) { s with epc := epcMerge s.epc (epcOf j.d) (j.d.f 32 1) }) := by
  subst job; rfl

theorem share_go (job : getJob s id = j) : (semOf 0xC3).go id s =
    acceptFenced id (targetOf j.d.targetField j.epoch)
      [if j.d.f 34 1 = 0xFF then .shareInst (j.d.f 32 2) (j.d.f 38 2) (j.d.f 40 2)
          (j.d.f 38 2 - (fnAt s (targetOf j.d.targetField j.epoch) (j.d.f 32 2)).g.outstanding)
        else .shareRing (j.d.f 32 2) (j.d.f 34 1) (j.d.f 35 1) (j.d.f 36 1) ((getFn s (j.d.f 32 2)).queue (j.d.f 34 1)).creation] s := by
  subst job
  change shareGo id s = _
  dsimp only [shareGo]
  split <;> rfl

theorem reseedSet_go (job : getJob s id = j) : (semOf 0x9A).go id s =
    acceptFenced id (targetOf j.d.targetField j.epoch) [.reseed (j.d.f 36 4)] s := by
  subst job; rfl

theorem curveUnload_go (job : getJob s id = j) : (semOf 0xB1).go id s =
    acceptFenced id (targetOf j.d.targetField j.epoch) [.curve j.tenant (j.d.f 32 1) []] s := by
  subst job; rfl

theorem tmpConfigure_go (job : getJob s id = j) : (semOf 0xA8).go id s = acceptFenced id (targetOf j.d.targetField j.epoch)
    [.tmp (j.d.f 32 1) (j.d.f 33 1) ((j.d.f 34 1).testBit 0) ((j.d.f 34 1).testBit 1)] s := by
  subst job; rfl

theorem cntConfigure_go (job : getJob s id = j) : (semOf 0x9D).go id s = acceptFenced id (targetOf j.d.targetField j.epoch)
    [.cnt (cntDies s j.d) (j.d.f 33 1) (j.d.f 34 1) (if (j.d.f 35 1).testBit 1 then some (j.d.f 38 2) else none) (j.d.f 36 2)
      ((j.d.f 35 1).testBit 0)] s := by
  subst job; rfl

theorem cntSnapshotSet_go (job : getJob s id = j) : (semOf 0x9E).go id s = acceptFenced id (targetOf j.d.targetField j.epoch)
    [.snap (j.d.f 32 1 = 1) (j.d.f 33 1) (j.d.f 36 4) (j.d.f 40 8) (j.d.f 48 8)] s := by
  subst job; rfl

theorem cntSampleConfigure_go (job : getJob s id = j) : (semOf 0xAD).go id s = acceptFenced id (targetOf j.d.targetField j.epoch)
    [.sample (cntDies s j.d) (j.d.f 33 1) (j.d.f 36 2) (j.d.f 38 2) (j.d.f 40 2)] s := by
  subst job; rfl

/-- The dies that a command names are those of its descriptor, whatever its opcode. -/
theorem cntDies_admitted (op : Nat) (x : Sub) (s a : State) : cntDies a (admittedJobOf op x s).d = cntDies a x.d := by
  simp (disch := decide) only [cntDies, admittedJobOf_f]

theorem epcOf_admitted (op : Nat) (x : Sub) (s : State) : epcOf (admittedJobOf op x s).d = epcOf x.d := by
  simp (disch := decide) only [epcOf, admittedJobOf_f]

end Changes

/-- Settles O23: the operation of each command accepts its change for the boundary that it names (EPC_CONFIGURE once time is acquired). -/
theorem scheduledChangesAreFenced : Obligations.ScheduledChangesAreFenced := by
  unfold Obligations.ScheduledChangesAreFenced
  intro x s T fenced
  refine ⟨fun accepted => ?_, fun accepted => ?_, fun accepted => ?_, fun accepted => ?_, fun accepted => ?_, fun accepted => ?_,
    fun accepted => ?_, fun accepted => ?_, fun accepted => ?_, fun accepted => ?_, fun accepted => ?_⟩
  case refine_1 =>
    refine ⟨fun sets => ?_, fun retires => ?_⟩
    all_goals refine next_of_fenced rfl (by decide) accepted (closeSet_go (getJob_admission0 ..)) ?_
    · simp (disch := decide) only [admittedJobOf_f, if_pos sets]
    · simp (disch := decide) only [admittedJobOf_f, retires, Nat.one_ne_zero, if_false]
  case refine_2 =>
    refine next_of_fenced rfl (by decide) accepted (ldgConfigure_go (getJob_admission0 ..)) ?_
    simp (disch := decide) only [admittedJobOf_f]
  case refine_3 =>
    refine ⟨fun plain => ?_, fun ledger => ?_⟩
    all_goals refine next_of_fenced rfl (by decide) accepted (splitSet_go (getJob_admission0 ..)) ?_
    · simp (disch := decide) only [admittedJobOf_f, plain, Bool.false_eq_true, if_false]
    · simp (disch := decide) only [admittedJobOf_f, ledger, if_true]
  case refine_4 =>
    have go := epcConfigure_go (getJob_admission0 0x94 x s)
    refine ⟨fun yes => ?_, fun no => ?_⟩
    · refine next_of_fenced rfl (by decide) accepted (go.trans (if_pos yes)) ?_
      simp (disch := decide) only [admittedJobOf_f, epcOf_admitted]
    · rw [if_neg (Bool.eq_false_iff.mp no), epcOf_admitted, admittedJobOf_f 0x94 x s (i := 32) (n := 1) (by decide) (by decide)] at go
      exact next_of_ok rfl (by decide) accepted go
  case refine_5 =>
    have go := share_go (getJob_admission0 0xC3 x s)
    refine ⟨fun ring => ?_, fun inst => ?_⟩
    all_goals refine next_of_fenced rfl (by decide) accepted go ?_
    · simp (disch := decide) only [admittedJobOf_f, if_neg ring]
    · simp (disch := decide) only [admittedJobOf_f, if_pos inst, admittedJobOf_targetField, admittedJobOf_epoch, targetOf, T]
  case refine_6 =>
    refine next_of_fenced rfl (by decide) accepted (reseedSet_go (getJob_admission0 ..)) ?_
    simp (disch := decide) only [admittedJobOf_f]
  case refine_7 =>
    refine next_of_fenced rfl (by decide) accepted (curveUnload_go (getJob_admission0 ..)) ?_
    simp (disch := decide) only [admittedJobOf_f]
  case refine_8 =>
    refine next_of_fenced rfl (by decide) accepted (tmpConfigure_go (getJob_admission0 ..)) ?_
    simp (disch := decide) only [admittedJobOf_f]
  case refine_9 =>
    refine next_of_fenced rfl (by decide) accepted (cntConfigure_go (getJob_admission0 ..)) ?_
    simp (disch := decide) only [admittedJobOf_f, cntDies_admitted]
  case refine_10 =>
    refine next_of_fenced rfl (by decide) accepted (cntSnapshotSet_go (getJob_admission0 ..)) ?_
    simp (disch := decide) only [admittedJobOf_f]
  case refine_11 =>
    refine next_of_fenced rfl (by decide) accepted (cntSampleConfigure_go (getJob_admission0 ..)) ?_
    simp (disch := decide) only [admittedJobOf_f, cntDies_admitted]

end Sys2Proof.Proofs
end

section
/-! PROOFS. Seeds and random material: what draws on the random number generators touches the dies only. -/

namespace Sys2Proof.Proofs
open Sys2Proof Sys2Proof.Machine Sys2Proof.Laws

/-- Nothing but the dies differs. -/
def DiesOnly (s v : State) : Prop := ∃ l, v = { s with dies := l }

namespace DiesOnly

theorem rfl {s : State} : DiesOnly s s := ⟨_, Eq.refl _⟩

theorem trans {s v w : State} (first : DiesOnly s v) (second : DiesOnly v w) : DiesOnly s w := by
  obtain ⟨l, h⟩ := first
  obtain ⟨m, g⟩ := second
  subst h
  subst g
  exact ⟨m, Eq.refl _⟩

theorem jobs {s v : State} (only : DiesOnly s v) : v.jobs = s.jobs := by
  obtain ⟨l, h⟩ := only
  rw [h]

theorem fns {s v : State} (only : DiesOnly s v) : v.fns = s.fns := by
  obtain ⟨l, h⟩ := only
  rw [h]

theorem getFn {s v : State} (only : DiesOnly s v) (n : Nat) : Machine.getFn v n = Machine.getFn s n := by
  simp only [Machine.getFn, only.fns]

theorem getJob {s v : State} (only : DiesOnly s v) (id : Nat) : Machine.getJob v id = Machine.getJob s id := by
  simp only [Machine.getJob, only.jobs]

theorem sameJobs {s v : State} (only : DiesOnly s v) : SameJobs s v := by
  obtain ⟨l, h⟩ := only
  rw [h]
  exact ⟨Eq.refl _, Eq.refl _, Eq.refl _, fun _ => ⟨Eq.refl _, Eq.refl _⟩⟩

theorem modDie (d : Nat) (f : Die → Die) (s : State) : DiesOnly s (Machine.modDie d f s) := ⟨_, Eq.refl _⟩

theorem countOn (d ev fn k : Nat) (s : State) : DiesOnly s (Machine.countOn d ev fn k s) := ⟨_, Eq.refl _⟩

theorem setInt (die k : Nat) (g : Drbg) (s : State) : DiesOnly s (Machine.setInt die k g s) := ⟨_, Eq.refl _⟩

theorem takeSeed {die : Nat} {s : State} {r : Bytes × State} (taken : Machine.takeSeed die s = some r) : DiesOnly s r.2 := by
  unfold Machine.takeSeed at taken
  split at taken
  · cases taken
    dsimp only
    exact (countOn ..).trans (modDie ..)
  · cases taken

theorem internalGen (die k n : Nat) (addl : Bytes) (s : State) : DiesOnly s (Machine.internalGen die k n addl s).2 := by
  have seeded : DiesOnly s (if (getInt s die k).due then
      (match Machine.takeSeed die s with
        | some r => Machine.setInt die k ((getInt s die k).reseed r.1) r.2
        | none => s)
    else s) := by
    split
    · cases taken : Machine.takeSeed die s with
      | none => exact rfl
      | some r => exact (takeSeed taken).trans (modDie ..)
    · exact rfl
  exact seeded.trans ⟨_, Eq.refl _⟩

theorem blindBases (n : Nat) (s : State) : DiesOnly s (Machine.blindBases n s).2 := by
  induction n generalizing s with
  | zero => exact rfl
  | succ n ih => exact (internalGen ..).trans (ih _)

theorem generateMat (s : State) (k : KeySlot) : DiesOnly s (Machine.generateMat s k).2 := by
  unfold Machine.generateMat
  dsimp only
  split
  · exact internalGen ..
  · exact internalGen ..

theorem importMat (s : State) (k : KeySlot) (h : Nat) (src : Bytes) : DiesOnly s (Machine.importMat s k h src).2 := by
  unfold Machine.importMat
  dsimp only
  generalize (if k.wide ∧ k.alg = 6 then 64 else 0) = n
  split
  · exact rfl
  · split
    · exact (blindBases ..).trans (blindBases ..)
    · exact (blindBases ..).trans (blindBases ..)

theorem createdKey (s : State) (j : Job) : DiesOnly s (Machine.createdKey s j).2 := by
  unfold Machine.createdKey
  dsimp only
  split
  · exact rfl
  split
  · exact generateMat ..
  split
  · split
    · exact rfl
    · exact importMat ..
  split
  · split
    · exact rfl
    · split
      · exact rfl
      · exact internalGen ..
  · exact rfl

theorem rotatedKey (s : State) (j : Job) : DiesOnly s (Machine.rotatedKey s j).2 := by
  unfold Machine.rotatedKey
  dsimp only
  split
  · exact rfl
  split
  · exact generateMat ..
  split
  · exact rfl
  · exact importMat ..

theorem drbgNew (die : Nat) (seed pers : Bytes) (s : State) : DiesOnly s (Machine.drbgNew die seed pers s).2 := ⟨_, Eq.refl _⟩

theorem seedDraws (fuel die : Nat) (s : State) : DiesOnly s (Machine.seedDraws fuel die s) := by
  induction fuel generalizing s with
  | zero => exact rfl
  | succ fuel ih =>
    unfold Machine.seedDraws
    split
    · exact rfl
    · split
      · exact rfl
      · split
        · exact rfl
        · next taken => exact (takeSeed taken).trans ((drbgNew ..).trans ((modDie ..).trans (ih _)))

theorem assignDrbgs (t n : Nat) (s : State) : DiesOnly s (Machine.assignDrbgs t n s) := by
  induction n generalizing s with
  | zero => exact rfl
  | succ n ih =>
    unfold Machine.assignDrbgs
    split
    · exact rfl
    · split
      · exact (modDie ..).trans ((seedDraws ..).trans (ih _))
      · exact rfl

end DiesOnly

end Sys2Proof.Proofs
end

section
/-! PROOFS. The key store (R291 to R308, R316, R318): the making of a key, what a fenced key command waits for, destruction and wrapping.
From these O24 to O27. -/

namespace Sys2Proof.Proofs
open Sys2Proof Sys2Proof.Machine Sys2Proof.Safety Sys2Proof.Laws

/-! ## A command at its operation, without a source or with it held -/

/-- A command whose operation begins in the state a: at its admission, or with its source held. -/
def Begins (op : Nat) (x : Sub) (s a : State) : Prop :=
  (Accepted op x s ∧ a = admission0 op x s) ∨ (AcceptedSrc op x s ∧ a = sourceHeld op x s)

section Beginnings

variable {op : Nat} {x : Sub} {s a v : State} {o : Host.Outcome State Fault Refusal}

theorem begins_cases {P : State → Prop} (begins : Begins op x s a) (plain : Accepted op x s → P (admission0 op x s))
    (sourced : AcceptedSrc op x s → P (sourceHeld op x s)) : P a :=
  begins.elim (fun h => h.2 ▸ plain h.1) (fun h => h.2 ▸ sourced h.1)

theorem begins_job (begins : Begins op x s a) : mget a.jobs (jobOf x s) = some (getJob a (jobOf x s)) :=
  begins_cases (P := fun a => mget a.jobs (jobOf x s) = some (getJob a (jobOf x s))) begins
    (fun _ => (admission0_job op x s).1) (fun _ => sourceHeld_there op x s)

theorem begins_d (begins : Begins op x s a) : (getJob a (jobOf x s)).d = x.d.withOp op :=
  begins_cases (P := fun a => (getJob a (jobOf x s)).d = x.d.withOp op) begins
    (fun _ => admittedJobOf_d op x s) (fun _ => (sourceHeld_same op x s).1)

theorem begins_f (begins : Begins op x s a) {i n : Nat} (low : 1 ≤ i) (high : i + n ≤ 64) : (getJob a (jobOf x s)).d.f i n = x.d.f i n := by
  rw [begins_d begins]
  exact f_withOp x.d op i n low high

theorem begins_op (begins : Begins op x s a) (small : op < 256) : (getJob a (jobOf x s)).d.op = op := by
  rw [begins_d begins, op_withOp, Nat.mod_eq_of_lt small]

theorem begins_fresh (begins : Begins op x s a) : stale a (getJob a (jobOf x s)) = false :=
  begins_cases (P := fun a => stale a (getJob a (jobOf x s)) = false) begins
    (fun _ => admission0_fresh op x s) (fun _ => sourceHeld_fresh op x s)

theorem next_of_begun_finish {st info : Nat} {result out : Bytes} (begins : Begins op x s a) (row : o = .next (runOp op x s)) (small : op < 256)
    (go : (semOf op).go (jobOf x s) a = finishJob (jobOf x s) st info result out v) :
    o = .next (ended x s (finishJob (jobOf x s) st info result out v)) :=
  begins_cases (P := fun a => (semOf op).go (jobOf x s) a = finishJob (jobOf x s) st info result out v →
      o = .next (ended x s (finishJob (jobOf x s) st info result out v))) begins
    (fun accepted go => next_of_finish row small accepted go) (fun accepted go => next_of_sourced_finish row small accepted go) go

/-- A job that waits is at no engine. -/
theorem phase_of_rest {j : Job} {p : Phase} (phase : j.phase = p) (rest : p = .fence ∨ p = .done ∨ ∃ n, p = .wait n) : j.phase ≠ .engine := by
  rcases rest with h | h | ⟨n, h⟩ <;> simp [phase, h]

theorem next_of_begun_waiting {p : Phase} (begins : Begins op x s a) (row : o = .next (runOp op x s)) (small : op < 256)
    (go : (semOf op).go (jobOf x s) a = v) (waits : ∃ j, mget v.jobs (jobOf x s) = some j ∧ j.phase = p)
    (rest : p = .fence ∨ p = .done ∨ ∃ n, p = .wait n) : o = .next (ended x s v) :=
  begins_cases (P := fun a => (semOf op).go (jobOf x s) a = v → o = .next (ended x s v)) begins
    (fun accepted go => next_of_waiting row small accepted go waits rest)
    (fun accepted go => waits.elim fun _ there => next_of_sourced_waiting row small accepted go there.1 (phase_of_rest there.2 rest)) go

end Beginnings

/-! ## What an operation on the dies leaves unchanged -/

section Unchanged

variable {s v : State} {id : Nat}

theorem SameJobs.job (same : SameJobs s v) : getJob v id = getJob s id := by simp only [getJob, same.1]

theorem SameJobs.fresh {j : Job} (same : SameJobs s v) (fresh : stale s j = false) : stale v j = false := by
  simp only [stale, (same.2.2.2 j.fn).2] at fresh ⊢
  exact fresh

end Unchanged

/-! ## The attributes of a made key (R295, R303) -/

/-- Two slots with the same attributes: they differ in their material only. -/
def SameAttributes (k m : KeySlot) : Prop := ∃ mat pub len span, m = { k with mat := mat, pub := pub, rsaLen := len, span := span }

theorem withMaterial_attributes (k : KeySlot) (curve m : Bytes) : SameAttributes k (withMaterial k curve m) := ⟨_, _, _, _, rfl⟩

theorem generateMat_attributes (s : State) (k : KeySlot) : SameAttributes k (generateMat s k).1 := by
  unfold generateMat
  dsimp only
  split
  · exact withMaterial_attributes ..
  · exact withMaterial_attributes ..

theorem importPub_attributes {s : State} {k m : KeySlot} {src : Bytes} (made : importPub s k src = .ok m) : SameAttributes k m := by
  unfold importPub at made
  split at made
  · cases made
  · cases made
    exact ⟨_, _, _, _, rfl⟩

theorem importMat_attributes {s : State} {k m : KeySlot} {h : Nat} {src : Bytes} (made : (importMat s k h src).1 = .ok m) :
    SameAttributes k m := by
  unfold importMat at made
  dsimp only at made
  generalize (if k.wide ∧ k.alg = 6 then 64 else 0) = n at made
  split at made
  · cases made
  · split at made
    · cases made
      exact withMaterial_attributes ..
    · cases made

/-- A creation fills in the material of the slot that its command describes. -/
theorem createdKey_attributes {s : State} {j : Job} {k : KeySlot} (made : (createdKey s j).1 = .ok k) : SameAttributes (newSlot j) k := by
  unfold createdKey at made
  dsimp only at made
  split at made
  · cases made
    exact withMaterial_attributes ..
  split at made
  · cases made
    exact generateMat_attributes ..
  split at made
  · split at made
    · exact importPub_attributes made
    · exact importMat_attributes made
  split at made
  · split at made
    · cases made
    · split at made
      · cases made
      · cases made
        exact withMaterial_attributes ..
  · cases made
    exact withMaterial_attributes ..

theorem newSlot_exportable (j : Job) : (newSlot j).flags.testBit 0 = (j.d.f 52 1).testBit 0 := by
  have bits : ∀ b c : Bool, (bit b 0 + bit c 1).testBit 0 = b := by decide
  exact bits _ _

/-- Settles O25: the material that a creation fills in leaves the attributes of the described slot. -/
theorem createdKeyAttributes : Obligations.CreatedKeyAttributes := by
  unfold Obligations.CreatedKeyAttributes
  intro s b j k made
  have exportable := newSlot_exportable j
  obtain ⟨mat, pub, len, span, rfl⟩ := createdKey_attributes (congrArg Prod.fst made)
  refine ⟨rfl, rfl, rfl, rfl, rfl, rfl, rfl, exportable, ?_⟩
  refine ⟨fun op => ?_, fun op => ?_, fun op => ?_, fun op => ?_, fun op => ?_⟩
  all_goals simp [newSlot, op]

/-! ## A key command whose checks have passed (R302, R305) -/

section Commits

variable {id : Nat} {s : State} {j : Job} {n : Nat} {k : KeySlot}

/-- The fence schedule has room for the target of the command, which is not too early. -/
def TargetFits (d : Desc) (s : State) : Prop :=
  (d.targetField = 0 ∨ s.time.epoch + 2 ≤ d.targetField) ∧ fenceFull s (targetOf d.targetField s.time.epoch) = false

@[simp] theorem fenceFull_modJob (id tgt : Nat) (f : Job → Job) (s : State) : fenceFull (modJob id f s) tgt = fenceFull s tgt := by simp [fenceFull]

@[simp] theorem stale_modJob (id : Nat) (f : Job → Job) (s : State) (j : Job) : stale (modJob id f s) j = stale s j := by simp [stale, getFn]

@[simp] theorem imageless_modJob (id : Nat) (f : Job → Job) (s : State) : imageless (modJob id f s) = imageless s := by simp [imageless]

theorem keyCommit_of_image (image : imageless s = false) : keyCommit id s = modJob id (fun y => { y with phase := .wait 20, waitT := s.time.now }) s := by
  simp only [keyCommit, image, Bool.false_eq_true, if_false]
  rfl

/-- The change of a command that puts a key into its slot. -/
theorem keyAccept_of_slot (there : mget s.jobs id = some j) (fresh : stale s j = false) (slot : j.slot = some (n, k))
    (plain : j.d.op ≠ 0x85 ∧ j.d.op ≠ 0x8A ∧ j.d.op ≠ 0x96) (fits : TargetFits j.d s) (order : k.first ≤ k.last)
    (lasts : targetOf j.d.targetField s.time.epoch ≤ k.last) : keyAccept id s =
      fencedFor id (targetOf j.d.targetField s.time.epoch) [.key n k j.d.targetField]
        (modJob id (fun y => { y with data := if j.d.op = 0x84 then [] else attrRecord n k 2 0 }) s) := by
  obtain ⟨destroy, retire, authority⟩ := plain
  obtain ⟨late, room⟩ := fits
  have range : rangeBad k (targetOf j.d.targetField s.time.epoch) = false := by simp [rangeBad, order, lasts]
  have notLate : ¬ (j.d.targetField ≠ 0 ∧ j.d.targetField < s.time.epoch + 2) := by omega
  have change : keyChange j = [.key n k j.d.targetField] := by simp [keyChange, retire, authority, slot]
  have changed := modJob_job id (fun y => { y with data := if j.d.op = 0x84 then [] else attrRecord n k 2 0 }) s j there
  have accepts : keyAccept id s = acceptFenced id (targetOf j.d.targetField s.time.epoch) (keyChange j)
      (modJob id (fun y => { y with data := if j.d.op = 0x84 then [] else attrRecord n k 2 0 }) s) := by
    simp [keyAccept, getJob_of there, slot, range, notLate, destroy]
  rw [accepts, change]
  refine acceptFenced_room _ _ _ _ ?_ (by simpa using room)
  rw [getJob_of changed, stale_modJob]
  exact fresh

/-- A command that puts no key into a slot schedules its change. -/
theorem keyAccept_of_no_slot (there : mget s.jobs id = some j) (fresh : stale s j = false) (slot : j.slot = none) (fits : TargetFits j.d s) :
    keyAccept id s = fencedFor id (targetOf j.d.targetField s.time.epoch)
      (if j.d.op = 0x85 then (destroySlots s j).map fun n => .key n (clearedSlot (slotOf (crownBank s) n)) j.d.targetField else keyChange j) s := by
  obtain ⟨late, room⟩ := fits
  have notLate : ¬ (j.d.targetField ≠ 0 ∧ j.d.targetField < s.time.epoch + 2) := by omega
  have accepts : keyAccept id s = acceptFenced id (targetOf j.d.targetField s.time.epoch)
      (if j.d.op = 0x85 then (destroySlots s j).map fun n => .key n (clearedSlot (slotOf (crownBank s) n)) j.d.targetField else keyChange j) s := by
    simp only [keyAccept, getJob_of there, slot, Option.any_none, Bool.false_eq_true, notLate, if_false]
    split <;> rfl
  rw [accepts]
  exact acceptFenced_room _ _ _ _ (by rw [getJob_of there]; exact fresh) room

end Commits

/-! ## Creation (R303 to R305) -/

section Creations

variable {id : Nat} {s b : State} {j : Job}

/-- The five creation commands. -/
abbrev creations : List (Nat × (Sub → Instr)) :=
  [(0x80, .keyDerive), (0x81, .keyGenerate), (0x89, .keyComponent), (0x82, .keyImport), (0x88, .keyAgree)]

theorem creations_op {r : Nat × (Sub → Instr)} (created : r ∈ creations) :
    r.1 < 256 ∧ r.1 ≠ 0x84 ∧ r.1 ≠ 0x85 ∧ r.1 ≠ 0x8A ∧ r.1 ≠ 0x96 := by
  simp only [creations, List.mem_cons, List.not_mem_nil, or_false] at created
  rcases created with rfl | rfl | rfl | rfl | rfl <;> decide

theorem creations_row {r : Nat × (Sub → Instr)} (created : r ∈ creations) (x : Sub) (s : State) : exec (r.2 x) s = .next (runOp r.1 x s) := by
  simp only [creations, List.mem_cons, List.not_mem_nil, or_false] at created
  rcases created with rfl | rfl | rfl | rfl | rfl <;> rfl

theorem creations_go {r : Nat × (Sub → Instr)} (created : r ∈ creations) (id : Nat) (s : State) : (semOf r.1).go id s = createKeyGo id s := by
  simp only [creations, List.mem_cons, List.not_mem_nil, or_false] at created
  rcases created with rfl | rfl | rfl | rfl | rfl <;> rfl

/-- The internal DRBG that a creation draws on cannot serve it. -/
def RngShort (s : State) (need : Option Nat) : Prop := ∃ n, need = some n ∧ internalShort s 0 n = true

theorem withRng_of_short {need : Option Nat} {f : State → State} (short : RngShort s need) : withRng need id f s = awaitEntropy id s := by
  obtain ⟨n, rfl, lacks⟩ := short
  simp [withRng, withInternal, lacks]

theorem withRng_of_served {need : Option Nat} {f : State → State} (served : ¬ RngShort s need) : withRng need id f s = f s := by
  cases need with
  | none => rfl
  | some n =>
    have lacks : ¬ internalShort s 0 n = true := fun h => served ⟨n, rfl, h⟩
    simp [withRng, withInternal, lacks]

theorem createKeyGo_of_short (job : getJob s id = j) (len : firstFail (createKeyLen s j j.src.length) = none) (short : RngShort s (createKeyRng j)) :
    createKeyGo id s = awaitEntropy id s := by
  subst job
  simp only [createKeyGo, len]
  exact withRng_of_short short

theorem createKeyGo_of_served (job : getJob s id = j) (len : firstFail (createKeyLen s j j.src.length) = none) (served : ¬ RngShort s (createKeyRng j))
    (small : ¬ (j.d.op = 0x81 ∧ 0x10 ≤ j.d.f 32 1 ∧ j.d.f 33 1 = 6)) : createKeyGo id s = createKeyNow id s := by
  subst job
  simp only [createKeyGo, len, if_neg small]
  exact withRng_of_served served

theorem createKeyNow_of_error {f : Fail} (made : createdKey s (getJob s id) = (.error f, b)) : createKeyNow id s = failJob id f b := by
  simp only [createKeyNow, made]

theorem createKeyNow_of_no_slot {f : Fail} {k : KeySlot} (made : createdKey s (getJob s id) = (.ok k, b)) (full : allocate b k = .error f) :
    createKeyNow id s = failJob id f b := by
  simp only [createKeyNow, made, full]

theorem createKeyNow_of_slot {n : Nat} {k m : KeySlot} (made : createdKey s (getJob s id) = (.ok k, b)) (found : allocate b k = .ok (n, m)) :
    createKeyNow id s = keyCommit id (modJob id (fun y => { y with slot := some (n, m) }) b) := by
  simp only [createKeyNow, made, found]

end Creations

/-- Settles O24: a creation goes through its DRBG, the making of the key and its slot to the schedule or the image write. -/
theorem createdKeyIsScheduled : Obligations.CreatedKeyIsScheduled := by
  unfold Obligations.CreatedKeyIsScheduled
  intro x s a b r id T short created small begins len
  have begins : Begins r.1 x s a := begins
  obtain ⟨byteOp, notRotate, notDestroy, notRetire, notAuthority⟩ := creations_op created
  have row := creations_row created x s
  have go := creations_go created id a
  have op : (getJob a id).d.op = r.1 := begins_op begins byteOp
  have there := begins_job begins
  have small : ¬ ((getJob a id).d.op = 0x81 ∧ 0x10 ≤ (getJob a id).d.f 32 1 ∧ (getJob a id).d.f 33 1 = 6) := by
    rw [op, begins_f begins (by decide) (by decide), begins_f begins (by decide) (by decide)]
    exact small
  have served (enough : ¬ short) : (semOf r.1).go id a = createKeyNow id a := go.trans (createKeyGo_of_served rfl len enough small)
  refine ⟨fun lacks => ?_, fun f enough made => ?_, fun f k enough made full => ?_, fun n k m enough made found late order lasts room => ?_⟩
  · refine next_of_begun_waiting begins row byteOp (go.trans (createKeyGo_of_short rfl len lacks)) ⟨_, modJob_job _ _ _ _ there, rfl⟩
      (.inr (.inr ⟨10, rfl⟩))
  · exact next_of_begun_finish begins row byteOp ((served enough).trans (createKeyNow_of_error made))
  · exact next_of_begun_finish begins row byteOp ((served enough).trans (createKeyNow_of_no_slot made full))
  · have same : SameJobs a b := by
      have same := DiesOnly.createdKey a (getJob a id)
      rw [made] at same
      exact DiesOnly.sameJobs same
    have thereB : mget b.jobs id = some (getJob a id) := by rw [same.1]; exact there
    have slotted := modJob_job id (fun y => { y with slot := some (n, m) }) b _ thereB
    have target : (getJob a id).d.targetField = x.d.targetField := begins_f begins (by decide) (by decide)
    have now := (served enough).trans (createKeyNow_of_slot made found)
    cases image : imageless b with
    | false =>
      rw [keyCommit_of_image (by simpa using image), modJob_modJob, modJob_time] at now
      exact next_of_begun_waiting begins row byteOp now ⟨_, modJob_job _ _ _ _ thereB, rfl⟩ (.inr (.inr ⟨20, rfl⟩))
    | true =>
      have fits : TargetFits (getJob a id).d (modJob id (fun y => { y with slot := some (n, m) }) b) := by
        rw [TargetFits, target, modJob_time, fenceFull_modJob]
        exact ⟨late, room⟩
      have fresh : stale (modJob id (fun y => { y with slot := some (n, m) }) b) (getJob a id) = false := by
        rw [stale_modJob]
        exact SameJobs.fresh same (begins_fresh begins)
      have accept := keyAccept_of_slot slotted fresh rfl (by simp only [op]; exact ⟨notDestroy, notRetire, notAuthority⟩)
        fits order (by rw [target, modJob_time]; exact lasts)
      rw [keyCommit, imageless_modJob, if_pos image, accept, modJob_modJob, modJob_time, target, op, if_neg notRotate] at now
      exact next_of_begun_waiting begins row byteOp now ⟨_, fencedFor_job _ _ _ _ _ (modJob_job _ _ _ _ thereB), rfl⟩ (.inl rfl)

/-! ## Rotation, destruction, retirement and the authority keys (R306, R307, R316, R318) -/

/-- A job has no slot before its operation. -/
theorem admittedJobOf_slot (op : Nat) (x : Sub) (s : State) : (admittedJobOf op x s).slot = none := by
  obtain ⟨b, n, raw⟩ := admission0_raw op x s
  have job : admittedJobOf op x s = _ := getJob_of raw
  have taken := getJob_of (takenState_job op x s)
  rw [taken] at job
  generalize takenState op x s = v at job
  generalize turnState op x s = u at job
  rw [job]
  rfl

theorem begins_slot {op : Nat} {x : Sub} {s a : State} (begins : Begins op x s a) : (getJob a (jobOf x s)).slot = none :=
  begins_cases (P := fun a => (getJob a (jobOf x s)).slot = none) begins (fun _ => admittedJobOf_slot op x s) fun _ => by
    obtain ⟨stamp, held⟩ := sourceHeld_job op x s
    have slot := admittedJobOf_slot op x s
    generalize admittedJobOf op x s = j at held slot
    rw [getJob_of held]
    exact slot

section Commits

variable {op : Nat} {x : Sub} {s a : State} {o : Host.Outcome State Fault Refusal}

/-- A key command without a slot of its own whose checks have passed: it schedules its change, or waits for the image write. -/
theorem next_of_keyCommit (begins : Begins op x s a) (row : o = .next (runOp op x s)) (small : op < 256)
    (go : (semOf op).go (jobOf x s) a = keyCommit (jobOf x s) a) {cs : List Change} (fits : TargetFits x.d a)
    (change : (if op = 0x85 then (destroySlots a (getJob a (jobOf x s))).map
      fun n => .key n (clearedSlot (slotOf (crownBank a) n)) x.d.targetField else keyChange (getJob a (jobOf x s))) = cs) :
    o = .next (ended x s (if imageless a then fencedFor (jobOf x s) (targetOf x.d.targetField a.time.epoch) cs a
      else modJob (jobOf x s) (fun y => { y with phase := .wait 20, waitT := a.time.now }) a)) := by
  have target : (getJob a (jobOf x s)).d.targetField = x.d.targetField := begins_f begins (by decide) (by decide)
  have there := begins_job begins
  cases image : imageless a with
  | false =>
    refine next_of_begun_waiting begins row small (go.trans (keyCommit_of_image image)) ⟨_, modJob_job _ _ _ _ there, rfl⟩ (.inr (.inr ⟨20, rfl⟩))
  | true =>
    have accept := keyAccept_of_no_slot there (begins_fresh begins) (begins_slot begins) (by rw [TargetFits, target]; exact fits)
    rw [target, begins_op begins small, change] at accept
    rw [keyCommit, if_pos image, accept] at go
    exact next_of_begun_waiting begins row small go ⟨_, fencedFor_job _ _ _ _ _ there, rfl⟩ (.inl rfl)

end Commits

section Rotations

variable {id : Nat} {s b : State} {j : Job}

/-- The new public key of a rotation has a length of its algorithm. -/
def RotateLen (s : State) (old : KeySlot) (n : Nat) : Prop :=
  old.flags.testBit 1 = true → if old.alg = 6 then 260 ≤ n ∧ rsaSize (8 * (n - 4)) = true else n = pubLen old.alg 0 (blockOf s old.tenant old.alg)

theorem rotateLen_good {old : KeySlot} {n : Nat} (len : RotateLen s old n) :
    (old.flags.testBit 1 && (if old.alg = 6 then !(decide (n ≥ 260) && rsaSize (8 * (n - 4)))
      else decide (n ≠ pubLen old.alg 0 (blockOf s old.tenant old.alg)))) = false := by
  cases imported : old.flags.testBit 1 with
  | false => rfl
  | true =>
    have fine := len imported
    split at fine
    next rsa => simp [rsa, fine]
    next other => simp [other, fine]

theorem rotateGo_of_served (job : getJob s id = j) (len : RotateLen s (slotOf (crownBank s) j.d.handle) j.src.length)
    (served : ¬ RngShort s (rotateRng (slotOf (crownBank s) j.d.handle)))
    (small : ¬ ((slotOf (crownBank s) j.d.handle).origin = 2 ∧ (slotOf (crownBank s) j.d.handle).wide ∧ (slotOf (crownBank s) j.d.handle).alg = 6)) :
    rotateGo id s = rotateNow id s := by
  subst job
  simp only [rotateGo, rotateLen_good len, Bool.false_eq_true, if_false, if_neg small]
  exact withRng_of_served served

theorem replaceWide_of_same {s : State} {old k : KeySlot} (same : k.wide = false ∨ k.span = old.span) : replaceWide s old k = .ok k := by
  simp [replaceWide, same]

theorem rotateNow_of_slot {k m : KeySlot} (made : rotatedKey s (getJob s id) = (.ok k, b))
    (found : replaceWide b (slotOf (crownBank s) (getJob s id).d.handle) k = .ok m) :
    rotateNow id s = keyCommit id (modJob id (fun y => { y with slot := some ((getJob s id).d.handle % 65536, m) }) b) := by
  simp only [rotateNow, made, found]

/-- A KEY_DESTROY that is not urgent is scheduled as every key command. -/
theorem keyDestroy_of_scheduled (calm : urgent (getJob s id).d = false) : (semOf 0x85).go id s = keyCommit id s := by
  change keyDestroyNow id s = _
  simp [keyDestroyNow, destroyKeyGo, calm]

theorem keyChange_of_retire (op : j.d.op = 0x8A) : keyChange j = [.retire (j.d.f 32 2) j.d.targetField] := by simp [keyChange, op]

theorem keyChange_of_authority (op : j.d.op = 0x96) :
    keyChange j = [.authority (j.d.f 32 1 = 0) (slice j.d.bytes 40 8) j.src j.d.targetField] := by simp [keyChange, op]

theorem retire_go (id : Nat) (s : State) : (semOf 0x8A).go id s = keyCommit id s := rfl

theorem authority_go (checks : firstFail (authorityFails s (getJob s id)) = none) : (semOf 0x96).go id s = keyCommit id s := by
  change authorityGo id s = _
  simp only [authorityGo, checks]

end Rotations

/-- Settles O26: each command goes through its checks to the schedule or the image write, and leaves everything else as it was. -/
theorem keyStoreChangesAreScheduled : Obligations.KeyStoreChangesAreScheduled := by
  unfold Obligations.KeyStoreChangesAreScheduled
  intro x s id T fit waits starts
  refine ⟨?_, ?_, ?_, ?_⟩
  case refine_1 =>
    intro a k b begins old n len served small made wide order lasts fits
    have begins : Begins 0x84 x s a := begins
    have handle : (getJob a id).d.handle = x.d.handle := begins_f begins (by decide) (by decide)
    have target : (getJob a id).d.targetField = x.d.targetField := begins_f begins (by decide) (by decide)
    have op : (getJob a id).d.op = 0x84 := begins_op begins (by decide)
    have enough : ¬ RngShort a (rotateRng old) := by
      rintro ⟨g, needs, lacks⟩
      rw [served g needs] at lacks
      cases lacks
    have same : SameJobs a b := by
      have same := DiesOnly.rotatedKey a (getJob a id)
      rw [made] at same
      exact DiesOnly.sameJobs same
    have there : mget b.jobs id = some (getJob a id) := by rw [same.1]; exact begins_job begins
    have now : (semOf 0x84).go id a = keyCommit id (modJob id (fun y => { y with slot := some (x.d.handle % 65536, k) }) b) := by
      have found := rotateNow_of_slot made (replaceWide_of_same (s := b) (by rw [handle]; exact wide))
      rw [handle] at found
      exact (rotateGo_of_served rfl (by rw [handle]; exact len) (by rw [handle]; exact enough) (by rw [handle]; exact small)).trans found
    cases image : imageless b with
    | false =>
      rw [keyCommit_of_image (by simpa using image), modJob_modJob, modJob_time] at now
      exact next_of_begun_waiting begins rfl (by decide) now ⟨_, modJob_job _ _ _ _ there, rfl⟩ (.inr (.inr ⟨20, rfl⟩))
    | true =>
      have slotted := modJob_job id (fun y => { y with slot := some (x.d.handle % 65536, k) }) b _ there
      have room : TargetFits (getJob a id).d (modJob id (fun y => { y with slot := some (x.d.handle % 65536, k) }) b) := by
        rw [TargetFits, target, modJob_time, fenceFull_modJob]
        exact fits
      have fresh : stale (modJob id (fun y => { y with slot := some (x.d.handle % 65536, k) }) b) (getJob a id) = false := by
        rw [stale_modJob]
        exact SameJobs.fresh same (begins_fresh begins)
      have accept := keyAccept_of_slot slotted fresh rfl (by simp only [op]; decide) room order (by rw [target, modJob_time]; exact lasts)
      rw [keyCommit, imageless_modJob, if_pos image, accept, modJob_modJob, modJob_time, target, op] at now
      exact next_of_begun_waiting begins rfl (by decide) now ⟨_, fencedFor_job _ _ _ _ _ (modJob_job _ _ _ _ there), rfl⟩ (.inl rfl)
  case refine_2 =>
    intro accepted scheduledOne a fits
    have begins : Begins 0x85 x s a := .inl ⟨accepted, rfl⟩
    have calm : urgent (getJob a (jobOf x s)).d = false := by
      simp [urgent, begins_f begins (i := 33) (n := 1) (by decide) (by decide), scheduledOne]
    exact next_of_keyCommit begins rfl (by decide) (keyDestroy_of_scheduled calm) fits (if_pos rfl)
  case refine_3 =>
    intro accepted a fits
    have begins : Begins 0x8A x s a := .inl ⟨accepted, rfl⟩
    refine next_of_keyCommit begins rfl (by decide) (retire_go ..) fits ?_
    rw [if_neg (by decide), keyChange_of_retire (begins_op begins (by decide)), begins_f begins (by decide) (by decide),
      show (getJob a id).d.targetField = x.d.targetField from begins_f begins (by decide) (by decide)]
  case refine_4 =>
    intro a begins checks fits
    have begins : Begins 0x96 x s a := begins
    refine next_of_keyCommit begins rfl (by decide) (authority_go checks) fits ?_
    rw [if_neg (by decide), keyChange_of_authority (begins_op begins (by decide)), begins_f begins (by decide) (by decide),
      show (getJob a id).d.targetField = x.d.targetField from begins_f begins (by decide) (by decide), begins_d begins]

/-! ## Urgent destruction and wrapping (R307, R308) -/

/-- A row has no more to do for a job that its operation leaves waiting, whether or not the job is still there. -/
theorem workJob_modJob_of_rest (id : Nat) (x : Sub) (f : Job → Job) (v : State) {p : Phase} (waits : ∀ y, (f y).phase = p)
    (rest : p = .fence ∨ p = .done ∨ ∃ n, p = .wait n) : workJob id x (modJob id f v) = modJob id f v := by
  cases there : mget v.jobs id with
  | some j => exact workJob_phase _ _ _ _ ⟨_, modJob_job id f v j there, waits j⟩ rest
  | none =>
    have absent : mget (modJob id f v).jobs id = none := by simp [modJob, there]
    apply workJob_quiet <;> simp [absent, getJob]

section Urgent

variable {id : Nat} {s : State} {j : Job}

/-- An urgent KEY_DESTROY of the package raises EMERGENCY_ERASE. -/
theorem keyDestroy_of_package (job : getJob s id = j) (now : j.d.f 33 1 = 1) (scope : j.d.f 32 1 = 2) : (semOf 0x85).go id s =
    okJob id [] [] (internalEvent 0x26 0 0 0 (if tamperQuiet s then loseLk (eraseAll s) else s)) := by
  subst job
  change keyDestroyNow id s = _
  simp [keyDestroyNow, urgent, now, scope]

/-- An urgent KEY_DESTROY of a key or of a tenant clears its slots. -/
theorem keyDestroy_of_urgent (job : getJob s id = j) (now : j.d.f 33 1 = 1) (scope : j.d.f 32 1 ≠ 2) {v : State}
    (cleared : clearSlots (destroySlots s j ++ ((keyChanges s).filter fun c => j.d.f 32 1 = 1 ∧ c.2.2.tenant = j.tenant).map (·.2.1)) id s = v) :
    (semOf 0x85).go id s = if imageless v then okJob id [] [] v else awaitImage 21 id v := by
  subst job
  subst cleared
  change keyDestroyNow id s = _
  simp [keyDestroyNow, destroyKeyGo, urgent, now, scope]

theorem keyExport_go (job : getJob s id = j) : (semOf 0x83).go id s =
    okJob id (leBytes 4 (cdiv (slotOf (crownBank s) j.d.handle).mat.length 8 * 8 + 8) ++ zeros 4)
      (fit (cdiv (slotOf (crownBank s) j.d.handle).mat.length 8 * 8 + 8)
        (Config.kwpWrap (slotOf (crownBank s) (j.d.f 32 4)).mat (slotOf (crownBank s) j.d.handle).mat)) (consume [1] s) := by
  subst job; rfl

end Urgent

/-- Settles O27: the erasure of the package, the clearing of the slots and the wrapped key, each by the equation of its operation. -/
theorem urgentDestructionAndExport : Obligations.UrgentDestructionAndExport := by
  unfold Obligations.UrgentDestructionAndExport
  intro x s
  refine ⟨fun accepted urgent => ?_, fun accepted => ?_⟩
  · intro a j pend v
    have now : (admittedJobOf 0x85 x s).d.f 33 1 = 1 := (admittedJobOf_f 0x85 x s (by decide) (by decide)).trans urgent
    have scope : (admittedJobOf 0x85 x s).d.f 32 1 = x.d.f 32 1 := admittedJobOf_f 0x85 x s (by decide) (by decide)
    have clears (narrow : x.d.f 32 1 ≠ 2) : (semOf 0x85).go (jobOf x s) (admission0 0x85 x s) =
        if imageless v then okJob (jobOf x s) [] [] v else awaitImage 21 (jobOf x s) v := by
      refine keyDestroy_of_urgent (getJob_admission0 ..) now (by rw [scope]; exact narrow) ?_
      rw [scope]
    refine ⟨fun package => ?_, fun narrow blank => ?_, fun narrow imaged => ?_⟩
    · exact next_of_ok rfl (by decide) accepted (keyDestroy_of_package (getJob_admission0 ..) now (scope.trans package))
    · exact next_of_ok rfl (by decide) accepted ((clears narrow).trans (if_pos blank))
    · have go := (clears narrow).trans (if_neg (Bool.eq_false_iff.mp imaged))
      refine (next_of_accepted rfl (by decide) accepted go).trans ?_
      exact congrArg (fun w => Host.Outcome.next (ended x s w)) (workJob_modJob_of_rest _ _ _ _ (fun _ => rfl) (.inr (.inr ⟨21, rfl⟩)))
  · intro a m n
    have go := keyExport_go (getJob_admission0 0x83 x s)
    rw [admittedJobOf_f 0x83 x s (i := 32) (n := 4) (by decide) (by decide), admittedJobOf_handle] at go
    exact next_of_ok rfl (by decide) accepted go

end Sys2Proof.Proofs
end

section
/-! PROOFS. Queues, instances and tenants (R102 to R112, R145, R146): what the commands of the admin rings change. From these O28 to O31. -/

namespace Sys2Proof.Proofs
open Sys2Proof Sys2Proof.Machine Sys2Proof.Safety Sys2Proof.Laws

/-! ## The queue commands (R145, R146) -/

/-- The index block of a completion ring is none of a job. -/
@[simp] theorem indexOut_jobs (fn cq : Nat) (s : State) : (indexOut fn cq s).jobs = s.jobs := by
  unfold indexOut
  split
  · simp
  · rfl

theorem queueOk_of_jobs {id i : Nat} {s v : State} (same : v.jobs = s.jobs) (index : (getJob s id).d.f 32 1 = i) :
    queueOk id v = okJob id (leBytes 2 i) [] v := by
  have job : getJob v id = getJob s id := by simp only [getJob, same]
  rw [queueOk, job, index]

section Queues

variable {id : Nat} {s : State} {j : Job}

theorem ringCreate_go (job : getJob s id = j) (op : j.d.op = 0xC8) : (semOf 0xC8).go id s =
    okJob id (leBytes 2 (j.d.f 32 1)) [] (modQ ⟨j.fn, j.d.f 32 1⟩ (fun _ => {
      st := .disabled, log2 := j.d.f 33 1, base := j.d.f 40 8, cq := j.d.f 34 1, creation := s.nextCreation, burst := j.d.f 35 1, weight := j.d.f 36 1 })
      { s with nextCreation := s.nextCreation + 1 }) := by
  subst job
  refine Eq.trans ?_ (queueOk_of_jobs (s := s) (by simp) rfl)
  change ringCreateGo id s = _
  simp [ringCreateGo, objRing, op]

theorem sqCreate_go (job : getJob s id = j) (op : j.d.op = 0xCC) : (semOf 0xCC).go id s =
    okJob id (leBytes 2 (j.d.f 32 1)) [] (modQ ⟨j.fn, 0x20 + j.d.f 32 1⟩ (fun _ => {
      st := .disabled, log2 := j.d.f 33 1, base := j.d.f 40 8, cq := j.d.f 34 1, creation := s.nextCreation })
      { s with nextCreation := s.nextCreation + 1 }) := by
  subst job
  refine Eq.trans ?_ (queueOk_of_jobs (s := s) (by simp) rfl)
  change ringCreateGo id s = _
  simp [ringCreateGo, objRing, op]

theorem ringDestroy_go (job : getJob s id = j) (op : j.d.op = 0xC9) : (semOf 0xC9).go id s =
    okJob id (leBytes 2 (j.d.f 32 1)) [] (modFn j.fn (fun f => { f with queues := mdel f.queues (j.d.f 32 1) }) s) := by
  subst job
  refine Eq.trans ?_ (queueOk_of_jobs (s := s) (by simp) rfl)
  change ringDestroyGo id s = _
  simp [ringDestroyGo, objRing, op]

theorem sqDestroy_go (job : getJob s id = j) (op : j.d.op = 0xCD) : (semOf 0xCD).go id s =
    okJob id (leBytes 2 (j.d.f 32 1)) [] (modFn j.fn (fun f => { f with queues := mdel f.queues (0x20 + j.d.f 32 1) }) s) := by
  subst job
  refine Eq.trans ?_ (queueOk_of_jobs (s := s) (by simp) rfl)
  change ringDestroyGo id s = _
  simp [ringDestroyGo, objRing, op]

theorem cqCreate_go (job : getJob s id = j) : (semOf 0xCA).go id s =
    okJob id (leBytes 2 (j.d.f 32 1)) [] (indexOut j.fn (j.d.f 32 1) (modCq j.fn (j.d.f 32 1) (fun _ => {
      log2 := j.d.f 33 1, vector := j.d.f 34 1, base := j.d.f 40 8, indexBase := j.d.f 48 8,
      count := j.d.f 35 1, timerUs := j.d.f 36 1 + 256 * j.d.f 37 1 }) s)) := by
  subst job
  exact queueOk_of_jobs (s := s) (by simp) rfl

theorem cqDestroy_go (job : getJob s id = j) : (semOf 0xCB).go id s =
    okJob id (leBytes 2 (j.d.f 32 1)) [] (modFn j.fn (fun f => { f with cqs := mdel f.cqs (j.d.f 32 1) }) s) := by
  subst job
  exact queueOk_of_jobs (s := s) (by simp) rfl

end Queues

theorem admittedJobOf_op {op : Nat} (small : op < 256) (x : Sub) (s : State) : (admittedJobOf op x s).d.op = op := by
  rw [admittedJobOf_d, op_withOp, Nat.mod_eq_of_lt small]

/-- Settles O28: each command makes or removes its object, and its job completes with the object's index. -/
theorem queueCommandsAct : Obligations.QueueCommandsAct := by
  unfold Obligations.QueueCommandsAct
  intro x s i
  have op (n : Nat) (small : n < 256) : (admittedJobOf n x s).d.op = n := admittedJobOf_op small x s
  refine ⟨?_, ?_, fun accepted => ?_, fun accepted => ?_, fun accepted => ?_, fun accepted => ?_⟩
  · intro accepted a
    have go := ringCreate_go (getJob_admission0 0xC8 x s) (op 0xC8 (by decide))
    simp (disch := decide) only [admittedJobOf_f, admittedJobOf_fn] at go
    exact next_of_ok rfl (by decide) accepted go
  · intro accepted a
    have go := sqCreate_go (getJob_admission0 0xCC x s) (op 0xCC (by decide))
    simp (disch := decide) only [admittedJobOf_f, admittedJobOf_fn] at go
    exact next_of_ok rfl (by decide) accepted go
  · have go := ringDestroy_go (getJob_admission0 0xC9 x s) (op 0xC9 (by decide))
    simp (disch := decide) only [admittedJobOf_f, admittedJobOf_fn] at go
    exact next_of_ok rfl (by decide) accepted go
  · have go := sqDestroy_go (getJob_admission0 0xCD x s) (op 0xCD (by decide))
    simp (disch := decide) only [admittedJobOf_f, admittedJobOf_fn] at go
    exact next_of_ok rfl (by decide) accepted go
  · have go := cqCreate_go (getJob_admission0 0xCA x s)
    simp (disch := decide) only [admittedJobOf_f, admittedJobOf_fn] at go
    exact next_of_ok rfl (by decide) accepted go
  · have go := cqDestroy_go (getJob_admission0 0xCB x s)
    simp (disch := decide) only [admittedJobOf_f, admittedJobOf_fn] at go
    exact next_of_ok rfl (by decide) accepted go

/-! ## TENANT_GRANT (R108) -/

/-- The number granted either assigns instances or releases them, and the other of the two does nothing. -/
theorem tenantGrant_go {id : Nat} {s : State} {j : Job} (job : getJob s id = j) :
    let t := j.d.f 32 2
    let g := (getTenant s t).g
    let new (r old : Nat) : Nat := if r = 0 then old else r
    let d := new (j.d.f 46 1) g.drbgs
    let v := modTenant t (fun y => { y with g := {
      narrow := new (j.d.f 40 2) g.narrow, wide := new (j.d.f 42 2) g.wide, close := new (j.d.f 44 2) g.close, drbgs := d } }) s
    (g.drbgs ≤ d → (semOf 0xC6).go id s = okJob id [] [] (assignDrbgs t (d - g.drbgs) v))
    ∧ (d < g.drbgs → (semOf 0xC6).go id s = okJob id [] [] (releaseDrbgs t (g.drbgs - d) v)) := by
  subst job
  intro t g new d v
  have go : (semOf 0xC6).go id s = okJob id [] [] (releaseDrbgs t (g.drbgs - d) (assignDrbgs t (d - g.drbgs) v)) := rfl
  refine ⟨fun more => ?_, fun less => ?_⟩
  · rw [go, Nat.sub_eq_zero_of_le more, releaseDrbgs]
  · rw [go, Nat.sub_eq_zero_of_le (Nat.le_of_lt less), assignDrbgs]

/-- Settles O31, by what the operation does with the job's descriptor. -/
theorem tenantGrantAct : Obligations.TenantGrantAct := by
  unfold Obligations.TenantGrantAct
  intro x s accepted
  have go := tenantGrant_go (getJob_admission0 0xC6 x s)
  simp (disch := decide) only [admittedJobOf_f] at go
  dsimp only
  exact ⟨fun more => next_of_ok rfl (by decide) accepted (go.1 more), fun less => next_of_ok rfl (by decide) accepted (go.2 less)⟩

/-! ## INSTANCE_CREATE (R103 to R105) -/

/-- A message of a function changes its MSI-X state only. -/
theorem getFn_signal_same (fn v : Nat) (s : State) : ∃ x, getFn (signal fn v s) fn = { getFn s fn with msix := x } := by
  unfold signal
  dsimp only
  split
  · exact ⟨_, rfl⟩
  · split
    · exact ⟨_, getFn_modFn_same ..⟩
    · split
      · exact ⟨_, getFn_modFn_same ..⟩
      · exact ⟨_, by simp [getFn]; rfl⟩

theorem getFn_signal_ne {fn m : Nat} (other : m ≠ fn) (v : Nat) (s : State) : getFn (signal fn v s) m = getFn s m := by
  unfold signal
  dsimp only
  split
  · rfl
  · split
    · exact getFn_modFn_ne _ _ _ _ other
    · split
      · exact getFn_modFn_ne _ _ _ _ other
      · simp [getFn]

/-- The index block of a completion ring changes that ring only. -/
theorem getFn_indexOut_same (fn cq : Nat) (s : State) : ∃ x, getFn (indexOut fn cq s) fn = { getFn s fn with cqs := x } := by
  unfold indexOut
  split
  · exact ⟨_, getFn_modFn_same ..⟩
  · exact ⟨_, rfl⟩

theorem getFn_indexOut_ne {fn m : Nat} (other : m ≠ fn) (cq : Nat) (s : State) : getFn (indexOut fn cq s) m = getFn s m := by
  unfold indexOut
  split
  · exact getFn_modFn_ne _ _ _ _ other
  · rfl

section Creation

variable (fn tenant : Nat) (b : Bytes) (s : State)

/-- The tenant of the function that INSTANCE_CREATE makes: its salt and its grants, where it has none. -/
def tenantMade : State :=
  let s0 := if lacksSalt s tenant then modTenant tenant (fun t => { t with salt := some (internalGen 0 0 16 [] s).1 }) (internalGen 0 0 16 [] s).2 else s
  if (getTenant s tenant).granted then s0 else
    assignDrbgs tenant (field b 14 1) (modTenant tenant (fun t => { t with granted := true, retiring := none, g := {
      narrow := field b 8 2, wide := field b 10 2, close := if field b 12 2 = 0 then 64 else field b 12 2, drbgs := field b 14 1 } }) s0)

theorem tenantMade_frame : (tenantMade tenant b s).jobs = s.jobs ∧ (tenantMade tenant b s).fns = s.fns := by
  have salted : (if lacksSalt s tenant then
      modTenant tenant (fun t => { t with salt := some (internalGen 0 0 16 [] s).1 }) (internalGen 0 0 16 [] s).2 else s).jobs = s.jobs
      ∧ (if lacksSalt s tenant then
      modTenant tenant (fun t => { t with salt := some (internalGen 0 0 16 [] s).1 }) (internalGen 0 0 16 [] s).2 else s).fns = s.fns := by
    have gen := DiesOnly.internalGen 0 0 16 [] s
    split
    · exact ⟨by rw [modTenant_jobs, gen.jobs], by rw [modTenant_fns, gen.fns]⟩
    · exact ⟨rfl, rfl⟩
  unfold tenantMade
  dsimp only
  split
  · exact salted
  · exact ⟨by rw [(DiesOnly.assignDrbgs ..).jobs, modTenant_jobs, salted.1], by rw [(DiesOnly.assignDrbgs ..).fns, modTenant_fns, salted.2]⟩

/-- The function as INSTANCE_CREATE makes it. -/
def fnMade (v : State) (old : FnState) : FnState := adminRings (grantsOf b)
  { present := true, tenant := tenant, gen := (old.gen + 1) % 4294967296, ready := true, g := grantsOf b, bme := old.bme, mse := old.mse, d3hot := old.d3hot
    past := old.pastGrants v, reservedOut := old.reservedOut, aerFirst := old.aerFirst
    msix := { enable := old.msix.enable, fnMask := old.msix.fnMask } }

theorem createInstance_eq : ∃ l, createInstance fn tenant b s = indexOut fn 16 (signal fn 0
    { modFn fn (fnMade tenant b (tenantMade tenant b s)) (tenantMade tenant b s) with dies := l }) := ⟨_, rfl⟩

theorem createInstance_fn : ∃ ms cs, getFn (createInstance fn tenant b s) fn =
    { fnMade tenant b (tenantMade tenant b s) (getFn s fn) with msix := ms, cqs := cs } := by
  obtain ⟨l, made⟩ := createInstance_eq fn tenant b s
  have before : getFn { modFn fn (fnMade tenant b (tenantMade tenant b s)) (tenantMade tenant b s) with dies := l } fn =
      fnMade tenant b (tenantMade tenant b s) (getFn s fn) :=
    (getFn_modFn_same _ fn _).trans (congrArg _ (getFn_eq_of_fns (tenantMade_frame tenant b s).2 fn))
  obtain ⟨ms, signalled⟩ := getFn_signal_same fn 0 { modFn fn (fnMade tenant b (tenantMade tenant b s)) (tenantMade tenant b s) with dies := l }
  rw [made]
  obtain ⟨cs, indexed⟩ := getFn_indexOut_same fn 16
    (signal fn 0 { modFn fn (fnMade tenant b (tenantMade tenant b s)) (tenantMade tenant b s) with dies := l })
  exact ⟨ms, cs, by rw [indexed, signalled, before]⟩

theorem createInstance_jobs : (createInstance fn tenant b s).jobs = s.jobs := by
  obtain ⟨l, made⟩ := createInstance_eq fn tenant b s
  rw [made, indexOut_jobs, signal_jobs]
  exact (tenantMade_frame tenant b s).1

theorem createInstance_fn_ne {m : Nat} (other : m ≠ fn) : getFn (createInstance fn tenant b s) m = getFn s m := by
  obtain ⟨l, made⟩ := createInstance_eq fn tenant b s
  rw [made, getFn_indexOut_ne other, getFn_signal_ne other]
  exact (getFn_modFn_ne _ _ _ _ other).trans (getFn_eq_of_fns (tenantMade_frame tenant b s).2 m)

/-- What the new function is, and what its making leaves alone. -/
theorem createInstance_instance : let v := createInstance fn tenant b s
    (getFn v fn).present = true ∧ (getFn v fn).tenant = tenant ∧ (getFn v fn).gen = ((getFn s fn).gen + 1) % 2 ^ 32 ∧ (getFn v fn).ready = true
    ∧ (getFn v fn).g = grantsOf b ∧ (getQ v ⟨fn, 0x40⟩).st = .running ∧ (getQ v ⟨fn, 0x40⟩).head = 0 ∧ (getQ v ⟨fn, 0x40⟩).tail = 0
    ∧ (∀ r, r ≠ 0x40 → (getQ v ⟨fn, r⟩).st = .absent) ∧ v.jobs = s.jobs ∧ (∀ m, m ≠ fn → getFn v m = getFn s m) := by
  obtain ⟨ms, cs, made⟩ := createInstance_fn fn tenant b s
  simp only [getQ, made]
  refine ⟨rfl, rfl, rfl, rfl, rfl, rfl, rfl, rfl, fun r other => ?_, createInstance_jobs .., fun m apart => createInstance_fn_ne _ _ _ _ apart⟩
  simp [FnState.queue, fnMade, adminRings, mget, Ne.symm other]

end Creation

section Creates

variable {id : Nat} {s : State} {j : Job}

theorem create_of_fail {f : Fail} (job : getJob s id = j) (fails : firstFail (createFails s j) = some f) :
    (semOf 0xC0).go id s = finishJob id f.st f.info [] [] s := by
  subst job
  change createGo id s = _
  simp only [createGo, fails, failJob]

theorem create_of_short (job : getJob s id = j) (good : firstFail (createFails s j) = none) (salt : lacksSalt s (j.d.f 34 2) = true)
    (short : internalShort s 0 0 = true) : (semOf 0xC0).go id s = awaitEntropy id s := by
  subst job
  change createGo id s = _
  simp only [createGo, good, salt, if_true]
  exact withRng_of_short ⟨0, rfl, short⟩

theorem create_of_good (job : getJob s id = j) (good : firstFail (createFails s j) = none)
    (served : ¬ (lacksSalt s (j.d.f 34 2) = true ∧ internalShort s 0 0 = true)) : (semOf 0xC0).go id s =
      okJob id (leBytes 2 (j.d.f 32 2) ++ zeros 2 ++ leBytes 4 (getFn (createInstance (j.d.f 32 2) (j.d.f 34 2) j.src s) (j.d.f 32 2)).gen) []
        (createInstance (j.d.f 32 2) (j.d.f 34 2) j.src s) := by
  subst job
  change createGo id s = _
  simp only [createGo, good]
  refine withRng_of_served ?_
  rintro ⟨n, needs, lacks⟩
  split at needs
  next salt =>
    cases needs
    exact served ⟨salt, lacks⟩
  next => cases needs

end Creates

/-- Settles O29: the failing check, the wait for the seed, and the new function with what its making leaves alone. -/
theorem instanceCreateAct : Obligations.InstanceCreateAct := by
  unfold Obligations.InstanceCreateAct
  intro x s accepted h j fn short
  have tenant : j.d.f 34 2 = x.d.f 34 2 := sourceHeld_f 0xC0 x s (by decide) (by decide)
  have function : j.d.f 32 2 = x.d.f 32 2 := sourceHeld_f 0xC0 x s (by decide) (by decide)
  refine ⟨fun f fails => ?_, fun good lacks => ?_, fun good served => ?_⟩
  · exact next_of_sourced_finish rfl (by decide) accepted (create_of_fail rfl fails)
  · refine next_of_sourced_waiting rfl (by decide) accepted (create_of_short rfl good (by rw [tenant]; exact lacks.1) lacks.2)
      (modJob_job _ _ _ _ (sourceHeld_there 0xC0 x s)) ?_
    exact phase_of_rest rfl (.inr (.inr ⟨10, rfl⟩))
  · have go := create_of_good (j := j) rfl good (by rw [tenant]; exact served)
    rw [tenant, function] at go
    exact ⟨_, next_of_sourced_ok rfl (by decide) accepted go, createInstance_instance fn (x.d.f 34 2) j.src h⟩

/-! ## INSTANCE_RESET and INSTANCE_DESTROY (R106, R112) -/

/-- Of the jobs and functions nothing but the pool's reservations differs. -/
def ReservedOnly (s v : State) : Prop := v.jobs = s.jobs ∧ ∀ n, ∃ r, getFn v n = { getFn s n with reservedOut := r }

namespace ReservedOnly

theorem rfl {s : State} : ReservedOnly s s := ⟨Eq.refl _, fun _ => ⟨_, Eq.refl _⟩⟩

theorem trans {s v w : State} (first : ReservedOnly s v) (second : ReservedOnly v w) : ReservedOnly s w := by
  refine ⟨second.1.trans first.1, fun n => ?_⟩
  obtain ⟨r, h⟩ := first.2 n
  obtain ⟨q, g⟩ := second.2 n
  exact ⟨q, by rw [g, h]⟩

theorem foldl {α : Type} {f : State → α → State} (step : ∀ s a, ReservedOnly s (f s a)) (l : List α) (s : State) :
    ReservedOnly s (l.foldl f s) := by
  induction l generalizing s with
  | nil => exact rfl
  | cons a l ih => exact (step s a).trans (ih _)

theorem unreserve (c : Change) (s : State) : ReservedOnly s (Machine.unreserve c s) := by
  cases c
  case shareInst fn o b r =>
    refine ⟨Eq.refl _, fun n => ?_⟩
    by_cases here : n = fn
    · subst here
      exact ⟨_, getFn_modFn_same ..⟩
    · exact ⟨_, getFn_modFn_ne _ _ _ _ here⟩
  all_goals exact rfl

theorem unapplied (c : Nat × Change) (s : State) : ReservedOnly s (Machine.unapplied c s) := by
  unfold Machine.unapplied
  split
  · exact rfl
  · exact unreserve ..

theorem dropChanges (hit : FenceTarget → Nat × Change → Bool) (s : State) : ReservedOnly s (Machine.dropChanges hit s) := by
  obtain ⟨jobs, fns⟩ := foldl (f := fun s f => (f.changes.filter (hit f)).foldl (fun s c => Machine.unapplied c s) s)
    (fun s _ => foldl (fun s c => unapplied c s) _ s) s.fence s
  exact ⟨jobs, fns⟩

end ReservedOnly

theorem dropJob_fns (id : Nat) (s : State) : (dropJob id s).fns = s.fns := by
  unfold dropJob
  split <;> rfl

theorem dropJob_other {id k : Nat} (other : id ≠ k) (s : State) : mget (dropJob k s).jobs id = mget s.jobs id := by
  unfold dropJob
  split
  · rfl
  · exact mget_mdel_ne _ _ _ other

/-- Discarding jobs touches no function and no other job. -/
theorem foldl_dropJob {f : State → Nat → State} (step : ∀ s k, ∃ l, f s k = dropJob k { s with dies := l }) {id : Nat} (l : List Nat) (s : State)
    (spared : id ∉ l) : (l.foldl f s).fns = s.fns ∧ mget (l.foldl f s).jobs id = mget s.jobs id := by
  induction l generalizing s with
  | nil => exact ⟨rfl, rfl⟩
  | cons k l ih =>
    obtain ⟨dies, drops⟩ := step s k
    obtain ⟨fns, job⟩ := ih (f s k) fun h => spared (List.mem_cons_of_mem _ h)
    rw [List.foldl_cons]
    rw [drops] at fns job ⊢
    exact ⟨fns.trans (dropJob_fns ..), job.trans (dropJob_other (fun h => spared (List.mem_cons.mpr (.inl h))) _)⟩

section Resets

variable {fn id : Nat} {s : State}

/-- The reset of a function begins: what it makes of the function, and that the job of another function stays. -/
theorem startReset_fn (other : (getJob s id).fn ≠ fn) : (∃ r, getFn (startReset fn s) fn = { getFn s fn with
      reservedOut := r, resetting := true, ready := false, gen := ((getFn s fn).gen + 1) % 4294967296
      queues := mmap (fun _ q => { q with copies := [], failAt := none, takes := [], owed := none }) (getFn s fn).queues
      cqs := mmap (fun _ c => { c with ready := [], reserved := 0 }) (getFn s fn).cqs })
    ∧ mget (startReset fn s).jobs id = mget s.jobs id := by
  have changes := ReservedOnly.dropChanges (fun _ c => (unstagedOf fn s).contains c.1) s
  have withdrawn := foldl_dropJob (f := fun s j => dropJob j s) (fun _ _ => ⟨_, rfl⟩) (id := id) (unstagedOf fn s)
    (dropChanges (fun _ c => (unstagedOf fn s).contains c.1) s) fun member => by
      have own := (List.mem_filter.mp member).2
      exact other (by simpa using own)
  have job : getJob (withdrawFn fn s) id = getJob s id := by
    have h : mget (withdrawFn fn s).jobs id = mget s.jobs id := withdrawn.2.trans (by rw [changes.1])
    simp only [getJob, h]
  have discarded := foldl_dropJob (f := fun s j => dropJob j (freeInst j s)) (fun _ _ => ⟨_, rfl⟩) (id := id)
    (((withdrawFn fn s).jobs.map (·.1)).filter fun j => resetDrops fn (getJob (withdrawFn fn s) j)) (withdrawFn fn s) fun member => by
      have own := (List.mem_filter.mp member).2
      rw [resetDrops, job] at own
      exact other (by simp only [Bool.and_eq_true, decide_eq_true_eq] at own; exact own.1.1)
  obtain ⟨r, reserved⟩ := changes.2 fn
  have function : getFn ((((withdrawFn fn s).jobs.map (·.1)).filter fun j => resetDrops fn (getJob (withdrawFn fn s) j)).foldl
      (fun s j => dropJob j (freeInst j s)) (withdrawFn fn s)) fn = { getFn s fn with reservedOut := r } :=
    (getFn_eq_of_fns (discarded.1.trans withdrawn.1) fn).trans reserved
  refine ⟨⟨r, ?_⟩, discarded.2.trans (withdrawn.2.trans (by rw [changes.1]))⟩
  refine (getFn_modFn_same _ fn _).trans ?_
  rw [function]

theorem mem_mmap {α : Type} {f : Nat → α → α} {m : KMap α} {p : Nat × α} (member : p ∈ mmap f m) : ∃ q ∈ m, p = (q.1, f q.1 q.2) := by
  induction m with
  | nil => cases member
  | cons q m ih =>
    rcases List.mem_cons.mp member with h | h
    · exact ⟨q, List.mem_cons_self, h⟩
    · obtain ⟨r, inside, eq⟩ := ih h
      exact ⟨r, List.mem_cons_of_mem _ inside, eq⟩

/-- A reset asked for by the job of another function has begun, and the job waits for its end. -/
theorem resetGo_begins {j : Job} (there : mget s.jobs id = some j) (other : j.fn ≠ j.d.f 32 2) (destroy : Bool) :
    let v := resetGo destroy id s
    let fn := j.d.f 32 2
    (getFn v fn).resetting = true ∧ (getFn v fn).ready = false ∧ (getFn v fn).gen = ((getFn s fn).gen + 1) % 2 ^ 32
    ∧ (getFn v fn).waiters = (getFn s fn).waiters ++ [id] ∧ (destroy = true → (getFn v fn).destroying = true)
    ∧ (∀ q ∈ (getFn v fn).queues, q.2.copies = []) ∧ (∀ c ∈ (getFn v fn).cqs, c.2.ready = [] ∧ c.2.reserved = 0)
    ∧ mget v.jobs id = some { j with phase := .wait 1 } := by
  intro v fn
  have job := getJob_of there
  obtain ⟨⟨r, begun⟩, kept⟩ := startReset_fn (fn := fn) (id := id) (s := s) (by rw [job]; exact other)
  have function : getFn v fn = { getFn (startReset fn s) fn with
      waiters := (getFn (startReset fn s) fn).waiters ++ [id], destroying := (getFn (startReset fn s) fn).destroying || destroy } := by
    have made : v = modFn fn (fun f => { f with waiters := f.waiters ++ [id], destroying := f.destroying || destroy })
        (modJob id (fun x => { x with phase := .wait 1 }) (startReset fn s)) := by simp only [v, resetGo, job, fn]
    rw [made, getFn_modFn_same, getFn_eq_of_fns (modJob_fns ..)]
  have waits : mget v.jobs id = some { j with phase := .wait 1 } := by
    have made : v.jobs = (modJob id (fun x => { x with phase := .wait 1 }) (startReset fn s)).jobs := by
      simp only [v, resetGo, job, fn]
      exact modFn_jobs ..
    rw [made]
    exact modJob_job _ _ _ _ (kept.trans there)
  rw [function, begun]
  refine ⟨rfl, rfl, rfl, rfl, fun yes => by simp [yes], fun q member => ?_, fun c member => ?_, waits⟩
  · obtain ⟨p, -, rfl⟩ := mem_mmap member
    rfl
  · obtain ⟨p, -, rfl⟩ := mem_mmap member
    exact ⟨rfl, rfl⟩

end Resets

/-- A command that begins the reset of another function. -/
theorem next_of_reset {op : Nat} {x : Sub} {s : State} {o : Host.Outcome State Fault Refusal} {destroy : Bool} (row : o = .next (runOp op x s))
    (small : op < 256) (accepted : Accepted op x s) (go : ∀ id s, (semOf op).go id s = resetGo destroy id s) (other : x.q.fn ≠ x.d.f 32 2) :
    let a := admission0 op x s
    let fn := x.d.f 32 2
    ∃ v, o = .next (ended x s v) ∧ (getFn v fn).resetting = true ∧ (getFn v fn).ready = false ∧ (getFn v fn).gen = ((getFn a fn).gen + 1) % 2 ^ 32
    ∧ (getFn v fn).waiters = (getFn a fn).waiters ++ [jobOf x s] ∧ (destroy = true → (getFn v fn).destroying = true)
    ∧ (∀ q ∈ (getFn v fn).queues, q.2.copies = []) ∧ (∀ c ∈ (getFn v fn).cqs, c.2.ready = [] ∧ c.2.reserved = 0)
    ∧ (mget v.jobs (jobOf x s)).map (·.phase) = some (.wait 1) := by
  have function : (admittedJobOf op x s).d.f 32 2 = x.d.f 32 2 := admittedJobOf_f op x s (by decide) (by decide)
  have begins := resetGo_begins (admission0_job op x s).1 (by rw [function, admittedJobOf_fn]; exact other) destroy
  rw [function] at begins
  obtain ⟨resetting, ready, gen, waiters, destroying, queues, rings, waits⟩ := begins
  exact ⟨_, next_of_waiting row small accepted (go ..) ⟨_, waits, rfl⟩ (.inr (.inr ⟨1, rfl⟩)), resetting, ready, gen, waiters,
    destroying, queues, rings, by rw [waits]; rfl⟩

/-- Settles O30: both commands begin the reset, and their job, of another function, is left to wait for its end. -/
theorem instanceResetBegins : Obligations.InstanceResetBegins := by
  unfold Obligations.InstanceResetBegins
  intro x s fn r member accepted other a
  simp only [List.mem_cons, List.not_mem_nil, or_false] at member
  rcases member with rfl | rfl
  · obtain ⟨v, next, resetting, ready, gen, waiters, destroying, rest⟩ :=
      next_of_reset (o := exec (.instanceDestroy x) s) (destroy := true) rfl (by decide) accepted (fun _ _ => rfl) other
    exact ⟨v, next, resetting, ready, gen, waiters, fun _ => destroying rfl, rest⟩
  · obtain ⟨v, next, resetting, ready, gen, waiters, destroying, rest⟩ :=
      next_of_reset (o := exec (.instanceReset x) s) (destroy := false) rfl (by decide) accepted (fun _ _ => rfl) other
    exact ⟨v, next, resetting, ready, gen, waiters, fun destroys => absurd destroys (by decide), rest⟩

end Sys2Proof.Proofs
end

section
/-! PROOFS. How a row ends: a job that the row leaves alone, the ends of an operation with several outcomes, and what an accepted
command's own checks have found. -/

namespace Sys2Proof.Proofs
open Sys2Proof Sys2Proof.Machine Sys2Proof.Safety Sys2Proof.Laws

/-! ## Jobs that the row leaves alone -/

/-- A row has nothing more to do for the job: it is gone, finished, or waits for something that no part of the row brings. -/
def Rests (id : Nat) (s : State) : Prop :=
  ∀ j, mget s.jobs id = some j → j.phase ≠ .ring ∧ j.phase ≠ .table ∧ j.phase ≠ .source ∧ j.phase ≠ .engine

section Rest

variable {id : Nat} {s v : State}

theorem rests_of_none (gone : mget s.jobs id = none) : Rests id s := by
  intro j there
  rw [gone] at there
  cases there

theorem rests_of_job {j : Job} (there : mget s.jobs id = some j)
    (rest : j.phase ≠ .ring ∧ j.phase ≠ .table ∧ j.phase ≠ .source ∧ j.phase ≠ .engine) : Rests id s := by
  intro k here
  rw [there] at here
  cases here
  exact rest

/-- Only the jobs matter. -/
theorem rests_of_jobs (same : v.jobs = s.jobs) (rest : Rests id s) : Rests id v := by
  intro j there
  exact rest j (same ▸ there)

theorem rests_finishJob (st info : Nat) (result out : Bytes) : Rests id (finishJob id st info result out s) := by
  rcases finishJob_job id st info result out s with gone | ⟨j, there, done⟩
  · exact rests_of_none gone
  · exact rests_of_job there (by simp [done])

theorem rests_okJob (result out : Bytes) : Rests id (okJob id result out s) := rests_finishJob _ _ _ _

/-- A job that is set to wait rests. -/
theorem rests_modJob {f : Job → Job} {p : Phase} (waits : ∀ y, (f y).phase = p)
    (rest : p ≠ .ring ∧ p ≠ .table ∧ p ≠ .source ∧ p ≠ .engine) : Rests id (modJob id f s) := by
  cases there : mget s.jobs id with
  | none => exact rests_of_none (by simp [modJob, there])
  | some j => exact rests_of_job (modJob_job id f s j there) (by rw [waits]; exact rest)

theorem rests_ite {c : Prop} [Decidable c] {a b : State} (yes : Rests id a) (no : Rests id b) : Rests id (if c then a else b) := by
  split <;> assumption

theorem rests_awaitEntropy : Rests id (awaitEntropy id s) := rests_modJob (p := .wait 10) (fun _ => rfl) (by decide)

theorem workJob_of_rests (rest : Rests id s) (x : Sub) : workJob id x s = s := by
  cases there : mget s.jobs id with
  | none => apply workJob_quiet <;> simp [there, getJob]
  | some j =>
    obtain ⟨ring, table, source, engine⟩ := rest j there
    apply workJob_quiet <;> simp [there, getJob, ring, table, source, engine]

theorem endWork_of_rests (rest : Rests id s) : endWork id s = s := by
  cases there : mget s.jobs id with
  | none => simp [endWork, getJob, there]
  | some j => exact endWork_of_phase there (rest j there).2.2.2

end Rest

/-! ## Ends of an operation -/

section Ends

variable {op : Nat} {x : Sub} {s v : State} {o : Host.Outcome State Fault Refusal}

theorem next_of_rests (row : o = .next (runOp op x s)) (small : op < 256) (accepted : Accepted op x s)
    (go : (semOf op).go (jobOf x s) (admission0 op x s) = v) (rest : Rests (jobOf x s) v) : o = .next (ended x s v) :=
  (next_of_accepted row small accepted go).trans (by rw [workJob_of_rests rest])

theorem next_of_sourced_rests (row : o = .next (runOp op x s)) (small : op < 256) (accepted : AcceptedSrc op x s)
    (go : (semOf op).go (jobOf x s) (sourceHeld op x s) = v) (rest : Rests (jobOf x s) v) : o = .next (ended x s v) :=
  (next_of_sourced row small accepted go).trans (by rw [endWork_of_rests rest])

end Ends

/-! ## The checks of an accepted command -/

theorem firstFail_eq_none {l : List Fail} (none : firstFail l = none) : l = [] := by
  cases l with
  | nil => rfl
  | cons f fs =>
    simp only [firstFail] at none
    split at none
    · cases none
    · split at none <;> cases none

theorem failIf_eq_nil {c : Bool} {st info : Nat} (none : failIf c st info = []) : c = false := by
  cases c with
  | false => rfl
  | true => cases none

section Checks

variable {op : Nat} {x : Sub} {s : State}

theorem own_of_admission {sem : OpSem} {j : Job} (known : opAccepted j.d.op j.ring = true) (passed : admission sem s j = none) : sem.own s j = [] := by
  rw [admission, if_pos known] at passed
  have checks := firstFail_eq_none passed
  simp only [admissionFails, List.append_eq_nil_iff] at checks
  obtain ⟨⟨⟨⟨-, own⟩, -⟩, start⟩, -⟩ := checks
  simpa [ownFails, start] using own

theorem admittedAs_d : (admittedAs op x s).d = x.d.withOp op := by
  rw [admittedAs, getJob_of (takenState_job op x s)]
  rfl

/-- An accepted command has passed its own checks. -/
theorem own_of_accepted (small : op < 256) (accepted : Accepted op x s) : (semOf op).own (admission0 op x s) (admittedAs op x s) = [] := by
  obtain ⟨⟨-, -, known, -⟩, passed, -⟩ := accepted
  have ring : (admittedAs op x s).ring = x.q.ring := by
    rw [admittedAs, getJob_of (takenState_job op x s)]
    rfl
  have own := own_of_admission (by rw [admittedAs_d, ring, op_withOp, Nat.mod_eq_of_lt small]; exact known) passed
  exact (List.append_eq_nil_iff.mp own).1

/-- The job at its operation is the job as it was admitted: its descriptor, function, tenant and generation are the same. -/
theorem admittedAs_same : (admittedAs op x s).d = (admittedJobOf op x s).d ∧ (admittedAs op x s).fn = (admittedJobOf op x s).fn
    ∧ (admittedAs op x s).tenant = (admittedJobOf op x s).tenant := by
  obtain ⟨b, n, raw⟩ := admission0_raw op x s
  have job : admittedJobOf op x s = _ := getJob_of raw
  rw [job, admittedAs]
  generalize admittedJob (takenState op x s) (getJob (takenState op x s) (jobOf x s)) = k
  exact ⟨rfl, rfl, rfl⟩

end Checks

end Sys2Proof.Proofs
end

section
/-! PROOFS. DRAW_QUERY and DRAW_MAP (R251, R252). From these O33. -/

namespace Sys2Proof.Proofs
open Sys2Proof Sys2Proof.Machine Sys2Proof.Safety Sys2Proof.Laws

section Draws

variable {id : Nat} {s : State} {j : Job} {d : Draw}

theorem drawQuery_go (job : getJob s id = j) (named : queryDraw s j = some d) : (semOf 0x98).go id s =
    if Nat.testBit (j.d.f 40 1) 0 = true ∧ d.resolved = false then modJob id (fun y => { y with phase := .wait 15 }) s
    else if j.d.aux < d.outBytes.length then finishJob id stLength 3 [] [] s
    else okJob id ([byte d.shown] ++ zeros 3 ++ leBytes 4 d.outBytes.length) d.outBytes
      (if Nat.testBit (j.d.f 40 1) 1 = true ∧ d.resolved = true then { s with draws := s.draws.filter (·.id ≠ d.id) } else s) := by
  subst job
  change drawQueryGo id s = _
  simp only [drawQueryGo, named, Bool.and_eq_true, Bool.not_eq_true']

theorem queryDraw_of_own (own : (semOf 0x98).own s j = []) : ∃ d, queryDraw s j = some d := by
  have checks : failIf (queryDraw s j).isNone stInput 0xA9 = [] := own
  exact Option.isSome_iff_exists.mp (Option.isNone_eq_false_iff.mp (failIf_eq_nil checks))

theorem queryDraw_congr {k : Job} (d : k.d = j.d) (tenant : k.tenant = j.tenant) : queryDraw s k = queryDraw s j := by
  simp only [queryDraw, d, tenant]

/-- A DRAW_QUERY that its admission accepts names a draw. -/
theorem queryDraw_of_accepted {x : Sub} (accepted : Accepted 0x98 x s) : ∃ d, queryDraw (admission0 0x98 x s) (admittedJobOf 0x98 x s) = some d := by
  have named := queryDraw_of_own (own_of_accepted (by decide) accepted)
  obtain ⟨d, -, tenant⟩ := admittedAs_same (op := 0x98) (x := x) (s := s)
  rw [queryDraw_congr d tenant] at named
  exact named

theorem drawMap_of_none (job : getJob s id = j) (none : mapTarget s j = none) : (semOf 0x99).go id s = finishJob id stInput 0xA9 [] [] s := by
  subst job
  change drawMapGo id s = _
  simp only [drawMapGo, none]

/-- The device's own mapping of the words contradicts the host's. -/
theorem mapDiffers (ex : Prop) [Decidable ex] (mapped : Option Bytes) (host : Bytes) :
    (if ex then mapped.isSome else decide (mapped ≠ some host)) = true ↔ (ex ∧ mapped ≠ none) ∨ (¬ ex ∧ mapped ≠ some host) := by
  by_cases e : ex <;> simp [e, Option.isSome_iff_ne_none]

theorem drawMap_go (job : getJob s id = j) (named : mapTarget s j = some d) :
    let words := j.src.take (8 * d.w)
    let host := j.src.drop (8 * d.w)
    let mapped := (mapDraw d.op (d.n1 + 1) d.count (wordsOf d.w words)).map outcomeBytes
    let ex := j.d.f 40 1 = 1
    let d1 : Draw := if ex then { d with st := 4, void := 5 } else { d with st := 3, outcome := host, outDig := outcomeDigest host }
    (semOf 0x99).go id s =
      if j.srcLen ≠ 8 * d.w + (if ex then 0 else 4 * d.count) then finishJob id stLength 4 [] [] s
      else if wordsDigest d.id words ≠ d.wordsDig then finishJob id stInput 0xAA [] [] s
      else if (ex ∧ mapped ≠ none) ∨ (¬ ex ∧ mapped ≠ some host) then finishJob id stInput 0xA8 [] [] s
      else modJob id (fun y => { y with phase := .sequenced, leaf := some (drawLeaf s (if ex then 0x12 else 0x11) d1), draw := some d1, die := 0 })
        (modDraw d.id (fun _ => d1) s) := by
  subst job
  intro words host mapped ex d1
  change drawMapGo id s = _
  simp only [drawMapGo, named]
  exact if_congr Iff.rfl rfl (if_congr Iff.rfl rfl (if_congr (mapDiffers ..) rfl rfl))

end Draws

/-- Settles O33: an admitted DRAW_QUERY has found its draw; each of the outcomes finishes the job or leaves it waiting. -/
theorem drawQueryAndMapAct : Obligations.DrawQueryAndMapAct := by
  unfold Obligations.DrawQueryAndMapAct
  intro x s id
  refine ⟨?_, ?_⟩
  · intro accepted a
    obtain ⟨d, named⟩ := queryDraw_of_accepted accepted
    refine ⟨d, named, next_of_rests rfl (by decide) accepted ?_ ?_⟩
    · have go := drawQuery_go (getJob_admission0 0x98 x s) named
      rw [admittedJobOf_aux] at go
      simp (disch := decide) only [admittedJobOf_f] at go
      exact go
    · exact rests_ite (rests_modJob (p := .wait 15) (fun _ => rfl) (by decide)) (rests_ite (rests_finishJob _ _ _ _) (rests_okJob _ _))
  · intro accepted h j
    have ex : (getJob (sourceHeld 0x99 x s) (jobOf x s)).d.f 40 1 = x.d.f 40 1 := sourceHeld_f 0x99 x s (by decide) (by decide)
    generalize named : mapTarget h j = m
    cases m with
    | none => exact next_of_sourced_finish rfl (by decide) accepted (drawMap_of_none rfl named)
    | some d =>
      have go := drawMap_go rfl named
      dsimp only at go ⊢
      rw [ex] at go
      exact next_of_sourced_rests rfl (by decide) accepted go (rests_ite (rests_finishJob _ _ _ _) (rests_ite (rests_finishJob _ _ _ _)
        (rests_ite (rests_finishJob _ _ _ _) (rests_modJob (p := .sequenced) (fun _ => rfl) (by decide)))))

end Sys2Proof.Proofs
end

section
/-! PROOFS. EPC_EPOCH_SETUP and the ledger commands (R72, R88, R201, R211, R212, R218). From these O32. -/

namespace Sys2Proof.Proofs
open Sys2Proof Sys2Proof.Machine Sys2Proof.Safety Sys2Proof.Laws

section Commands

variable {id : Nat} {s : State} {j : Job}

/-! ## EPC_EPOCH_SETUP (R72, R88) -/

theorem epochSetup_go (job : getJob s id = j) : (semOf 0x95).go id s =
    if s.lcs ≠ .provision then
      okJob id [] [] { s with ecfg := { k := j.d.f 38 2, origin := j.d.f 32 6, falling := (j.d.f 40 1).testBit 0, fromOtp := false } }
    else if s.life.burn.isSome then modJob id (fun y => { y with phase := .wait 47 }) s
    else if s.otp.marker then finishJob id stLocked 0 [] [] s
    else if otpConflict s j then finishJob id stInput 0xE9 [] [] s
    else startBurn id [.originLow (j.d.f 32 6 % 2 ^ 32), .originHigh (j.d.f 32 6 / 2 ^ 32), .kWord (j.d.f 38 2) ((j.d.f 40 1).testBit 0), .marker] s := by
  subst job; rfl

theorem rests_startBurn (todo : List OtpStep) : Rests id (startBurn id todo s) :=
  rests_of_jobs rfl (rests_modJob (p := .wait 46) (f := fun x => { x with phase := .wait 46 }) (fun _ => rfl) (by decide))

/-! ## LDG_RING_CREATE and LDG_RING_DESTROY (R201) -/

theorem lringCreate_go (job : getJob s id = j) :
    let i := freeIdx (scopeRings s (j.d.f 32 1) j.tenant)
    let r : LRing := { owner := j.fn, scope := j.d.f 32 1, tenant := j.tenant, idx := i, log2 := j.d.f 33 1, vector := j.d.f 34 1
                       opts := j.d.f 35 1, base := j.d.f 40 8, index := j.d.f 48 8 }
    let y := if Nat.testBit (j.d.f 35 1) 2 then (retained s r).foldl (fun (p : LRing × State) rec => deliverOne rec p.1 p.2) (r, s) else (r, s)
    (semOf 0xA0).go id s = okJob id ([byte i] ++ zeros 7) [] { y.2 with lrings := y.2.lrings ++ [y.1] } := by
  subst job; rfl

theorem lringDestroy_go {r : LRing} (job : getJob s id = j) (named : namedRing s j = some r) : (semOf 0xA1).go id s =
    okJob id [] [] { s with lrings := s.lrings.filter fun y => !(y.scope = r.scope ∧ y.tenant = r.tenant ∧ y.idx = r.idx) } := by
  subst job
  change lringDestroyGo id s = _
  simp only [lringDestroyGo, named]

theorem namedRing_of_own (own : (semOf 0xA1).own s j = []) : ∃ r, namedRing s j = some r := by
  have checks : failIf (namedRing s j).isNone stInput 0x51 = [] := own
  exact Option.isSome_iff_exists.mp (Option.isNone_eq_false_iff.mp (failIf_eq_nil checks))

theorem namedRing_congr {k : Job} (d : k.d = j.d) (fn : k.fn = j.fn) (tenant : k.tenant = j.tenant) : namedRing s k = namedRing s j := by
  simp only [namedRing, d, fn, tenant]

/-- A LDG_RING_DESTROY that its admission accepts names a ring. -/
theorem namedRing_of_accepted {x : Sub} (accepted : Accepted 0xA1 x s) : ∃ r, namedRing (admission0 0xA1 x s) (admittedJobOf 0xA1 x s) = some r := by
  have named := namedRing_of_own (own_of_accepted (by decide) accepted)
  obtain ⟨d, fn, tenant⟩ := admittedAs_same (op := 0xA1) (x := x) (s := s)
  rw [namedRing_congr d fn tenant] at named
  exact named

/-! ## LDG_ROOT_SUBMIT (R211) -/

theorem rootSubmit_of_fail {f : Fail} (job : getJob s id = j) (fails : firstFail (rootSubmitOwn s j) = some f) :
    (semOf 0xA5).go id s = finishJob id f.st f.info [] [] s := by
  subst job
  change rootSubmitGo id s = _
  simp only [rootSubmitGo, fails, failJob]

/-- Where the checks find nothing, an epoch of the tenant waits for its host root. -/
theorem awaiting_of_submit (passed : firstFail (rootSubmitOwn s j) = none) : ∃ p, awaiting (getLedger s j.tenant) = some p := by
  have checks := firstFail_eq_none passed
  simp only [rootSubmitOwn, List.append_eq_nil_iff] at checks
  obtain ⟨-, pending⟩ := checks
  cases there : awaiting (getLedger s j.tenant) with
  | none => simp [there] at pending
  | some p => exact ⟨p, rfl⟩

theorem rootSubmit_of_counts {p : PendRoot} (job : getJob s id = j) (passed : firstFail (rootSubmitOwn s j) = none)
    (pending : awaiting (getLedger s j.tenant) = some p) (differ : ((List.range 8).map fun d => field j.src (8 * d) 8) ≠ p.counts) :
    (semOf 0xA5).go id s = finishJob id stInput 0x40 [] [] s := by
  subst job
  change rootSubmitGo id s = _
  simp only [rootSubmitGo, passed, pending, if_pos differ]

theorem rootSubmit_of_unseeded {p : PendRoot} (job : getJob s id = j) (passed : firstFail (rootSubmitOwn s j) = none)
    (pending : awaiting (getLedger s j.tenant) = some p) (agree : ((List.range 8).map fun d => field j.src (8 * d) 8) = p.counts)
    (unseeded : fnSeeded 0 j.fn false s = none) : (semOf 0xA5).go id s = awaitEntropy id s := by
  subst job
  change rootSubmitGo id s = _
  simp only [rootSubmitGo, passed, pending, agree, ne_eq, not_true_eq_false, if_false, unseeded]

theorem rootSubmit_of_seeded {p : PendRoot} {w : State} (job : getJob s id = j) (passed : firstFail (rootSubmitOwn s j) = none)
    (pending : awaiting (getLedger s j.tenant) = some p) (agree : ((List.range 8).map fun d => field j.src (8 * d) 8) = p.counts)
    (seeded : fnSeeded 0 j.fn false s = some w) :
    let seqs := ((readable s).filter fun y => y.tenant = j.tenant ∧ y.epoch = p.epoch).map (·.seq)
    let roots := (List.range 8).map fun d => slice j.src (64 + 48 * d) 48
    let c := pickSome j.fn (cdiv p.counts.sum 64) seqs w
    let chal := sortNat c.1
    (semOf 0xA5).go id s = okJob id (leBytes 4 chal.length ++ zeros 4) (chal.map (leBytes 8)).flatten
      (modLedger j.tenant (fun l => { putPend { p with sub := some { roots := roots, chal := chal } } l with lapsed := false }) c.2) := by
  subst job
  intro seqs roots c chal
  change rootSubmitGo id s = _
  simp only [rootSubmitGo, passed, pending, agree, ne_eq, not_true_eq_false, if_false, seeded]
  rfl

/-! ## LDG_ROOT_PROVE (R212) -/

theorem rootProve_of_fail {f : Fail} (job : getJob s id = j) (fails : firstFail (rootProveOwn s j) = some f) :
    (semOf 0xA6).go id s = finishJob id f.st f.info [] [] s := by
  subst job
  change rootProveGo id s = _
  simp only [rootProveGo, fails, failJob]

/-- Where the checks find nothing, the tenant has a submission that is challenged. -/
theorem submission_of_prove (passed : firstFail (rootProveOwn s j) = none) :
    ∃ p c, awaiting (getLedger s j.tenant) = some p ∧ p.sub = some c := by
  have checks := firstFail_eq_none passed
  simp only [rootProveOwn, List.append_eq_nil_iff] at checks
  obtain ⟨-, pending⟩ := checks
  cases there : (awaiting (getLedger s j.tenant)).bind (·.sub) with
  | none => simp [there] at pending
  | some c =>
    obtain ⟨p, waits, sub⟩ := Option.bind_eq_some_iff.mp there
    exact ⟨p, c, waits, sub⟩

section Proves

variable {p : PendRoot} {c : HostSub}

theorem rootProve_of_length (job : getJob s id = j) (passed : firstFail (rootProveOwn s j) = none)
    (pending : awaiting (getLedger s j.tenant) = some p) (sub : p.sub = some c) (ragged : proveEntries (j.d.f 36 4) j.src = none) :
    (semOf 0xA6).go id s = finishJob id stLength 0 [] [] s := by
  subst job
  change rootProveGo id s = _
  simp only [rootProveGo, passed, pending, sub, ragged]

/-- The entries of a proof are those that the challenge asks for, and every path is right. -/
def GoodPaths (s : State) (j : Job) (c : HostSub) (es : List (Nat × List Bytes)) : Prop :=
  es.map (·.1) = (c.chal.drop (j.d.f 32 4)).take (j.d.f 36 4) ∧ (es.all fun e => pathOk s j.tenant c.roots e.1 e.2) = true

variable {es : List (Nat × List Bytes)}

theorem rootProve_of_bad (job : getJob s id = j) (passed : firstFail (rootProveOwn s j) = none)
    (pending : awaiting (getLedger s j.tenant) = some p) (sub : p.sub = some c) (entries : proveEntries (j.d.f 36 4) j.src = some es)
    (bad : ¬ GoodPaths s j c es) :
    (semOf 0xA6).go id s = finishJob id stInput 0x41 [] [] (modLedger j.tenant (putPend { p with sub := none }) s) := by
  subst job
  have wrong : es.map (·.1) ≠ rootProveGo.slice' c.chal ((getJob s id).d.f 32 4) ((getJob s id).d.f 36 4)
      ∨ (!(es.all fun e => pathOk s (getJob s id).tenant c.roots e.1 e.2)) = true := by
    rw [Bool.not_eq_true', ← Bool.not_eq_true]
    exact Decidable.not_and_iff_not_or_not.mp bad
  change rootProveGo id s = _
  simp only [rootProveGo, passed, pending, sub, entries, if_pos wrong]

theorem rootProve_of_good (job : getJob s id = j) (passed : firstFail (rootProveOwn s j) = none)
    (pending : awaiting (getLedger s j.tenant) = some p) (sub : p.sub = some c) (entries : proveEntries (j.d.f 36 4) j.src = some es)
    (good : GoodPaths s j c es) :
    let done := ((c.chal.drop (j.d.f 32 4)).take (j.d.f 36 4)).foldl insertNat c.proven
    (semOf 0xA6).go id s =
      if done.length = c.chal.length then
        settleProofs (finalise 64 j.tenant (okJob id [] [] (modLedger j.tenant (putPend { p with
          sub := some { c with proven := done }
          roots := (List.range 8).map fun d => if p.counts.getD d 0 = 0 then some (zeros 48) else some (c.roots.getD d []) }) s)))
      else okJob id [] [] (modLedger j.tenant (putPend { p with sub := some { c with proven := done } }) s) := by
  subst job
  intro done
  obtain ⟨asked, paths⟩ := good
  have right : ¬ (es.map (·.1) ≠ rootProveGo.slice' c.chal ((getJob s id).d.f 32 4) ((getJob s id).d.f 36 4)
      ∨ (!(es.all fun e => pathOk s (getJob s id).tenant c.roots e.1 e.2)) = true) := by
    rintro (h | h)
    · exact h asked
    · rw [paths] at h
      cases h
  change rootProveGo id s = _
  simp only [rootProveGo, passed, pending, sub, entries, if_neg right]
  rfl

end Proves

/-! ## LDG_QUIESCE (R218) -/

theorem mem_of_mget {α : Type} {m : KMap α} {k : Nat} {v : α} (there : mget m k = some v) : (k, v) ∈ m := by
  induction m with
  | nil => cases there
  | cons p m ih =>
    obtain ⟨a, w⟩ := p
    simp only [mget] at there
    split at there
    · next same =>
      cases there
      exact same ▸ List.mem_cons_self
    · exact List.mem_cons_of_mem _ (ih there)

theorem quiesce_of_stop (job : getJob s id = j) (stop : j.d.f 32 1 = 1) :
    (semOf 0xA7).go id s = quiescePoll (modJob id (fun y => { y with phase := .wait 3 }) s) := by
  subst job
  exact if_pos stop

theorem quiesce_of_resume (job : getJob s id = j) (resume : j.d.f 32 1 ≠ 1) : (semOf 0xA7).go id s =
    if imageless s then okJob id [] [] (requestCkpt false { s with quiesced := false, ckptDirty := true })
    else requestCkpt false (modJob id (fun y => { y with phase := .wait 4 }) { s with quiesced := false, ckptDirty := true }) := by
  subst job
  exact if_neg resume

theorem requestCkpt_jobs (clean : Bool) (s : State) : (requestCkpt clean s).jobs = s.jobs := by
  unfold requestCkpt
  split <;> rfl

theorem quiescePoll_of_due (stopped : s.quiesced = false) (due : commitsDue s = true) : quiescePoll s = s := by
  simp [quiescePoll, stopped, due]

/-- A LDG_QUIESCE that waits. -/
theorem quiescePoll_of_waiter (waits : mget s.jobs id = some j) (phase : j.phase = .wait 3) (ready : commitsDue s = false ∨ s.quiesced = true) :
    let v := { s with quiesced := true }
    quiescePoll s = if allCovered v = true ∧ v.ckptReq = none
      then if imageless s then ((s.jobs.filter fun j => j.2.phase = .wait 3).map (·.1)).foldl (fun s j => okJob j [] [] s) v else requestCkpt true v
      else v := by
  intro v
  have waiters : (s.jobs.filter fun j => j.2.phase = .wait 3).map (·.1) ≠ [] := by
    intro none
    have member : (id, j) ∈ s.jobs.filter fun j => j.2.phase = .wait 3 := List.mem_filter.mpr ⟨mem_of_mget waits, by simp [phase]⟩
    rw [List.map_eq_nil_iff.mp none] at member
    cases member
  have go : (decide ((s.jobs.filter fun j => j.2.phase = .wait 3).map (·.1) = []) || (!s.quiesced && commitsDue s)) = false := by
    rcases ready with h | h <;> simp only [waiters, h, decide_false, Bool.false_or, Bool.and_false, Bool.not_true, Bool.false_and]
  simp only [quiescePoll, go, Bool.false_eq_true, if_false, Bool.and_eq_true, Option.isNone_iff_eq_none]
  rfl

end Commands

/-- Settles O32, one equation of the operation for each of its outcomes. -/
theorem ledgerAndEpochCommandsAct : Obligations.LedgerAndEpochCommandsAct := by
  unfold Obligations.LedgerAndEpochCommandsAct
  intro x s id
  refine ⟨?_, ?_, ?_, ?_, ?_, ?_⟩
  case refine_1 =>
    intro accepted
    dsimp only
    have go := epochSetup_go (getJob_admission0 0x95 x s)
    rw [admittedJobOf_f 0x95 x s (i := 32) (n := 6) (by decide) (by decide), admittedJobOf_f 0x95 x s (i := 38) (n := 2) (by decide) (by decide),
      admittedJobOf_f 0x95 x s (i := 40) (n := 1) (by decide) (by decide)] at go
    exact next_of_rests rfl (by decide) accepted go (rests_ite (rests_okJob _ _) (rests_ite (rests_modJob (p := .wait 47) (fun _ => rfl) (by decide))
      (rests_ite (rests_finishJob _ _ _ _) (rests_ite (rests_finishJob _ _ _ _) (rests_startBurn _)))))
  case refine_2 =>
    intro accepted
    have go := lringCreate_go (getJob_admission0 0xA0 x s)
    simp (disch := decide) only [admittedJobOf_f, admittedJobOf_fn] at go
    dsimp only
    exact next_of_ok rfl (by decide) accepted go
  case refine_3 =>
    intro accepted a
    exact (namedRing_of_accepted accepted).elim fun r named =>
      ⟨r, named, next_of_ok rfl (by decide) accepted (lringDestroy_go (getJob_admission0 0xA1 x s) named)⟩
  case refine_4 =>
    intro accepted h j
    generalize checks : firstFail (rootSubmitOwn h j) = outcome
    cases outcome with
    | some f => exact next_of_sourced_finish rfl (by decide) accepted (rootSubmit_of_fail rfl checks)
    | none =>
      obtain ⟨p, pending⟩ := awaiting_of_submit checks
      refine ⟨p, pending, fun differ => ?_, fun agree unseeded => ?_, fun w agree seeded => ?_⟩
      · exact next_of_sourced_finish rfl (by decide) accepted (rootSubmit_of_counts rfl checks pending differ)
      · exact next_of_sourced_rests rfl (by decide) accepted (rootSubmit_of_unseeded rfl checks pending agree unseeded) rests_awaitEntropy
      · exact next_of_sourced_ok rfl (by decide) accepted (rootSubmit_of_seeded rfl checks pending agree seeded)
  case refine_5 =>
    intro accepted h j
    have first : (getJob (sourceHeld 0xA6 x s) (jobOf x s)).d.f 32 4 = x.d.f 32 4 := sourceHeld_f 0xA6 x s (by decide) (by decide)
    have count : (getJob (sourceHeld 0xA6 x s) (jobOf x s)).d.f 36 4 = x.d.f 36 4 := sourceHeld_f 0xA6 x s (by decide) (by decide)
    generalize checks : firstFail (rootProveOwn h j) = outcome
    cases outcome with
    | some f => exact next_of_sourced_finish rfl (by decide) accepted (rootProve_of_fail rfl checks)
    | none =>
      obtain ⟨p, c, pending, sub⟩ := submission_of_prove checks
      refine ⟨p, c, pending, sub, fun ragged => ?_, fun es entries => ⟨fun bad => ?_, fun good part => ?_, fun good whole => ?_⟩⟩
      · exact next_of_sourced_finish rfl (by decide) accepted (rootProve_of_length rfl checks pending sub (by rw [count]; exact ragged))
      · exact next_of_sourced_finish rfl (by decide) accepted (rootProve_of_bad rfl checks pending sub (by rw [count]; exact entries)
          (by rw [GoodPaths, first, count]; exact bad))
      · have go := rootProve_of_good rfl checks pending sub (by rw [count]; exact entries) (by rw [GoodPaths, first, count]; exact good)
        dsimp only at go
        rw [first, count, if_neg part] at go
        exact next_of_sourced_ok rfl (by decide) accepted go
      · have go := rootProve_of_good rfl checks pending sub (by rw [count]; exact entries) (by rw [GoodPaths, first, count]; exact good)
        dsimp only at go
        rw [first, count, if_pos whole] at go
        exact next_of_sourced rfl (by decide) accepted go
  case refine_6 =>
    intro accepted a w r
    have byte : (admittedJobOf 0xA7 x s).d.f 32 1 = x.d.f 32 1 := admittedJobOf_f 0xA7 x s (by decide) (by decide)
    refine ⟨fun stop => ⟨?_, fun due => quiescePoll_of_due due.1 due.2, fun ready => ?_⟩, fun resume blank => ?_, fun resume imaged => ?_⟩
    · exact next_of_accepted rfl (by decide) accepted (quiesce_of_stop (getJob_admission0 0xA7 x s) (byte.trans stop))
    · exact quiescePoll_of_waiter (modJob_job _ _ _ _ (admission0_job 0xA7 x s).1) rfl ready
    · have go := quiesce_of_resume (getJob_admission0 0xA7 x s) (by rw [byte]; exact resume)
      exact next_of_ok rfl (by decide) accepted (go.trans (if_pos blank))
    · have go := quiesce_of_resume (getJob_admission0 0xA7 x s) (by rw [byte]; exact resume)
      exact next_of_rests rfl (by decide) accepted (go.trans (if_neg (Bool.eq_false_iff.mp imaged)))
        (rests_of_jobs (requestCkpt_jobs ..) (rests_modJob (p := .wait 4) (fun _ => rfl) (by decide)))

end Sys2Proof.Proofs
end

section
/-! PROOFS. The quorum, roster, tamper, firmware, power and package commands, and those of the life cycle and the debug port (R309 to R317,
R353 to R369, R392 to R395, R437, R462, R469). From these O34 and O35. -/

namespace Sys2Proof.Proofs
open Sys2Proof Sys2Proof.Machine Sys2Proof.Safety Sys2Proof.Laws

section Operations

variable {id : Nat} {s : State} {j : Job}

/-! ## Quorum and rosters (R311, R312) -/

theorem quorumCancel_go (job : getJob s id = j) : (semOf 0x8E).go id s = okJob id [] [] (closeSession (j.d.f 32 1) stAborted 1 s) := by
  subst job; rfl

/-- The session that QUORUM_OPEN opens, before the exchanges start. -/
def sessionOpened (id : Nat) (d : Desc) (intent : Bytes) (s : State) : State :=
  let q : Session := { st := 1, num := s.vault.nextSession, endAt := s.time.now + d.f 33 1 * 60000000000
                       intent := intent, collect := d.f 34 1 = 1, job := some id }
  let v := putSession (d.f 32 1) q (modJob id (fun y => { y with phase := .wait 23 }) s)
  { v with vault := { v.vault with nextSession := if s.vault.nextSession = 0xFFFF then 1 else s.vault.nextSession + 1 } }

theorem quorumOpen_go (job : getJob s id = j) : (semOf 0x8C).go id s =
    (List.range 4).foldl (fun s p => startExchange p s) (sessionOpened id j.d j.src s) := by
  subst job; rfl

theorem sessionOpened_congr {d e : Desc} {intent : Bytes} (role : d.f 32 1 = e.f 32 1) (window : d.f 33 1 = e.f 33 1) (collect : d.f 34 1 = e.f 34 1) :
    sessionOpened id d intent s = sessionOpened id e intent s := by
  simp only [sessionOpened, role, window, collect]

theorem sessionOpened_says (there : mget s.jobs id = some j) (d : Desc) (intent : Bytes) : let v := sessionOpened id d intent s
    let n := s.vault.nextSession
    v.vault.sessions = lset s.vault.sessions (d.f 32 1) { st := 1, num := n, endAt := s.time.now + d.f 33 1 * 60000000000
                                                          intent := intent, collect := d.f 34 1 = 1, job := some id }
    ∧ v.vault.nextSession = (if n = 0xFFFF then 1 else n + 1) ∧ (getJob v id).phase = .wait 23 := by
  have waits : mget (sessionOpened id d intent s).jobs id = some { j with phase := .wait 23 } :=
    modJob_job id (fun y => { y with phase := .wait 23 }) s j there
  refine ⟨?_, rfl, by rw [getJob_of waits]⟩
  simp [sessionOpened, putSession]

theorem roleSet_of_fail {f : Fail} (job : getJob s id = j) (fails : firstFail (roleSetFails s j) = some f) :
    (semOf 0x8F).go id s = finishJob id f.st f.info [] [] s := by
  subst job
  change roleSetGo id s = _
  simp only [roleSetGo, fails, failJob]

theorem roleSet_go (job : getJob s id = j) (passed : firstFail (roleSetFails s j) = none) :
    let p := j.d.f 35 1
    let r := s.vault.rosters.getD (j.d.f 32 1) {}
    let put (r : Roster) : State := { s with vault := { s.vault with rosters := lset s.vault.rosters (j.d.f 32 1) r } }
    let used (v : State) : State := if (s.otp.w.headD none).isSome then consume [0] v else v
    (semOf 0x8F).go id s =
      if j.d.f 33 1 = 0 then
        if (getPort s p).enrol.isSome then finishJob id stInput 0xDD [] [] s
        else startExchange p (modPort p (fun y => { y with enrol := some id }) (modJob id (fun y => { y with phase := .wait 23 }) s))
      else if j.d.f 33 1 = 1 then okJob id [] [] (used (put { r with cards := r.cards.filter (·.serial ≠ j.src.take 16) }))
      else okJob id [] [] (used (put { r with m := j.d.f 34 1 })) := by
  subst job
  change roleSetGo id s = _
  simp only [roleSetGo, passed]

/-! ## The package's keys (R309, R317) -/

theorem packageInit_go (id : Nat) (s : State) : (semOf 0x8B).go id s =
    if s.hold then modJob id (fun y => { y with phase := .wait 45, waitT := s.time.now }) s
    else if internalShort s 0 0 then awaitEntropy id s
    else packageInitNow id s := rfl

theorem rests_awaitImage (kind : Nat) : Rests id (awaitImage kind id s) := by
  rw [awaitImage]
  exact rests_modJob (p := .wait kind) (fun _ => rfl) ⟨nofun, nofun, nofun, nofun⟩

theorem rests_packageInitNow : Rests id (packageInitNow id s) := by
  rw [packageInitNow]
  extract_lets
  exact rests_awaitImage 22

theorem migrate_go (job : getJob s id = j) : (semOf 0x97).go id s =
    if quorumOpenFor s j 0 = false ∨ quorumOpenFor s j 1 = false then finishJob id stInput 0xD0 [] [] s
    else if imageless s then okJob id [] [] (consume [0, 1] { s with vault := { s.vault with alt := mnOf s j.src } })
    else modJob id (fun y => { y with phase := .wait 24, waitT := s.time.now }) { s with vault := { s.vault with alt := mnOf s j.src } } := by
  subst job
  exact if_congr (by simp) rfl rfl

/-! ## Firmware (R437) -/

theorem fwActivate_of_plain (job : getJob s id = j) (plain : (j.d.f 32 1).testBit 1 = false) : (semOf 0x9C).go id s =
    if s.hold then modJob id (fun y => { y with phase := .wait 44, waitT := s.time.now }) s
    else okJob id [byte (j.d.f 32 1), 0] [] (activateBanks (j.d.f 32 1) s) := by
  subst job
  change fwActivateGo id s = _
  simp only [fwActivateGo, fwActivateDone, fwComps, plain, Bool.false_eq_true, if_false]
  rfl

theorem fwActivate_of_fail {f : Fail} (job : getJob s id = j) (keyed : (j.d.f 32 1).testBit 1 = true)
    (fails : firstFail (fwActivateFails s j) = some f) : (semOf 0x9C).go id s = finishJob id f.st f.info [] [] s := by
  subst job
  change fwActivateGo id s = _
  simp only [fwActivateGo, fwComps, keyed, if_true, fails, failJob]

theorem fwActivate_of_keyed (job : getJob s id = j) (keyed : (j.d.f 32 1).testBit 1 = true) (passed : firstFail (fwActivateFails s j) = none) :
    (semOf 0x9C).go id s =
    if s.hold then modJob id (fun y => { y with phase := .wait 44, waitT := s.time.now }) s
    else okJob id [byte (j.d.f 32 1), byte (bit (s.vault.alt = none ∨ s.vault.alt ≠ mnOf s (stagedKw s)) 0)] []
      (consume [0, 1] (activateBanks (j.d.f 32 1) s)) := by
  subst job
  change fwActivateGo id s = _
  simp only [fwActivateGo, fwActivateDone, fwComps, keyed, if_true, passed, Bool.true_and, Bool.decide_or]
  rfl

/-! ## Tamper, power (R392 to R395, R462, R469) -/

theorem monitorTest_go (job : getJob s id = j) :
    let l := (if j.d.f 33 1 = 0xFF then liveDies s else [j.d.f 33 1]).flatMap fun d => instancesOf s (some id) (j.d.f 32 1) d
    (semOf 0xA9).go id s = if l = [] then okJob id (zeros 4) [] s
      else modJob id (fun y => { y with phase := .wait 40 }) { s with tamper := { s.tamper with tests := s.tamper.tests ++ l } } := by
  subst job; rfl

theorem unlock_go (id : Nat) (s : State) : (semOf 0xAC).go id s =
    unlockLogged (modJob id (fun y => { y with phase := .wait 41, tmp := s.lining.logNext }) (internalEvent 0x25 0 0 (unlockDetail s) s)) := rfl

theorem retain_go (job : getJob s id = j) : (semOf 0xB4).go id s = disableRing ⟨j.fn, j.ring⟩ { okJob id [] [] s with pwrState := 1 } := by
  subst job; rfl

theorem pwrReset_go (id : Nat) (s : State) : (semOf 0xB5).go id s =
    okJob id [] [] { s with pwr := { s.pwr with resetAt := some (s.time.now + 1000000) } } := rfl

theorem admittedJobOf_ring (op : Nat) (x : Sub) (s : State) : (admittedJobOf op x s).ring = x.q.ring := (admission0_job op x s).2.2.2.1

end Operations

/-- Settles O34, one equation of the operation for each outcome. -/
theorem securityCommandsAct : Obligations.SecurityCommandsAct := by
  unfold Obligations.SecurityCommandsAct
  intro x s id
  refine ⟨?_, ?_, ?_, ?_, ?_, ?_, ?_, ?_, ?_, ?_, ?_⟩
  case refine_1 =>
    intro accepted
    have go := quorumCancel_go (getJob_admission0 0x8E x s)
    rw [admittedJobOf_f 0x8E x s (by decide) (by decide)] at go
    exact next_of_ok rfl (by decide) accepted go
  case refine_2 =>
    intro accepted
    have go := quorumOpen_go (id := jobOf x s) (s := sourceHeld 0x8C x s) rfl
    have session := sessionOpened_says (sourceHeld_there 0x8C x s) x.d (getJob (sourceHeld 0x8C x s) (jobOf x s)).src
    rw [sessionOpened_congr (sourceHeld_f 0x8C x s (by decide) (by decide)) (sourceHeld_f 0x8C x s (by decide) (by decide))
      (sourceHeld_f 0x8C x s (by decide) (by decide))] at go
    exact ⟨_, next_of_sourced rfl (by decide) accepted go, session⟩
  case refine_3 =>
    intro accepted
    have go (passed) := roleSet_go (id := jobOf x s) (s := sourceHeld 0x8F x s) rfl passed
    simp (disch := decide) only [sourceHeld_f] at go
    dsimp only
    refine ⟨fun f fails => ?_, fun passed => ⟨fun enrol taken => ?_, fun enrol free => ?_, fun removes => ?_, fun sets => ?_⟩⟩
    · exact next_of_sourced_finish rfl (by decide) accepted (roleSet_of_fail rfl fails)
    · exact next_of_sourced_finish rfl (by decide) accepted ((go passed).trans ((if_pos enrol).trans (if_pos taken)))
    · exact next_of_sourced rfl (by decide) accepted ((go passed).trans ((if_pos enrol).trans (if_neg (by simp [free]))))
    · exact next_of_sourced_ok rfl (by decide) accepted ((go passed).trans ((if_neg (by omega)).trans (if_pos removes)))
    · exact next_of_sourced_ok rfl (by decide) accepted ((go passed).trans ((if_neg (by omega)).trans (if_neg (by omega))))
  case refine_4 =>
    intro accepted
    exact next_of_rests rfl (by decide) accepted (packageInit_go ..) (rests_ite (rests_modJob (p := .wait 45) (fun _ => rfl) (by decide))
      (rests_ite rests_awaitEntropy rests_packageInitNow))
  case refine_5 =>
    intro accepted
    exact next_of_sourced_rests rfl (by decide) accepted (migrate_go rfl) (rests_ite (rests_finishJob _ _ _ _)
      (rests_ite (rests_okJob _ _) (rests_modJob (p := .wait 24) (fun _ => rfl) (by decide))))
  case refine_6 =>
    intro accepted
    dsimp only
    intro plain
    have comps : (admittedJobOf 0x9C x s).d.f 32 1 = x.d.f 32 1 := admittedJobOf_f 0x9C x s (by decide) (by decide)
    have go := fwActivate_of_plain (getJob_admission0 0x9C x s) (by rw [comps]; exact plain)
    rw [comps] at go
    exact next_of_rests rfl (by decide) accepted go (rests_ite (rests_modJob (p := .wait 44) (fun _ => rfl) (by decide)) (rests_okJob _ _))
  case refine_7 =>
    intro accepted
    dsimp only
    intro keyed
    have comps : (getJob (sourceHeld 0x9C x s) (jobOf x s)).d.f 32 1 = x.d.f 32 1 := sourceHeld_f 0x9C x s (by decide) (by decide)
    refine ⟨fun f fails => ?_, fun passed => ?_⟩
    · exact next_of_sourced_finish rfl (by decide) accepted (fwActivate_of_fail rfl (by rw [comps]; exact keyed) fails)
    · have go := fwActivate_of_keyed (id := jobOf x s) rfl (by rw [comps]; exact keyed) passed
      rw [comps] at go
      exact next_of_sourced_rests rfl (by decide) accepted go (rests_ite (rests_modJob (p := .wait 44) (fun _ => rfl) (by decide)) (rests_okJob _ _))
  case refine_8 =>
    intro accepted
    have go := monitorTest_go (getJob_admission0 0xA9 x s)
    simp (disch := decide) only [admittedJobOf_f] at go
    dsimp only
    refine ⟨fun none => ?_, fun some => ?_⟩
    · exact next_of_ok rfl (by decide) accepted (go.trans (if_pos none))
    · exact next_of_rests rfl (by decide) accepted (go.trans (if_neg some)) (rests_modJob (p := .wait 40) (fun _ => rfl) (by decide))
  case refine_9 =>
    intro accepted
    exact next_of_accepted rfl (by decide) accepted (unlock_go ..)
  case refine_10 =>
    intro accepted
    have go := retain_go (getJob_admission0 0xB4 x s)
    rw [admittedJobOf_fn, admittedJobOf_ring] at go
    exact next_of_accepted rfl (by decide) accepted go
  case refine_11 =>
    intro accepted
    exact next_of_ok rfl (by decide) accepted (pwrReset_go ..)

section Lifecycle

variable {id : Nat} {s : State} {j : Job}

/-! ## The life cycle (R353 to R355, R363) -/

theorem transition_of_fail {f : Fail} (job : getJob s id = j) (fails : inOrder (transitionFails s j) = some f) :
    (semOf 0xB8).go id s = finishJob id f.st f.info [] [] s := by
  subst job
  change transitionGo id s = _
  simp only [transitionGo, fails, failJob]

theorem transition_of_pass (job : getJob s id = j) (passed : inOrder (transitionFails s j) = none) : (semOf 0xB8).go id s =
    if s.hold = true ∨ s.life.burn.isSome = true then modJob id (fun y => { y with phase := .wait 30, waitT := s.time.now }) s
    else beginTransition id s := by
  subst job
  change transitionGo id s = _
  simp only [transitionGo, passed]
  rfl

theorem beginTransition_trans (job : getJob s id = j) :
    (beginTransition id s).life.trans.map (fun r => (r.job, r.target, r.from_)) = some (id, j.d.f 32 1, s.lcs.code) := by
  subst job; rfl

theorem tokenSet_go (job : getJob s id = j) : (semOf 0xB9).go id s =
    if s.life.burn.isSome then modJob id (fun y => { y with phase := .wait 47 }) s
    else if digestConflict (s.otp.slots.getD (j.d.f 32 1 - 1) []) j.src then finishJob id stInput 0xE9 [] [] s
    else if slotSteps s (j.d.f 32 1 - 1) j.src = [] then okJob id [] [] s
    else startBurn id (slotSteps s (j.d.f 32 1 - 1) j.src) s := by
  subst job; rfl

theorem returnUnlock_go (job : getJob s id = j) : (semOf 0xBA).go id s =
    if slotProgrammed (s.otp.slots.getD 3 []) ∧ digest384 j.src = s.otp.slots.getD 3 [] then
      okJob id [] [] { s with lining := { s.lining with unlockPending := true } }
    else finishJob id stInput 0xED [] [] s := by
  subst job; rfl

/-! ## The debug port (R365 to R369) -/

theorem challenge_of_short (short : internalShort s 0 1 = true) : (semOf 0xBB).go id s = awaitEntropy id s := if_pos short

theorem challenge_of_served (job : getJob s id = j) (served : internalShort s 0 1 = false) :
    let n := internalGen 0 1 32 [] s
    let b := challengeBytes s (j.d.f 32 4) (s.lining.dbgCount + 1) n.1
    (semOf 0xBB).go id s = okJob id [] b { n.2 with
      lining := { n.2.lining with dbgCount := s.lining.dbgCount + 1 }, life := { n.2.life with challenge := some (b, s.time.now) } } := by
  subst job
  exact if_neg (Bool.eq_false_iff.mp served)

theorem grant_of_no_quorum (job : getJob s id = j) (shut : quorumOpenFor s j 0 = false) :
    (semOf 0xBC).go id s = finishJob id stInput 0xD0 [] [] s := by
  subst job
  change dbgGrantGo id s = _
  simp only [dbgGrantGo, shut, Bool.not_false, if_true]

theorem grant_of_mismatch (job : getJob s id = j) (opened : quorumOpenFor s j 0 = true) (differs : responseMatches s j.src = false) :
    (semOf 0xBC).go id s = finishJob id stInput 0xF0 [] [] s := by
  subst job
  change dbgGrantGo id s = _
  simp only [dbgGrantGo, opened, differs, Bool.not_false, Bool.not_true, Bool.false_eq_true, if_true, if_false]

theorem grant_of_fail {f : Fail} (job : getJob s id = j) (opened : quorumOpenFor s j 0 = true) (agrees : responseMatches s j.src = true)
    (fails : inOrder (grantFails s j.src) = some f) :
    (semOf 0xBC).go id s = finishJob id f.st f.info [] [] { s with life := { s.life with challenge := none } } := by
  subst job
  change dbgGrantGo id s = _
  simp only [dbgGrantGo, opened, agrees, fails, failJob, Bool.not_true, Bool.false_eq_true, if_false]

theorem grant_of_pass (job : getJob s id = j) (opened : quorumOpenFor s j 0 = true) (agrees : responseMatches s j.src = true)
    (passed : inOrder (grantFails s j.src) = none) :
    let g := field j.src 4 4
    let w := { s with life := { s.life with challenge := none } }
    (semOf 0xBC).go id s = okJob id (leBytes 4 g ++ zeros 4) [] (consume [0] (
      let v := if g.testBit 3 then let e := loseLk (eraseReplicas w); { e with life := { e.life with keysShut := true } } else w
      { v with life := { v.life with enables := v.life.enables ||| g, granted := v.life.granted ||| g, grantOn := true } })) := by
  subst job
  change dbgGrantGo id s = _
  simp only [dbgGrantGo, opened, agrees, passed, Bool.not_true, Bool.false_eq_true, if_false]
  rfl

theorem revoke_go (id : Nat) (s : State) : (semOf 0xBD).go id s = okJob id [] [] (endGrant s) := rfl

end Lifecycle

/-- Settles O35, one equation of the operation for each outcome. -/
theorem lifecycleCommandsAct : Obligations.LifecycleCommandsAct := by
  unfold Obligations.LifecycleCommandsAct
  intro x s
  dsimp only
  refine ⟨?_, ?_, ?_, ?_, ?_, ?_⟩
  case refine_1 =>
    intro accepted
    have begun := beginTransition_trans (id := jobOf x s) (s := sourceHeld 0xB8 x s) rfl
    rw [sourceHeld_f 0xB8 x s (by decide) (by decide)] at begun
    refine ⟨fun f fails => ?_, fun passed barred => ?_, fun passed free idle => ⟨?_, ?_⟩⟩
    · exact next_of_sourced_finish rfl (by decide) accepted (transition_of_fail rfl fails)
    · exact next_of_sourced_rests rfl (by decide) accepted ((transition_of_pass rfl passed).trans (if_pos barred))
        (rests_modJob (p := .wait 30) (fun _ => rfl) (by decide))
    · exact next_of_sourced rfl (by decide) accepted ((transition_of_pass rfl passed).trans (if_neg (by simp [free, idle])))
    · exact begun
  case refine_2 =>
    intro accepted
    have go := tokenSet_go (id := jobOf x s) (s := sourceHeld 0xB9 x s) rfl
    simp (disch := decide) only [sourceHeld_f] at go
    exact next_of_sourced_rests rfl (by decide) accepted go (rests_ite (rests_modJob (p := .wait 47) (fun _ => rfl) (by decide))
      (rests_ite (rests_finishJob _ _ _ _) (rests_ite (rests_okJob _ _) (rests_startBurn _))))
  case refine_3 =>
    intro accepted
    have go := returnUnlock_go (id := jobOf x s) (s := sourceHeld 0xBA x s) rfl
    split
    next token => exact next_of_sourced_ok rfl (by decide) accepted (go.trans (if_pos token))
    next other => exact next_of_sourced_finish rfl (by decide) accepted (go.trans (if_neg other))
  case refine_4 =>
    intro accepted
    have go := challenge_of_served (getJob_admission0 0xBB x s)
    simp (disch := decide) only [admittedJobOf_f] at go
    refine ⟨fun short => ?_, fun served => ?_⟩
    · exact next_of_rests rfl (by decide) accepted (challenge_of_short short) rests_awaitEntropy
    · exact next_of_ok rfl (by decide) accepted (go served)
  case refine_5 =>
    intro accepted
    split
    next shut => exact next_of_sourced_finish rfl (by decide) accepted (grant_of_no_quorum rfl shut)
    next opened =>
      rw [Bool.not_eq_false] at opened
      split
      next differs => exact next_of_sourced_finish rfl (by decide) accepted (grant_of_mismatch rfl opened differs)
      next agrees =>
        rw [Bool.not_eq_false] at agrees
        split
        next fails => exact next_of_sourced_finish rfl (by decide) accepted (grant_of_fail rfl opened agrees fails)
        next passed =>
          have go := grant_of_pass (id := jobOf x s) rfl opened agrees passed
          dsimp only at go
          exact next_of_sourced_ok rfl (by decide) accepted go
  case refine_6 =>
    intro accepted
    exact next_of_ok rfl (by decide) accepted (revoke_go ..)

end Sys2Proof.Proofs
end

section
/-! PROOFS. What the engines give (R84, R85, R163 to R173, R236, R245, R250, R267 to R274): MAC cores, Reckoner lanes and the entropy blocks.
From these O36, O37 and O38. -/

namespace Sys2Proof.Proofs
open Sys2Proof Sys2Proof.Machine Sys2Proof.Safety

/-! ## A job at its engine -/

section AtEngines

variable {op : Nat} {x : Sub} {s : State}

theorem atEngine_op (engine : AtEngine op x s) : (getJob (engineState op x s) (jobOf x s)).d.op = op := engine.2.2.2.1

theorem atEngine_onEngine (engine : AtEngine op x s) :
    onEngine (engineState op x s) (jobOf x s) (getJob (engineState op x s) (jobOf x s)) = true := engine.2.2.2.2.2.1

theorem next_of_engine {o : Host.Outcome State Fault Refusal} {fin : Nat → State → State} {v : State} (row : o = .next (runOp op x s))
    (engine : AtEngine op x s) (sem : (semOf op).fin = fin) (result : fin (jobOf x s) (engineState op x s) = v) : o = .next (ended x s v) := by
  rw [row, runOp_engine op x s engine, sem, result]

end AtEngines

/-! ## MAC cores (R163 to R173) -/

section Cores

variable {id : Nat} {s : State} {j : Job}

/-- A job of a MAC core's opcode that is on an engine is on a core. -/
theorem coreOf_of_onEngine (low : 0x10 ≤ j.d.op) (high : j.d.op ≤ 0x13) (job : getJob s id = j) (on : onEngine s id j = true) :
    ∃ c, coreOf s id = some c := by
  subst job
  simp only [onEngine, low, high, and_self, if_true] at on
  exact Option.isSome_iff_exists.mp (by rw [coreOf, List.findIdx?_isSome]; exact on)

theorem seal_fin {kind c : Nat} (job : getJob s id = j) (core : coreOf s id = some c) (form : (if j.d.op = 0x11 then 2 else 1) = kind) :
    let k := j.key.getD {}
    let h := sealHeader j.tenant kind k.alg (if kind = 2 then j.d.aux else j.srcLen) j
    let tag := (macFull k (h ++ j.src) "XZSEAL").take (j.d.f 34 1)
    let leaf : Leaf := { header := h, rd := if kind = 1 then digest384 j.src else j.src, tpad := fit 16 tag }
    sealFin id s = collect id (if j.flagged then stFlagged else stOk) 0 (leBytes 8 j.psn)
      (if j.d.f 35 1 = 1 then h ++ leaf.hash ++ leaf.tpad else tag) (some leaf) (freeMac id s) := by
  subst job
  subst form
  simp only [sealFin, core]
  rfl

theorem verifySeal_fin {c : Nat} (job : getJob s id = j) (core : coreOf s id = some c) :
    let h := j.src.take 64
    let tag := (macFull (j.key.getD {}) (h ++ j.src.drop 64) "XZSEAL").take (field h 3 1)
    verifySealFin id s = collect id stOk 0 [if tag = slice j.d.bytes 32 (field h 3 1) then 0 else 1]
      (if j.d.dst = 0 then [] else (sealLeaf h (j.src.drop 64) tag (field h 1 1)).hash) none (freeMac id s) := by
  subst job
  simp only [verifySealFin, core]
  rfl

theorem mac_fin {c : Nat} (job : getJob s id = j) (core : coreOf s id = some c) :
    let n := j.d.f 33 1
    let tag := (macFull (j.key.getD {}) j.src "XZMAC").take n
    macFin id s = if j.d.f 32 1 = 0 then collect id stOk 0 [] tag none (freeMac id s)
      else collect id stOk 0 [if tag = slice j.d.bytes 48 n then 0 else 1] [] none (freeMac id s) := by
  subst job
  simp only [macFin, core]

end Cores

/-- The core of a job at its engine. -/
theorem atEngine_core {op : Nat} {x : Sub} {s : State} (engine : AtEngine op x s) (low : 0x10 ≤ op) (high : op ≤ 0x13) :
    ∃ c, coreOf (engineState op x s) (jobOf x s) = some c :=
  coreOf_of_onEngine (by rw [atEngine_op engine]; exact low) (by rw [atEngine_op engine]; exact high) rfl (atEngine_onEngine engine)

/-- The two sealing rows: number, content kind, command. -/
theorem sealRow {r : Nat × Nat × (Sub → Instr)} (member : r ∈ ([(0x10, 1, .seal), (0x11, 2, .sealDigest)] : List (Nat × Nat × (Sub → Instr)))) :
    (∀ x s, exec (r.2.2 x) s = .next (runOp r.1 x s)) ∧ (semOf r.1).fin = sealFin ∧ 0x10 ≤ r.1 ∧ r.1 ≤ 0x13
      ∧ (if r.1 = 0x11 then 2 else 1) = r.2.1 := by
  simp only [List.mem_cons, List.not_mem_nil, or_false] at member
  rcases member with rfl | rfl
  · exact ⟨fun _ _ => rfl, rfl, by decide, by decide, rfl⟩
  · exact ⟨fun _ _ => rfl, rfl, by decide, by decide, rfl⟩

/-- Settles O36: a job at its engine holds a core, and the end of its operation says what the core gives. -/
theorem macCoreJobsEnd : Obligations.MacCoreJobsEnd := by
  unfold Obligations.MacCoreJobsEnd
  intro x s
  dsimp only
  beta_reduce
  refine ⟨fun r member engine => ?_, fun engine => ?_, fun engine => ⟨fun plain => ?_, fun compares => ?_⟩⟩
  case refine_1 =>
    obtain ⟨row, sem, low, high, kind⟩ := sealRow member
    refine next_of_engine (row x s) engine sem ?_
    have opcode := atEngine_op engine
    have core := atEngine_core engine low high
    generalize engineState r.1 x s = e at opcode core ⊢
    exact core.elim fun c core => seal_fin rfl core (by rw [opcode]; exact kind)
  case refine_2 =>
    refine next_of_engine rfl engine rfl ?_
    have core := atEngine_core engine (by decide) (by decide)
    generalize engineState 0x12 x s = e at core ⊢
    exact core.elim fun c core => verifySeal_fin rfl core
  case refine_3 =>
    refine next_of_engine rfl engine rfl ?_
    have core := atEngine_core engine (by decide) (by decide)
    generalize engineState 0x13 x s = e at core plain ⊢
    exact core.elim fun c core => (mac_fin rfl core).trans (if_pos plain)
  case refine_4 =>
    refine next_of_engine rfl engine rfl ?_
    have core := atEngine_core engine (by decide) (by decide)
    generalize engineState 0x13 x s = e at core compares ⊢
    exact core.elim fun c core => (mac_fin rfl core).trans (if_neg compares)

/-! ## Reckoner lanes (R84, R267 to R274) -/

section Lanes

variable {id lane : Nat} {s : State} {j : Job}

theorem signFin_of_fail {i : Nat} (job : getJob s id = j) (held : laneOf s id = some lane) (fails : firstCheck (laneChecks j) = some i) :
    signFin id s = validationFail id i s := by
  subst job
  simp only [signFin, held, fails]

theorem verifyFin_of_fail {i : Nat} (job : getJob s id = j) (held : laneOf s id = some lane) (fails : firstCheck (laneChecks j) = some i) :
    verifyFin id s = validationFail id i s := by
  subst job
  simp only [verifyFin, held, fails]

theorem ecdhFin_of_fail {i : Nat} (job : getJob s id = j) (held : laneOf s id = some lane)
    (curve : (curveOf (j.key.getD {}).alg j.curve).isSome = true) (fails : firstCheck (laneChecks j) = some i) :
    ecdhFin id s = validationFail id i s := by
  subst job
  obtain ⟨c, known⟩ := Option.isSome_iff_exists.mp curve
  simp only [ecdhFin, held, known, fails]

theorem signFin_of_good (job : getJob s id = j) (held : laneOf s id = some lane) (good : firstCheck (laneChecks j) = none) :
    let k := j.key.getD {}
    let g := slotSign j.die k j.d.handle (j.d.f 33 1) (j.hostRun && edAlg k.alg) j.curve (signRep j) s
    signFin id s = collect id stOk 0 (leBytes 2 g.1.length ++ [byte lane, byte j.suspends] ++ zeros 4) g.1 none (freeLane id g.2) := by
  subst job
  simp only [signFin, held, good]

theorem verifyFin_of_good (job : getJob s id = j) (held : laneOf s id = some lane) (good : firstCheck (laneChecks j) = none) :
    let p := verifyParts j
    let alg := verifyAlg j
    verifyFin id s = collect id stOk 0
      ([if Config.verifyOf alg (j.d.f 33 1) (j.d.f 35 1 = 1 && edAlg alg) j.curve p.1 p.2.2 p.2.1 then 0 else 1, byte lane] ++ zeros 6) [] none (freeLane id s) := by
  subst job
  simp only [verifyFin, held, good]

theorem ecdhFin_of_good {c : Curve} (job : getJob s id = j) (held : laneOf s id = some lane)
    (curve : curveOf (j.key.getD {}).alg j.curve = some c) (good : firstCheck (laneChecks j) = none) :
    let k := j.key.getD {}
    ecdhFin id s = collect id stOk 0 (leBytes 2 (fieldLen c) ++ zeros 6) (fit (fieldLen c) (Config.ecdhOf k.alg j.curve k.mat j.src)) none
      (freeLane id s) := by
  subst job
  simp only [ecdhFin, held, curve, good]

theorem stampFin_of_lane (job : getJob s id = j) (held : laneOf s id = some lane) :
    let h := j.stamp.bytes ++ leBytes 6 j.epoch ++ leBytes 2 j.fn ++ slice j.d.bytes 32 8
    let g := slotSign j.die (j.key.getD {}) j.d.handle 0 false [] (digest384 h) s
    stampFin id s = stampEnd id (h ++ fit 96 g.1) (freeLane id g.2) := by
  subst job
  simp only [stampFin, held]
  rfl

end Lanes

/-- The three Reckoner rows that a check can fail: number, command. -/
theorem laneRow_fails {r : Nat × (Sub → Instr)} {id lane i : Nat} {s : State}
    (member : r ∈ ([(0x30, .sign), (0x31, .verify), (0x32, .ecdh)] : List (Nat × (Sub → Instr)))) (held : laneOf s id = some lane)
    (curve : r.1 = 0x32 → (curveOf ((getJob s id).key.getD {}).alg (getJob s id).curve).isSome = true)
    (fails : firstCheck (laneChecks (getJob s id)) = some i) :
    (∀ x u, exec (r.2 x) u = .next (runOp r.1 x u)) ∧ (semOf r.1).fin id s = validationFail id i s := by
  simp only [List.mem_cons, List.not_mem_nil, or_false] at member
  rcases member with rfl | rfl | rfl
  · exact ⟨fun _ _ => rfl, signFin_of_fail rfl held fails⟩
  · exact ⟨fun _ _ => rfl, verifyFin_of_fail rfl held fails⟩
  · exact ⟨fun _ _ => rfl, ecdhFin_of_fail rfl held (curve rfl) fails⟩

/-- Settles O37: a Reckoner job at its lane ends with its first failing check or with what the lane computes. -/
theorem laneJobsEnd : Obligations.LaneJobsEnd := by
  unfold Obligations.LaneJobsEnd
  intro x s lane
  dsimp only
  beta_reduce
  refine ⟨fun r member engine held curve i fails => ?_, fun engine held good => ?_, fun engine held good => ?_,
    fun c engine held curve good => ?_, fun engine held => ?_⟩
  case refine_1 =>
    have row := laneRow_fails member held curve fails
    exact next_of_engine (row.1 x s) engine rfl row.2
  case refine_2 =>
    refine next_of_engine rfl engine rfl ?_
    generalize engineState 0x30 x s = e at held good ⊢
    exact signFin_of_good rfl held good
  case refine_3 =>
    refine next_of_engine rfl engine rfl ?_
    generalize engineState 0x31 x s = e at held good ⊢
    exact verifyFin_of_good rfl held good
  case refine_4 =>
    refine next_of_engine rfl engine rfl ?_
    generalize engineState 0x32 x s = e at held curve good ⊢
    exact ecdhFin_of_good rfl held curve good
  case refine_5 =>
    refine next_of_engine rfl engine rfl ?_
    generalize engineState 0x50 x s = e at held ⊢
    exact stampFin_of_lane rfl held

/-! ## The entropy blocks (R236, R245, R250) -/

section Draws

variable {id : Nat} {s : State} {j : Job} {d : Draw}

theorem randomFin_eq (job : getJob s id = j) :
    let o := fnGen j.die j.fn (j.d.f 32 4) j.src s
    randomFin id s = collect id stOk 0 [] o.1 none o.2 := by
  subst job
  rfl

theorem drawFin_of_host (job : getJob s id = j) (held : j.draw = some d) (host : d.host = true) :
    let o := drawBytes j.die (instOf s id) (8 * d.w) s
    let d1 := { d with wordsDig := wordsDigest d.id o.1 }
    drawFin id s = freeInst id (collect id (if d.flagged then stFlagged else stOk) 0 (leBytes 8 d.id) o.1 (some (drawLeaf o.2 0x13 d1))
      (modJob id (fun y => { y with draw := some d1 }) o.2)) := by
  subst job
  simp only [drawFin, held, host, if_true]

theorem drawFin_of_hardware (job : getJob s id = j) (held : j.draw = some d) (hardware : d.host = false) :
    let o := drawBytes j.die (instOf s id) (8 * mapWords d.count) s
    drawFin id s = match mapDraw d.op (d.n1 + 1) d.count (wordsOf (mapWords d.count) o.1) with
      | none => freeInst id (collect id stRetry 0 [] [] none (modJob id (fun y => { y with draw := none }) o.2))
      | some out => let d1 := { d with outcome := outcomeBytes out, outDig := outcomeDigest (outcomeBytes out), st := 3 }
        collect id stOk 0 [] [] (some (drawLeaf o.2 0x11 d1)) (freeInst id (modJob id (fun y => { y with draw := some d1 }) o.2)) := by
  subst job
  simp only [drawFin, held, hardware, Bool.false_eq_true, if_false, mapOn]
  cases mapDraw d.op (d.n1 + 1) d.count (wordsOf (mapWords d.count) (drawBytes (getJob s id).die (instOf s id) (8 * mapWords d.count) s).1) <;> rfl

end Draws

/-- The two rows of draws: number, command. -/
theorem drawRow {r : Nat × (Sub → Instr)} (member : r ∈ ([(0x20, .draw), (0x21, .shuffle)] : List (Nat × (Sub → Instr)))) :
    (∀ x s, exec (r.2 x) s = .next (runOp r.1 x s)) ∧ (semOf r.1).fin = drawFin := by
  simp only [List.mem_cons, List.not_mem_nil, or_false] at member
  rcases member with rfl | rfl
  · exact ⟨fun _ _ => rfl, rfl⟩
  · exact ⟨fun _ _ => rfl, rfl⟩

/-- Settles O38: what the block gives, by the kind of the draw. -/
theorem entropyJobsEnd : Obligations.EntropyJobsEnd := by
  unfold Obligations.EntropyJobsEnd
  intro x s
  dsimp only
  refine ⟨fun engine => next_of_engine rfl engine rfl (randomFin_eq rfl), fun r member d engine held => ?_⟩
  obtain ⟨row, sem⟩ := drawRow member
  exact ⟨fun host => next_of_engine (row x s) engine sem (drawFin_of_host rfl held host),
    fun hardware => next_of_engine (row x s) engine sem (drawFin_of_hardware rfl held hardware)⟩

end Sys2Proof.Proofs
end

section
/-! PROOFS. Work rows that need no engine (R40, R84, R141, R206, R209): NOP at its take, STAMP without a token and LEDGER_PROOF at the poll of their die.
From these O39. -/

namespace Sys2Proof.Proofs
open Sys2Proof Sys2Proof.Machine Sys2Proof.Safety

/-! ## NOP, at its take (R40) -/

section AtTake

variable {x : Sub} {s : State} {id : Nat} {v : State}

/-- A job of NOP is in no die's queue: it is admitted at its take. -/
theorem placeWork_nop (nop : (getJob v id).d.op = 0) : placeWork id (numberJob id v) = admitOwn id v := by
  have unnumbered : numberJob id v = v := by simp [numberJob, nop]
  rw [unnumbered]
  simp [placeWork, nop]

theorem takenState_op : (getJob (takenState 0 x s) (jobOf x s)).d.op = 0 := by
  rw [getJob_of (takenState_job 0 x s)]
  exact op_withOp x.d 0

theorem takeJob_nop (known : opAccepted 0 x.q.ring = true) :
    (takeJob x.q (x.d.withOp 0) (turnState 0 x s)).2 = admitJob (fullSem 0) (jobOf x s) (takenState 0 x s) := by
  have work : queueKind x.q.ring = 0 := by simpa [opAccepted] using (Bool.and_eq_true_iff.mp known).2
  have placed := placeWork_nop (takenState_op (x := x) (s := s))
  rw [admitOwn, takenState_op] at placed
  rw [← placed]
  simp only [takeJob, work, if_true, takenState, takeEntry_id, turnState_nextJob]

theorem takenState_there (op : Nat) : mget (takenState op x s).jobs (jobOf x s) = some (getJob (takenState op x s) (jobOf x s)) := by
  rw [getJob_of (takenState_job op x s)]
  exact takenState_job op x s

theorem admitJob_of_pass {sem : OpSem} {j : Job} (there : mget v.jobs id = some j) (passed : admission sem (admitState id v) (admittedJob v j) = none) :
    admitJob sem id v = startSource sem id (admitState id v) := by
  simp only [admitJob, there, passed]

theorem admitJob_of_fail {sem : OpSem} {j : Job} {f : Fail} (there : mget v.jobs id = some j)
    (fails : admission sem (admitState id v) (admittedJob v j) = some f) : admitJob sem id v = refuseJob id f (admitState id v) := by
  simp only [admitJob, there, fails]

end AtTake

/-! ## At the poll (R141) -/

section AtPolls

variable {op id st info : Nat} {x : Sub} {s v : State} {o : Host.Outcome State Fault Refusal} {result out : Bytes}

/-- A command that reads no source begins its operation at once. -/
theorem startSource_of_sourceless {sem : OpSem} (none : sem.src = false) : startSource sem id v = sem.go id v := by
  simp [startSource, none]

theorem next_of_poll (row : o = .next (runOp op x s)) (polled : AtPoll op x s) (none : (semOf op).src = false)
    (go : (semOf op).go (jobOf x s) (polledJob op x s) = v) :
    o = .next (ended x s (endWork (jobOf x s) (feed (jobOf x s) x (pollTo (jobOf x s) 63 v)))) := by
  rw [row, runOp_polled op x s polled, startSource_of_sourceless (sem := fullSem op) none]
  exact congrArg (fun w => Host.Outcome.next (ended x s (endWork (jobOf x s) (feed (jobOf x s) x (pollTo (jobOf x s) 63 w))))) go

/-- A job that rests is not polled for again. -/
theorem pollTo_of_rests (rest : Rests id v) (n : Nat) : pollTo id n v = v := by
  apply pollTo_quiet
  cases there : mget v.jobs id with
  | none => rfl
  | some j => simpa using (rest j there).1

theorem pollTo_modJob {f : Job → Job} {p : Phase} (phase : ∀ y, (f y).phase = p) (left : p ≠ .ring) (n : Nat) : pollTo id n (modJob id f v) = modJob id f v := by
  apply pollTo_quiet
  cases there : mget v.jobs id with
  | none => simp [modJob, there]
  | some j => simp [modJob_job id f v j there, phase, left]

theorem next_of_poll_rests (row : o = .next (runOp op x s)) (polled : AtPoll op x s) (none : (semOf op).src = false)
    (go : (semOf op).go (jobOf x s) (polledJob op x s) = v) (rest : Rests (jobOf x s) v) : o = .next (ended x s v) := by
  have done := workJob_of_rests rest x
  rw [workJob, pollTo_of_rests rest] at done
  rw [next_of_poll row polled none go, pollTo_of_rests rest, done]

theorem next_of_poll_finish (row : o = .next (runOp op x s)) (polled : AtPoll op x s) (none : (semOf op).src = false)
    (go : (semOf op).go (jobOf x s) (polledJob op x s) = finishJob (jobOf x s) st info result out v) :
    o = .next (ended x s (finishJob (jobOf x s) st info result out v)) :=
  next_of_poll_rests row polled none go (rests_finishJob st info result out)

theorem nop_go : (fullSem 0).go id v = finishJob id stOk 0 [] [] v := rfl

end AtPolls

/-! ## STAMP without a token (R84) -/

section Operations

variable {id : Nat} {s : State} {j : Job}

/-- The Stamp of a job is not touched by a change of the job that leaves it alone. -/
theorem stamp_modJob {f : Job → Job} (same : ∀ y, (f y).stamp = y.stamp) : (getJob (modJob id f s) id).stamp = (getJob s id).stamp := by
  cases there : mget s.jobs id with
  | none => simp only [modJob, there]
  | some y => rw [getJob_of (modJob_job id f s y there), same, getJob_of there]

theorem stamp_go (job : getJob s id = j) (plain : j.d.f 40 1 = 0) : (semOf 0x50).go id s =
    finishJob id (if j.stamp.flags.testBit 0 then stOk else stFlagged) 0 (leBytes 6 j.stamp.seconds ++ leBytes 2 j.stamp.flags) j.stamp.bytes
      (modJob id (fun y => { y with flagged := !j.stamp.flags.testBit 0 }) (modJob id (fun y => { y with hostRun := y.onlyBeacon }) s)) := by
  subst job
  change stampGo id s = _
  have stamp := stamp_modJob (id := id) (s := s) (f := fun y => { y with hostRun := y.onlyBeacon }) fun _ => rfl
  simp only [stampGo, plain, if_true, stampEnd, stampResult, stamp]

/-! ## LEDGER_PROOF (R206, R209) -/

variable {en : JEntry} {root : Record}

theorem proof_of_unknown (job : getJob s id = j) (unknown : entryOf s j.tenant (j.d.f 32 8) = none) :
    (semOf 0x40).go id s = finishJob id stInput 0x31 [] [] s := by
  subst job
  change proofGo id s = _
  simp only [proofGo, unknown]

theorem proof_of_rootless (job : getJob s id = j) (known : entryOf s j.tenant (j.d.f 32 8) = some en) (rootless : rootOf s j.tenant en.epoch = none) :
    (semOf 0x40).go id s = if en.epoch = s.time.epoch ∨ (getLedger s j.tenant).pend.any (·.epoch = en.epoch) = true
      then modJob id (fun y => { y with phase := .wait 2 }) s else finishJob id stInput 0x31 [] [] s := by
  subst job
  change proofGo id s = _
  simp only [proofGo, known, rootless]

theorem proof_of_lost (job : getJob s id = j) (known : entryOf s j.tenant (j.d.f 32 8) = some en) (rooted : rootOf s j.tenant en.epoch = some root)
    (lost : (field root.bytes 29 1).testBit en.die = true) : (semOf 0x40).go id s = finishJob id stInput 0x32 [] [] s := by
  subst job
  change proofGo id s = _
  simp only [proofGo, known, rooted, lost, if_true]

theorem proof_of_stored (job : getJob s id = j) (known : entryOf s j.tenant (j.d.f 32 8) = some en) (rooted : rootOf s j.tenant en.epoch = some root)
    (kept : (field root.bytes 29 1).testBit en.die = false) (stored : storeOnly s en.epoch ≠ []) (first : j.tmp = 0) :
    (semOf 0x40).go id s = modJob id (fun y => { y with phase := .source, srcLen := (storeOnly s en.epoch).length * 4608, tmp := 1 }) s := by
  subst job
  change proofGo id s = _
  simp [proofGo, known, rooted, kept, readBack, first, stored]

/-- With every page at hand the journal is compared with the root at once. -/
theorem proof_of_held (job : getJob s id = j) (known : entryOf s j.tenant (j.d.f 32 8) = some en) (rooted : rootOf s j.tenant en.epoch = some root)
    (kept : (field root.bytes 29 1).testBit en.die = false) (held : storeOnly s en.epoch = []) (first : j.tmp = 0) :
    let p := proofBytes s j.tenant (j.d.f 32 8) en root
    (semOf 0x40).go id s = if hostDiffers s j.tenant en root = true
      then finishJob id stInput 0x34 [] [] (recEvent 0x0403 (leBytes 2 j.tenant ++ leBytes 6 en.epoch) s)
      else okJob id (leBytes 4 p.length ++ zeros 4) p s := by
  subst job
  change proofGo id s = _
  simp [proofGo, known, rooted, kept, readBack, held, first]

end Operations

theorem runOp_of_workRow {x : Sub} {s : State} {r : Nat × (Sub → Instr)} (row : r ∈ workRows) : exec (r.2 x) s = .next (runOp r.1 x s) :=
  exec_row x s r (List.mem_append_left _ row)

/-- Settles O39: NOP ends at its take, the others at the poll of their die. -/
theorem jobsWithoutEngineEnd : Obligations.JobsWithoutEngineEnd := by
  unfold Obligations.JobsWithoutEngineEnd
  intro x s
  dsimp only
  refine ⟨fun takes known passed => ?_, fun f takes known fails => ?_, fun polled => ?_, fun polled => ?_, fun r row other polled => ?_⟩
  case refine_1 =>
    have row : exec (.nop x) s = .next (runOp 0 x s) := rfl
    rw [row, runOp_takes 0 x s takes, takeJob_nop known, admitJob_of_pass (takenState_there 0) passed, startSource_of_sourceless rfl, nop_go,
      workJob_finish]
    rfl
  case refine_2 =>
    have row : exec (.nop x) s = .next (runOp 0 x s) := rfl
    rw [row, runOp_takes 0 x s takes, takeJob_nop known, admitJob_of_fail (takenState_there 0) fails,
      refuseJob, failJob, workJob_finish]
    rfl
  case refine_3 =>
    intro plain
    refine next_of_poll_finish rfl polled rfl ?_
    generalize polledJob 0x50 x s = v at plain ⊢
    exact stamp_go rfl plain
  case refine_4 =>
    split
    next unknown => exact next_of_poll_finish rfl polled rfl (proof_of_unknown rfl unknown)
    next en known =>
      refine ⟨fun rootless => ⟨fun waits => ?_, fun ended => ?_⟩, fun root rooted => ⟨fun lost => ?_, fun kept stored first => ?_,
        fun kept held first differs => ?_, fun kept held first agrees => ?_⟩⟩
      · exact next_of_poll_rests rfl polled rfl ((proof_of_rootless rfl known rootless).trans (if_pos waits))
          (rests_modJob (p := .wait 2) (fun _ => rfl) (by decide))
      · exact next_of_poll_finish rfl polled rfl ((proof_of_rootless rfl known rootless).trans (if_neg ended))
      · exact next_of_poll_finish rfl polled rfl (proof_of_lost rfl known rooted lost)
      · have go := next_of_poll rfl polled rfl (proof_of_stored rfl known rooted kept stored first)
        rw [pollTo_modJob (p := .source) (fun _ => rfl) nofun] at go
        exact go
      · exact next_of_poll_finish rfl polled rfl ((proof_of_held rfl known rooted kept held first).trans (if_pos differs))
      · exact next_of_poll_finish rfl polled rfl ((proof_of_held rfl known rooted kept held first).trans (if_neg (by rw [agrees]; decide)))
  case refine_5 => rw [runOp_of_workRow row, runOp_polled r.1 x s polled]

end Sys2Proof.Proofs
end

section
/-! PROOFS. The service commands that a lane of the Crown runs (R60 to R62, R73, R264, R265, R303, R306): the way to the lane leaves the job's
descriptor, and the lane ends the operation. From these O40. -/

namespace Sys2Proof.Proofs
open Sys2Proof Sys2Proof.Machine Sys2Proof.Safety

/-! ## The way to a lane leaves every descriptor -/

/-- Every job keeps its descriptor and its queue. -/
def DescsKept (s v : State) : Prop := ∀ i, (getJob v i).d = (getJob s i).d ∧ (getJob v i).ring = (getJob s i).ring

namespace DescsKept

variable {s v w : State}

theorem rfl : DescsKept s s := fun _ => ⟨Eq.refl _, Eq.refl _⟩

theorem trans (first : DescsKept s v) (second : DescsKept v w) : DescsKept s w :=
  fun i => ⟨(second i).1.trans (first i).1, (second i).2.trans (first i).2⟩

theorem of_jobs (same : v.jobs = s.jobs) : DescsKept s v := by
  intro i
  simp only [getJob, same, and_self]

theorem modJob {id : Nat} {f : Job → Job} (kept : ∀ y, (f y).d = y.d ∧ (f y).ring = y.ring) : DescsKept s (Machine.modJob id f s) := by
  cases there : mget s.jobs id with
  | none => exact of_jobs (by simp [Machine.modJob, there])
  | some j =>
    intro i
    by_cases same : i = id
    · subst same
      rw [getJob_of (modJob_job i f s j there), getJob_of there]
      exact kept j
    · simp [Machine.modJob, there, getJob, mget_mset_ne _ _ _ _ same]

theorem foldl {α : Type} {g : State → α → State} (step : ∀ u a, DescsKept u (g u a)) (l : List α) (s : State) : DescsKept s (l.foldl g s) := by
  induction l generalizing s with
  | nil => exact rfl
  | cons a l ih => exact (step s a).trans (ih (g s a))

theorem modDie (d : Nat) (f : Die → Die) : DescsKept s (Machine.modDie d f s) := of_jobs (modDie_jobs _ _ _)

theorem collect (id st info : Nat) (result out : Bytes) (leaf : Option Leaf) : DescsKept s (Machine.collect id st info result out leaf s) := by
  rw [Machine.collect]
  refine trans ?_ (modDie _ _)
  exact modJob fun _ => ⟨Eq.refl _, Eq.refl _⟩

theorem enterLane (die lane id : Nat) (f : Machine.Unit → Machine.Unit) : DescsKept s (Machine.enterLane die lane id f s) := by
  simp only [Machine.enterLane, modLane]
  refine trans ?_ (modJob fun _ => ⟨Eq.refl _, Eq.refl _⟩)
  refine trans ?_ ((modDie _ _).trans (modDie _ _))
  split
  · exact of_jobs (DiesOnly.internalGen _ _ _ _ _).jobs
  · exact rfl

theorem runOn (die lane id : Nat) : DescsKept s (Machine.runOn die lane id s) := by
  rw [Machine.runOn]
  exact trans (of_jobs (countOn_jobs _ _ _ _ _)) (enterLane _ _ _ _)

theorem noteShort (die : Nat) : DescsKept s (Machine.noteShort die s) := by
  rw [Machine.noteShort]
  refine foldl (fun u i => ?_) _ _
  exact modJob fun _ => ⟨Eq.refl _, Eq.refl _⟩

theorem startLanes (die : Nat) : DescsKept s (Machine.startLanes die s) := by
  rw [Machine.startLanes]
  split
  · exact rfl
  · refine (noteShort die).trans (foldl (fun u l => ?_) _ _)
    split
    · split
      · exact runOn die l _
      · exact rfl
    · exact rfl

theorem queueLane (id : Nat) : DescsKept s (Machine.queueLane id s) := by
  simp only [Machine.queueLane]
  split
  · exact collect id stRetry 0 [] [] none
  · exact (modDie _ _).trans (startLanes _)

theorem laneGo (id : Nat) : DescsKept s (Machine.laneGo id s) := by
  rw [Machine.laneGo]
  refine trans ?_ (queueLane id)
  exact modJob fun _ => ⟨Eq.refl _, Eq.refl _⟩

end DescsKept

/-! ## At the lane -/

section AtLane

variable {op id lane : Nat} {x : Sub} {s a e v : State} {o : Host.Outcome State Fault Refusal}

/-- A lane's work of a job that is not the device's own ends with its operation's end. -/
theorem endWork_of_lane (phase : (getJob e id).phase = .engine) (held : laneOf e id = some lane) (opcode : (getJob e id).d.op = op)
    (queued : (getJob e id).ring ≠ ownRing) : endWork id e = (semOf op).fin id e := by
  simp only [endWork, phase, if_true, held, laneDone, laneOf_job _ _ _ held, Bool.not_true, Bool.false_and, Bool.false_eq_true, if_false, queued, opcode]

theorem workJob_of_engine (phase : (getJob e id).phase = .engine) (x : Sub) : workJob id x e = endWork id e := by
  have unpolled : pollTo id 64 e = e := by
    apply pollTo_quiet
    cases there : mget e.jobs id with
    | none => rfl
    | some j => simp [← getJob_of there, phase]
  have fed : feed id x e = e := by simp [feed, phase]
  rw [workJob, unpolled, fed]

/-- The opcodes of service queues are no opcodes of the device's own signatures. -/
theorem ring_ne_own {ring : Nat} (service : 0x80 ≤ op ∧ op < 0xC0) (known : opAccepted op ring = true) : ring ≠ ownRing := by
  intro own
  subst own
  have kind := (Bool.and_eq_true_iff.mp known).2
  rw [if_neg (by omega), if_pos service.2] at kind
  exact absurd kind (by decide)

theorem sourceHeld_ring : (getJob (sourceHeld op x s) (jobOf x s)).ring = x.q.ring := by
  have ring := (admission0_job op x s).2.2.2.1
  have held := sourceHeld_job op x s
  generalize admittedJobOf op x s = j at ring held
  exact held.elim fun _ there => by rw [getJob_of there, ← ring]

theorem begins_ring (begins : Begins op x s a) : (getJob a (jobOf x s)).ring = x.q.ring :=
  begins_cases (P := fun a => (getJob a (jobOf x s)).ring = x.q.ring) begins (fun _ => (admission0_job op x s).2.2.2.1) fun _ => sourceHeld_ring

theorem begins_known (begins : Begins op x s a) : opAccepted op x.q.ring = true :=
  begins.elim (fun plain => plain.1.1.2.2.1) (fun sourced => sourced.1.1.2.2.1)

/-- A command that goes to a free lane ends there. -/
theorem next_of_lane (begins : Begins op x s a) (service : 0x80 ≤ op ∧ op < 0xC0) {fin : Nat → State → State}
    (row : o = .next (runOp op x s)) (sem : (semOf op).fin = fin) (go : (semOf op).go (jobOf x s) a = laneGo (jobOf x s) a)
    (runs : (getJob (laneGo (jobOf x s) a) (jobOf x s)).phase = .engine ∧ laneOf (laneGo (jobOf x s) a) (jobOf x s) = some lane)
    (result : fin (jobOf x s) (laneGo (jobOf x s) a) = v) : o = .next (ended x s v) := by
  have small : op < 256 := by omega
  have kept := DescsKept.laneGo (s := a) (jobOf x s) (jobOf x s)
  have ends := endWork_of_lane (op := op) runs.1 runs.2 (by rw [kept.1]; exact begins_op begins small)
    (by rw [kept.2, begins_ring begins]; exact ring_ne_own service (begins_known begins))
  rw [sem, result] at ends
  rw [← ends]
  exact begins_cases (P := fun a => (semOf op).go (jobOf x s) a = laneGo (jobOf x s) a → (getJob (laneGo (jobOf x s) a) (jobOf x s)).phase = .engine →
      o = .next (ended x s (endWork (jobOf x s) (laneGo (jobOf x s) a)))) begins
    (fun accepted go phase => (next_of_accepted row small accepted go).trans (by rw [workJob_of_engine phase]))
    (fun accepted go _ => next_of_sourced row small accepted go) go runs.1

end AtLane

/-! ## The ends of the four commands -/

section LaneEnds

variable {id lane : Nat} {s : State} {j : Job}

/-- R60 to R62, R73: a beacon that fails a check. -/
theorem beaconFin_of_fail {f : Fail} (held : laneOf s id = some lane) (job : getJob s id = j)
    (fails : inOrder (beaconFails (freeLane id s) j.auths j.src j.admAt) = some f) :
    beaconFin id s = finishJob id f.st f.info [] [] (freeLane id s) := by
  subst job
  simp only [beaconFin, held, fails, failJob]

theorem beaconFin_of_mismatch (held : laneOf s id = some lane) (job : getJob s id = j)
    (passed : inOrder (beaconFails (freeLane id s) j.auths j.src j.admAt) = none) (mismatch : labelAgrees (freeLane id s) j.src j.admAt = false) :
    let v := freeLane id s
    beaconFin id s = finishJob id stInput 7 [] []
      (refreshTrust { v with time := { v.time with reasons := { v.time.reasons with labelMismatch := true } } }) := by
  subst job
  simp only [beaconFin, held, passed, mismatch, Bool.not_false, if_true, modTime]

theorem beaconFin_of_good (held : laneOf s id = some lane) (job : getJob s id = j)
    (passed : inOrder (beaconFails (freeLane id s) j.auths j.src j.admAt) = none) (agrees : labelAgrees (freeLane id s) j.src j.admAt = true) :
    let v := freeLane id s
    let w := refreshTrust (applyBeacon j.src j.admAt v)
    let o := okJob id (leBytes 6 (beaconSec j.src) ++ [byte w.time.st.num, byte w.time.reasons.num]) [] w
    beaconFin id s = if acquired v then o else acquire o := by
  subst job
  simp only [beaconFin, held, passed, agrees, Bool.not_true, Bool.false_eq_true, if_false, TimeSt.num]
  generalize refreshTrust (applyBeacon (getJob s id).src (getJob s id).admAt (freeLane id s)) = w
  cases acquired (freeLane id s) <;> rfl

/-- R264, R265: the curve of a load. -/
theorem curveLoadFin_eq (held : laneOf s id = some lane) (job : getJob s id = j) :
    let bp := blindBases 64 s
    let bn := blindBases 64 bp.2
    let v := freeLane id bn.2
    let tf := j.d.targetField
    let T := if tf = 0 then s.time.epoch + 2 else tf
    let n := j.d.f 32 1
    curveLoadFin id s = match curveCheck j.src bp.1 bn.1 with
      | some i => finishJob id stInput i [] [] v
      | none =>
        if loadPending s j = true ∨ (mget (bankAt s T).curves (j.tenant * 16 + n)).isSome = true then finishJob id stInput 0xC5 [] [] v
        else if tf ≠ 0 ∧ tf < s.time.epoch + 2 then finishJob id stInput 0xFD [] [] v
        else acceptFenced id T [.curve j.tenant n j.src] v := by
  subst job
  simp only [curveLoadFin, held, Bool.or_eq_true]
  rfl

theorem createKeyFin_eq (held : laneOf s id = some lane) :
    createKeyFin id s = if internalShort (freeLane id s) 0 0 then awaitEntropy id (freeLane id s) else createKeyNow id (freeLane id s) := by
  simp only [createKeyFin, held]
  rfl

theorem rotateFin_eq (held : laneOf s id = some lane) :
    rotateFin id s = if internalShort (freeLane id s) 0 0 then awaitEntropy id (freeLane id s) else rotateNow id (freeLane id s) := by
  simp only [rotateFin, held]
  rfl

/-! ## The ways to the lane -/

theorem beacon_go (id : Nat) (s : State) : (semOf 0x90).go id s = laneGo id s := rfl

theorem curveLoadGo_of_reserved {i : Nat} (job : getJob s id = j) (bad : firstNonzero j.src (span 4 15) = some i) :
    (semOf 0xB0).go id s = finishJob id stInput i [] [] s := by
  subst job
  change curveLoadGo id s = _
  simp only [curveLoadGo, bad]

theorem curveLoadGo_of_good (job : getJob s id = j) (good : firstNonzero j.src (span 4 15) = none) :
    (semOf 0xB0).go id s = if internalShort s 0 2 then awaitEntropy id s else laneGo id s := by
  subst job
  change curveLoadGo id s = _
  simp only [curveLoadGo, good]
  rfl

/-- R303: an RSA key is generated on a lane. -/
theorem createKeyGo_of_rsa (job : getJob s id = j) (len : firstFail (createKeyLen s j j.src.length) = none) (seeded : internalShort s 0 0 = false)
    (opcode : j.d.op = 0x81) (wide : 0x10 ≤ j.d.f 32 1) (rsa : j.d.f 33 1 = 6) : (semOf 0x81).go id s = laneGo id s := by
  subst job
  change createKeyGo id s = _
  simp only [createKeyGo, len, createKeyRng, opcode, wide, rsa, and_self, if_true, withRng, withInternal, seeded, Bool.false_eq_true, if_false]

/-- R306: a generated RSA key is rotated on a lane. -/
theorem rotateGo_of_rsa {k : KeySlot} (slot : slotOf (crownBank s) (getJob s id).d.handle = k) (ours : k.flags.testBit 1 = false) (plain : k.flags.testBit 2 = false)
    (generated : k.origin = 2) (wide : k.wide = true) (rsa : k.alg = 6) (seeded : internalShort s 0 0 = false) : (semOf 0x84).go id s = laneGo id s := by
  change rotateGo id s = _
  simp [rotateGo, slot, ours, plain, generated, wide, rsa, rotateRng, derivedKey, withRng, withInternal, seeded]

end LaneEnds

/-- Settles O40: each command begins at its admission or with its source held, goes to a lane of the Crown and ends there. -/
theorem laneCommandsEnd : Obligations.LaneCommandsEnd := by
  unfold Obligations.LaneCommandsEnd
  intro x s lane
  dsimp only
  refine ⟨fun accepted runs => ?_, fun accepted => ⟨fun i bad => ?_, fun good short => ?_, fun good seeded runs => ⟨?_, fun fresh full => ?_, fun fresh room => ?_⟩⟩,
    fun accepted len seeded wide rsa runs => ?_, fun a begins ours plain generated wide rsa seeded runs => ?_⟩
  case refine_1 =>
    have begins : Begins 0x90 x s (sourceHeld 0x90 x s) := .inr ⟨accepted, rfl⟩
    refine ⟨fun f fails => ?_, fun passed mismatch => ?_, fun passed agrees => ?_⟩
    · refine next_of_lane begins (by decide) rfl rfl (beacon_go _ _) runs ?_
      generalize laneGo (jobOf x s) (sourceHeld 0x90 x s) = e at runs fails ⊢
      exact beaconFin_of_fail runs.2 rfl fails
    · refine next_of_lane begins (by decide) rfl rfl (beacon_go _ _) runs ?_
      generalize laneGo (jobOf x s) (sourceHeld 0x90 x s) = e at runs passed mismatch ⊢
      exact beaconFin_of_mismatch runs.2 rfl passed mismatch
    · refine next_of_lane begins (by decide) rfl rfl (beacon_go _ _) runs ?_
      generalize laneGo (jobOf x s) (sourceHeld 0x90 x s) = e at runs passed agrees ⊢
      exact beaconFin_of_good runs.2 rfl passed agrees
  case refine_2 => exact next_of_sourced_finish rfl (by decide) accepted (curveLoadGo_of_reserved rfl bad)
  case refine_3 =>
    exact next_of_sourced_rests rfl (by decide) accepted ((curveLoadGo_of_good rfl good).trans (if_pos short)) rests_awaitEntropy
  case refine_4 =>
    have begins : Begins 0xB0 x s (sourceHeld 0xB0 x s) := .inr ⟨accepted, rfl⟩
    refine next_of_lane begins (by decide) rfl rfl ((curveLoadGo_of_good rfl good).trans (if_neg (by rw [seeded]; decide))) runs ?_
    generalize laneGo (jobOf x s) (sourceHeld 0xB0 x s) = e at runs ⊢
    exact curveLoadFin_eq runs.2 rfl
  case refine_5 => exact acceptFenced_full fresh full
  case refine_6 => exact acceptFenced_room _ _ _ _ fresh room
  case refine_7 =>
    have begins : Begins 0x81 x s (admission0 0x81 x s) := .inl ⟨accepted, rfl⟩
    have bits : (getJob (admission0 0x81 x s) (jobOf x s)).d.f 32 1 = x.d.f 32 1 := begins_f begins (by decide) (by decide)
    have alg : (getJob (admission0 0x81 x s) (jobOf x s)).d.f 33 1 = x.d.f 33 1 := begins_f begins (by decide) (by decide)
    rw [← bits] at wide
    rw [← alg] at rsa
    refine next_of_lane begins (by decide) rfl rfl (createKeyGo_of_rsa rfl len seeded (begins_op begins (by decide)) wide rsa) runs ?_
    generalize laneGo (jobOf x s) (admission0 0x81 x s) = e at runs ⊢
    exact createKeyFin_eq runs.2
  case refine_8 =>
    have begins : Begins 0x84 x s a := begins
    have handle : (getJob a (jobOf x s)).d.handle = x.d.handle := begins_f begins (by decide) (by decide)
    refine next_of_lane begins (by decide) rfl rfl (rotateGo_of_rsa (by rw [handle]) ours plain generated wide rsa seeded) runs ?_
    generalize laneGo (jobOf x s) a = e at runs ⊢
    exact rotateFin_eq runs.2

end Sys2Proof.Proofs
end

section
/-! PROOFS. The staging of fenced changes and the boundary (R37, R71, R74, R77, R90, R463). From these O50. -/

namespace Sys2Proof.Proofs
open Sys2Proof Sys2Proof.Machine Sys2Proof.Safety

/-! ## The target at the front of the schedule (R37) -/

section Front

variable {u : State} {f : FenceTarget} {fs : List FenceTarget} {tgt : Nat}

theorem stagingAck_of_able {die : Nat} (front : u.fence = f :: fs) (target : f.target = tgt) (staging : f.staging = true)
    (live : (getDie u die).live = true) (able : mayStage u die f = true) :
    let v := modDie die (fun d => { d with staged := some { target := tgt, confirmed := false, changes := f.changes } }) u
    stagingAck die tgt u = settleStaging { v with fence := { f with acks := insertNat f.acks die } :: fs } := by
  simp [stagingAck, front, target, staging, live, able]

theorem stagingAck_of_unable {die : Nat} (front : u.fence = f :: fs) (unable : f.staging = false ∨ (getDie u die).live = false ∨ mayStage u die f = false) :
    stagingAck die tgt u = u := by
  rcases unable with off | off | off <;> simp [stagingAck, front, off]

theorem confirmFlit_of_front {die : Nat} (front : u.fence = f :: fs) (target : f.target = tgt) :
    confirmFlit die tgt u = if f.confirmed = true then modDie die (fun d => { d with staged := match d.staged with
      | some g => if g.target = tgt then some { g with confirmed := true } else some g
      | none => none }) u else u := by
  simp only [confirmFlit, front, target, decide_true, Bool.and_true] <;> rfl

/-- The instant 10 µs before the boundary has come for a target in staging. -/
def FenceDue (u : State) (f : FenceTarget) (tgt : Nat) : Prop := f.staging = true ∧ acquired u = true ∧ boundaryAt u tgt ≤ u.time.now + 10000

theorem fenceDue_iff (target : f.target = tgt) :
    (!(f.staging && f.target = tgt && acquired u) || boundaryAt u tgt > u.time.now + 10000) = true ↔ ¬ FenceDue u f tgt := by
  simp only [FenceDue, target, decide_true, Bool.and_true, Bool.or_eq_true, Bool.not_eq_true', Bool.and_eq_false_iff, decide_eq_true_eq]
  cases f.staging <;> cases acquired u <;> simp

theorem fenceConfirm_of_early (front : u.fence = f :: fs) (target : f.target = tgt) (early : ¬ FenceDue u f tgt) : fenceConfirm tgt u = u := by
  simp only [fenceConfirm, front, if_pos ((fenceDue_iff target).mpr early)]

theorem fenceConfirm_of_unstaged (front : u.fence = f :: fs) (target : f.target = tgt) (due : FenceDue u f tgt)
    (unstaged : f.acks.contains 0 = false ∨ (getDie u 0).mandrel.kw.st ≠ 0) : fenceConfirm tgt u = withdrawTarget tgt u := by
  have now := mt (fenceDue_iff target).mp (not_not.mpr due)
  have unstaged' : (!f.acks.contains 0) = true ∨ (getDie u 0).mandrel.kw.st ≠ 0 := unstaged.imp_left fun h => by rw [h]; rfl
  simp only [fenceConfirm, front, if_neg now, if_pos unstaged']

theorem fenceConfirm_of_staged (front : u.fence = f :: fs) (target : f.target = tgt) (due : FenceDue u f tgt) (staged : f.acks.contains 0 = true)
    (runs : (getDie u 0).mandrel.kw.st = 0) :
    let v := urgentAll 5 tgt (((liveDies u).filter fun d => !f.acks.contains d).foldl (fun s d => fenceDie d 4 s) u)
    fenceConfirm tgt u = settleStaging { v with fence := v.fence.map fun (g : FenceTarget) => if g.target = tgt then { g with confirmed := true } else g } := by
  have now := mt (fenceDue_iff target).mp (not_not.mpr due)
  have able : ¬ ((!f.acks.contains 0) = true ∨ (getDie u 0).mandrel.kw.st ≠ 0) := by simp only [staged, runs]; decide
  simp only [fenceConfirm, front, if_neg now, if_neg able]

/-- Another target than the one at the front is neither staged nor confirmed. -/
theorem front_of_other (other : u.fence.head?.filter (·.target = tgt) = none) : u.fence = [] ∨ ∃ f fs, u.fence = f :: fs ∧ f.target ≠ tgt := by
  cases front : u.fence with
  | nil => exact .inl rfl
  | cons f fs =>
    refine .inr ⟨f, fs, rfl, ?_⟩
    simpa [front, Option.filter] using other

theorem stagingAck_of_other {die : Nat} (other : u.fence.head?.filter (·.target = tgt) = none) : stagingAck die tgt u = u := by
  rcases front_of_other other with none | ⟨f, fs, front, target⟩ <;> simp [stagingAck, *]

theorem confirmFlit_of_other {die : Nat} (other : u.fence.head?.filter (·.target = tgt) = none) : confirmFlit die tgt u = u := by
  rcases front_of_other other with none | ⟨f, fs, front, target⟩ <;> simp [confirmFlit, *]

theorem fenceConfirm_of_other (other : u.fence.head?.filter (·.target = tgt) = none) : fenceConfirm tgt u = u := by
  rcases front_of_other other with none | ⟨f, fs, front, target⟩ <;> simp [fenceConfirm, *]

end Front

/-! ## The boundary (R71, R74, R77, R463) -/

section Boundary

variable {t : Nat} {s : State}

/-- The advance of the count at the boundary, before the work of R77. -/
def countAdvanced (s : State) : State :=
  let b := s.time.epoch + 1
  let v := refreshTrust (flushOow (setNow (max s.time.now (boundaryAt s b)) s))
  syncPair b { v with time := { v.time with epoch := b } }

theorem epochBoundary_of_early (early : acquired s = false ∨ max s.time.now t < boundaryAt s (s.time.epoch + 1)) : epochBoundary t s = tick t s := by
  have early' : (!acquired s) = true ∨ max s.time.now t < boundaryAt s (s.time.epoch + 1) := early.imp_left fun h => by rw [h]; rfl
  simp only [epochBoundary, if_pos early']

theorem epochBoundary_of_due (time : acquired s = true) (due : boundaryAt s (s.time.epoch + 1) ≤ max s.time.now t) :
    epochBoundary t s = if s.pwrState = 2 ∨ s.pwrState = 3 then countAdvanced s
      else boundaryWork (s.time.epoch + 1) (fun t => ledgerPolicy s t = 3) (countAdvanced s) := by
  have now : ¬ ((!acquired s) = true ∨ max s.time.now t < boundaryAt s (s.time.epoch + 1)) := by
    rw [time]
    exact not_or.mpr ⟨by decide, not_lt.mpr due⟩
  simp only [epochBoundary, if_neg now, countAdvanced]

end Boundary

/-- Settles O50: each event is its operation on the state at its instant, by the target at the front and by the boundary's instant. -/
theorem fenceAndBoundary : Obligations.FenceAndBoundary := by
  unfold Obligations.FenceAndBoundary
  intro t s
  dsimp only
  have ack (die tgt) : exec (.stagingAck t die tgt) s = .next (stagingAck die tgt (tick t s)) := rfl
  have flit (die tgt) : exec (.confirmFlit t die tgt) s = .next (confirmFlit die tgt (tick t s)) := rfl
  have confirm (tgt) : exec (.fenceConfirm t tgt) s = .next (fenceConfirm tgt (tick t s)) := rfl
  have boundary : exec (.epochBoundary t) s = .next (epochBoundary t s) := rfl
  refine ⟨fun die tgt => ⟨fun f fs front target => ⟨fun staging live able => ?_, fun unable => ?_, ?_, fun early => ?_, fun due unstaged => ?_,
    fun due staged runs => ?_⟩, fun other => ⟨?_, ?_, ?_⟩⟩, fun early => ?_, fun time due => ⟨fun retained => ?_, fun awake asleep => ?_⟩⟩
  · rw [ack, stagingAck_of_able front target staging live able]
  · rw [ack, stagingAck_of_unable front unable]
  · exact (flit die tgt).trans (congrArg _ (confirmFlit_of_front front target))
  · rw [confirm, fenceConfirm_of_early front target early]
  · rw [confirm, fenceConfirm_of_unstaged front target due unstaged]
  · rw [confirm, fenceConfirm_of_staged front target due staged runs]
  · rw [ack, stagingAck_of_other other]
  · rw [flit, confirmFlit_of_other other]
  · rw [confirm, fenceConfirm_of_other other]
  · rw [boundary, epochBoundary_of_early early]
  · rw [boundary, epochBoundary_of_due time due, if_pos retained]
    rfl
  · rw [boundary, epochBoundary_of_due time due, if_neg (not_or.mpr ⟨awake, asleep⟩)]
    rfl

end Sys2Proof.Proofs
end

section
/-! PROOFS. What fences a die, what a memory error does, and the Crown's fault (R31, R32, R39, R48, R51, R52, R119). From these O42. -/

namespace Sys2Proof.Proofs
open Sys2Proof Sys2Proof.Machine Sys2Proof.Safety Sys2Proof.Laws

/-! ## Fencing (R31, R32, R39) -/

section Fencing

variable {die : Nat} {u : State}

theorem fenceDie_of_out {cause : Nat} (out : die = 0 ∨ (getDie u die).live = false) : fenceDie die cause u = u := by
  rcases out with crown | dead <;> simp [fenceDie, *]

theorem fenceDie_of_live {cause : Nat} (brim : die ≠ 0) (live : (getDie u die).live = true) :
    fenceDie die cause u = settleAll ((leavesOf u die).foldl (fun s l => fenceOne l 5 s) (fenceOne die cause u)) := by
  simp [fenceDie, brim, live]

/-- What a die that hears nothing more does to itself: it halts, and its keys, its replica and its queues are gone. -/
def selfHalted (d : Die) : Die :=
  { d with
    halted := true, held := [], bank := { d.bank with slots := [] }
    cores := d.cores.map fun c => { c with cache := [], job := none }
    lanes := d.lanes.map fun u => { u with job := none, susp := none, key := [], suspKey := [], blind := [], suspBlind := [] }
    macQ := [], rq := [], fetching := [], ringP := [], ringG := [], collector := [] }

/-- No upstream flit for 24 µs. -/
def UpstreamLate (u : State) (die : Nat) : Prop := die ≠ 0 ∧ die < u.dies.length ∧ (getBand u die 0).lastRx + 24000 ≤ u.time.now

theorem upstreamLate_iff : ¬ UpstreamLate u die ↔ die = 0 ∨ u.dies.length ≤ die ∨ u.time.now < (getBand u die 0).lastRx + 24000 := by
  simp only [UpstreamLate]
  omega

theorem upstreamTimeout_of_heard (heard : ¬ UpstreamLate u die) : upstreamTimeout die u = u := by
  rw [upstreamTimeout, if_pos (upstreamLate_iff.mp heard)]

theorem upstreamTimeout_of_late (late : UpstreamLate u die) : upstreamTimeout die u = modDie die selfHalted (fenceDie die 0 u) := by
  rw [upstreamTimeout, if_neg fun heard => upstreamLate_iff.mpr heard late]
  rfl

theorem selfHalted_cores (d : Die) : ∀ c ∈ (selfHalted d).cores, c.cache = [] ∧ c.job = none := by
  intro c member
  obtain ⟨b, -, rfl⟩ := List.mem_map.mp member
  exact ⟨rfl, rfl⟩

theorem selfHalted_lanes (d : Die) : ∀ c ∈ (selfHalted d).lanes, c.key = [] ∧ c.suspKey = [] ∧ c.job = none ∧ c.susp = none := by
  intro c member
  obtain ⟨b, -, rfl⟩ := List.mem_map.mp member
  exact ⟨rfl, rfl, rfl, rfl⟩

end Fencing

/-! ## Memory errors (R48, R51) -/

section MemoryErrors

variable {t die errors stored code unit addr : Nat} {s : State}

theorem memoryError_eq : exec (.memoryError t die ⟨errors, stored⟩ code unit addr) s =
    .next (if code = 8 ∧ (!wordCorrected errors stored addr) = true ∧ die = 0 then worldMemory unit (memoryError die errors stored code unit addr (tick t s))
      else memoryError die errors stored code unit addr (tick t s)) := rfl

theorem wordCorrected_iff : wordCorrected errors stored addr = true ↔ errors ≤ 2 ∧ stored = addr := by simp [wordCorrected]

theorem memoryError_of_corrected (there : die < (tick t s).dies.length) (good : errors ≤ 2 ∧ stored = addr) (wrong : errors ≠ 0) :
    exec (.memoryError t die ⟨errors, stored⟩ code unit addr) s = .next (countOn die 0x0C 0 1 (tick t s)) := by
  have corrected := wordCorrected_iff.mpr good
  rw [memoryError_eq, corrected, if_neg (by simp), memoryError, if_neg (by omega), if_pos corrected]

theorem memoryError_of_none (none : (die ≠ 0 ∧ (tick t s).dies.length ≤ die) ∨ (errors ≤ 2 ∧ stored = addr) ∧ errors = 0) :
    exec (.memoryError t die ⟨errors, stored⟩ code unit addr) s = .next (tick t s) := by
  have nothing : (tick t s).dies.length ≤ die ∨ errors = 0 ∧ stored = addr :=
    none.imp (·.2) fun h => ⟨h.2, h.1.2⟩
  have elsewhere : ¬ (code = 8 ∧ (!wordCorrected errors stored addr) = true ∧ die = 0) := by
    rintro ⟨-, wrong, crown⟩
    rcases none with ⟨brim, -⟩ | ⟨good, -⟩
    · exact brim crown
    · rw [wordCorrected_iff.mpr good] at wrong
      cases wrong
  rw [memoryError_eq, if_neg elsewhere, memoryError, if_pos nothing]

/-- An error that is not corrected, as it is counted and recorded. -/
def memoryRecorded (die code addr : Nat) (u : State) : State :=
  recEventAt die 0 0x0B02 (byte code :: zeros 7 ++ leBytes 8 addr) (modDie die (fun d => { d with memErrors := d.memErrors + 1 }) u)

theorem memoryError_of_wrong {u : State} (there : die < u.dies.length) (wrong : ¬ (errors ≤ 2 ∧ stored = addr)) :
    memoryError die errors stored code unit addr u =
      let r := memoryRecorded die code addr u
      if code = 0 then settleAll (if unit < 16 then coreFault die 0 unit r else if unit < 22 then coreFault die 1 (unit - 16) r else coreFault die 2 (unit - 22) r)
      else if code = 1 then (if die = 0 ∨ !(getDie r die).live then r else modDie die (fun d => { d with refetch := insertNat d.refetch unit }) r)
      else if code = 2 then (if die = 0 then settleAll (slotLost unit r) else r)
      else if 3 ≤ code ∧ code ≤ 7 then (if die = 0 then crownFail addr r else r)
      else if code = 9 ∨ code = 10 then fenceDie die 2 r
      else r := by
  have uncorrected : ¬ wordCorrected errors stored addr = true := mt wordCorrected_iff.mp wrong
  rw [memoryError, if_neg (by omega), if_neg uncorrected]
  rfl

section Places

variable {u : State} (there : die < u.dies.length) (wrong : ¬ (errors ≤ 2 ∧ stored = addr))
include there wrong

theorem memoryError_of_engine : memoryError die errors stored 0 unit addr u =
    let r := memoryRecorded die 0 addr u
    settleAll (if unit < 16 then coreFault die 0 unit r else if unit < 22 then coreFault die 1 (unit - 16) r else coreFault die 2 (unit - 22) r) := by
  rw [memoryError_of_wrong there wrong]
  exact if_pos rfl

theorem memoryError_of_replica (brim : die ≠ 0) (live : (getDie (memoryRecorded die 1 addr u) die).live = true) :
    memoryError die errors stored 1 unit addr u = modDie die (fun d => { d with refetch := insertNat d.refetch unit }) (memoryRecorded die 1 addr u) := by
  rw [memoryError_of_wrong there wrong]
  simp [brim, live]

theorem memoryError_of_slot (crown : die = 0) : memoryError die errors stored 2 unit addr u = settleAll (slotLost unit (memoryRecorded die 2 addr u)) := by
  rw [memoryError_of_wrong there wrong]
  exact if_pos crown

theorem memoryError_of_crown (low : 3 ≤ code) (high : code ≤ 7) (crown : die = 0) :
    memoryError die errors stored code unit addr u = crownFail addr (memoryRecorded die code addr u) := by
  rw [memoryError_of_wrong there wrong]
  simp only [if_neg (show ¬ code = 0 by omega), if_neg (show ¬ code = 1 by omega), if_neg (show ¬ code = 2 by omega), if_pos (And.intro low high), if_pos crown]

theorem memoryError_of_die (place : code = 9 ∨ code = 10) : memoryError die errors stored code unit addr u = fenceDie die 2 (memoryRecorded die code addr u) := by
  rw [memoryError_of_wrong there wrong]
  simp only [if_neg (show ¬ code = 0 by omega), if_neg (show ¬ code = 1 by omega), if_neg (show ¬ code = 2 by omega),
    if_neg (show ¬ (3 ≤ code ∧ code ≤ 7) by omega), if_pos place]

theorem memoryError_of_image : memoryError die errors stored 8 unit addr u = memoryRecorded die 8 addr u := by
  rw [memoryError_of_wrong there wrong]
  rfl

end Places

/-- Away from the memory of a world the error acts where it is. -/
theorem memoryError_of_place (place : code ≠ 8) :
    exec (.memoryError t die ⟨errors, stored⟩ code unit addr) s = .next (memoryError die errors stored code unit addr (tick t s)) := by
  rw [memoryError_eq, if_neg fun h => place h.1]

theorem memoryError_of_world (there : die < (tick t s).dies.length) (wrong : ¬ (errors ≤ 2 ∧ stored = addr)) (crown : die = 0) :
    exec (.memoryError t die ⟨errors, stored⟩ 8 unit addr) s = .next (worldMemory unit (memoryRecorded die 8 addr (tick t s))) := by
  have uncorrected : (!wordCorrected errors stored addr) = true := by
    rw [Bool.not_eq_true', Bool.eq_false_iff]
    exact mt wordCorrected_iff.mp wrong
  rw [memoryError_eq, if_pos ⟨rfl, uncorrected, crown⟩, memoryError_of_image there wrong]

end MemoryErrors

/-! ## The Crown's fault stops every ring (R52) -/

section Rings

variable {s : State}

/-- No queue of a function runs. -/
def NoneRuns (s : State) (f : Nat) : Prop := ∀ q ∈ (getFn s f).queues, q.2.st ≠ .running

theorem queues_signal (n v f : Nat) (s : State) : (getFn (signal n v s) f).queues = (getFn s f).queues := by
  by_cases same : f = n
  · subst same
    obtain ⟨m, eq⟩ := getFn_signal_same f v s
    rw [eq]
  · rw [getFn_signal_ne same]

theorem queues_raiseFnEvent (i f : Nat) (s : State) : (getFn (raiseFnEvent i s) f).queues = (getFn s f).queues := by
  unfold raiseFnEvent
  split
  · rfl
  · rw [queues_signal]
    rfl

/-- A queue of a function whose rings stop. -/
def stoppedQueue (q : Queue) : Queue := if q.st = .running then { q with st := .stopped, copies := [], failAt := none, hold := none } else q

theorem stoppedQueue_stops (q : Queue) : (stoppedQueue q).st ≠ .running := by
  unfold stoppedQueue
  split
  · exact nofun
  · assumption

theorem queues_stopQueues (fn f : Nat) : (getFn (stopQueues fn s) f).queues = (getFn s f).queues
    ∨ f = fn ∧ (getFn (stopQueues fn s) f).queues = mmap (fun _ q => stoppedQueue q) (getFn s f).queues := by
  unfold stopQueues
  split
  next running =>
    rw [queues_raiseFnEvent, queues_signal]
    by_cases same : f = fn
    · subst same
      exact .inr ⟨rfl, by rw [getFn_modFn_same]; rfl⟩
    · exact .inl (by rw [getFn_modFn_ne _ _ _ _ same])
  next none => exact .inl rfl

theorem noneRuns_mmap {l : KMap Queue} : ∀ q ∈ mmap (fun _ q => stoppedQueue q) l, q.2.st ≠ .running := by
  intro q member
  obtain ⟨p, -, rfl⟩ := mem_mmap member
  exact stoppedQueue_stops p.2

theorem noneRuns_stopQueues_same (f : Nat) : NoneRuns (stopQueues f s) f := by
  by_cases running : ((getFn s f).queues.any fun q => q.2.st = .running) = true
  · have stopped : (getFn (stopQueues f s) f).queues = mmap (fun _ q => stoppedQueue q) (getFn s f).queues := by
      rw [stopQueues, if_pos running, queues_raiseFnEvent, queues_signal, getFn_modFn_same]
      rfl
    rw [NoneRuns, stopped]
    exact noneRuns_mmap
  · rw [NoneRuns, stopQueues, if_neg running]
    intro q member
    simpa using List.any_eq_false.mp (Bool.eq_false_iff.mpr running) q member

theorem noneRuns_stopQueues {fn f : Nat} (stopped : NoneRuns s f) : NoneRuns (stopQueues fn s) f := by
  rcases queues_stopQueues (s := s) fn f with kept | ⟨-, mapped⟩
  · rw [NoneRuns, kept]
    exact stopped
  · rw [NoneRuns, mapped]
    exact noneRuns_mmap

theorem noneRuns_foldl {l : KMap FnState} {f : Nat} (stopped : NoneRuns s f ∨ ∃ p ∈ l, p.1 = f) :
    NoneRuns (l.foldl (fun s p => stopQueues p.1 s) s) f := by
  induction l generalizing s with
  | nil => exact stopped.elim id fun ⟨_, member, _⟩ => nomatch member
  | cons p l ih =>
    refine ih ?_
    rcases stopped with stopped | ⟨r, member, named⟩
    · exact .inl (noneRuns_stopQueues stopped)
    · rcases List.mem_cons.mp member with first | later
      · subst first
        subst named
        exact .inl (noneRuns_stopQueues_same _)
      · exact .inr ⟨r, later, named⟩

theorem noneRuns_stopAll (f : Nat) : NoneRuns (s.fns.foldl (fun s p => stopQueues p.1 s) s) f := by
  apply noneRuns_foldl
  cases known : mget s.fns f with
  | none => exact .inl (by simp [NoneRuns, getFn, known])
  | some x => exact .inr ⟨_, mem_of_mget known, rfl⟩

theorem noneRuns_aerError {fn cls addr f : Nat} (stopped : NoneRuns s f) : NoneRuns (aerError fn cls addr s) f := by
  have queues : (getFn (aerError fn cls addr s) f).queues = (getFn s f).queues := by
    simp only [aerError]
    have before : getFn (emit (.aer fn cls) (recEvent 0x0204 (leBytes 2 fn ++ zeros 6 ++ leBytes 8 addr) s)) f = getFn s f :=
      getFn_eq_of_fns (by simp) f
    by_cases same : f = fn
    · subst same
      rw [getFn_modFn_same, before]
    · rw [getFn_modFn_ne _ _ _ _ same, before]
  rw [NoneRuns, queues]
  exact stopped

theorem crownFail_of_faulted {addr : Nat} (faulted : s.crownFault = true) : crownFail addr s = s := by simp [crownFail, faulted]

theorem crownFail_of_first {addr : Nat} (first : s.crownFault = false) :
    let ids := (s.jobs.filter fun j => j.2.phase ≠ .done ∧ !j.2.appended).map (·.1)
    let refused := (s.jobs.filter fun j => j.2.phase = .done && j.2.refused).map (·.1)
    let s1 := refused.foldl (fun s j => replaceResult j stFatal s) { s with crownFault := true, lining := { s.lining with crownFault := true } }
    let s2 := ids.foldl (fun s j => if (getJob s j).ring = ownRing then dropJob j (unplace j s) else stopJob j stFatal 0 s) s1
    crownFail addr s = aerError 0 2 addr (s2.fns.foldl (fun s f => stopQueues f.1 s) s2) := by
  rw [crownFail, if_neg (by simp [first])]

end Rings

/-- Settles O42: each event by its cases; after the Crown's fault every function's rings have been stopped. -/
theorem diesAndCrownLeaveService : Obligations.DiesAndCrownLeaveService := by
  unfold Obligations.DiesAndCrownLeaveService
  intro t die s
  dsimp only
  have silence : exec (.upstreamTimeout t die) s = .next (upstreamTimeout die (tick t s)) := rfl
  have fault : exec (.crownFault t) s = .next (crownFail 0 (tick t s)) := rfl
  refine ⟨fun _ => rfl, rfl, ⟨fun heard => ?_, fun late => ?_⟩, fun c v => ⟨fenceDie_of_out, fenceDie_of_live⟩,
    fun errors stored code unit addr => ⟨memoryError_of_corrected, memoryError_of_none, fun there wrong => ⟨?_, ?_, ?_, ?_, ?_, ?_⟩⟩,
    fun faulted => ?_, fun first => ?_, fun _ => rfl⟩
  case refine_1 => rw [silence, upstreamTimeout_of_heard heard]
  case refine_2 =>
    refine ⟨modDie die selfHalted (fenceDie die 0 (tick t s)), silence.trans (by rw [upstreamTimeout_of_late late]), rfl, rfl, fun there => ?_⟩
    rw [getDie_modDie_same _ _ _ there]
    exact ⟨rfl, rfl, rfl, selfHalted_cores _, selfHalted_lanes _, rfl, rfl, rfl, rfl, rfl⟩
  case refine_3 =>
    rintro rfl
    exact (memoryError_of_place (by decide)).trans (congrArg _ (memoryError_of_engine there wrong))
  case refine_4 =>
    rintro rfl brim live
    exact (memoryError_of_place (by decide)).trans (congrArg _ (memoryError_of_replica there wrong brim live))
  case refine_5 =>
    rintro rfl crown
    exact (memoryError_of_place (by decide)).trans (congrArg _ (memoryError_of_slot there wrong crown))
  case refine_6 =>
    intro low high crown
    exact (memoryError_of_place (by omega)).trans (congrArg _ (memoryError_of_crown there wrong low high crown))
  case refine_7 =>
    rintro rfl crown
    exact memoryError_of_world there wrong crown
  case refine_8 =>
    intro place
    exact (memoryError_of_place (by omega)).trans (congrArg _ (memoryError_of_die there wrong place))
  case refine_9 => rw [fault, crownFail_of_faulted faulted]
  case refine_10 =>
    exact ⟨fault.trans (congrArg _ (crownFail_of_first first)), fun f => noneRuns_aerError (noneRuns_stopAll f)⟩

end Sys2Proof.Proofs
end

section
/-! PROOFS. Worlds that stop and restart, and the gating of blocks (R405, R407, R409 to R412, R418). From these O44. -/

namespace Sys2Proof.Proofs
open Sys2Proof Sys2Proof.Machine Sys2Proof.Safety

/-- An event that leaves a state leaves any state equal to it. -/
theorem next_congr {o : Host.Outcome State Fault Refusal} {v w : State} (row : o = .next v) (same : v = w) : o = .next w := same ▸ row

/-! ## The restart of a world (R409 to R411) -/

section Restart

variable {die w : Nat} {u : State}

/-- The world may be restarted: it is one of the two of a die of the part, and it runs. -/
def MayRestart (u : State) (die w : Nat) : Prop := (w = 1 ∨ w = 2) ∧ die < u.dies.length ∧ (getWorld u die w).st = 0

theorem mayRestart_iff : ¬ MayRestart u die w ↔ (getWorld u die w).st ≠ 0 ∨ u.dies.length ≤ die ∨ (!(decide (w = 1 ∨ w = 2))) = true := by
  simp only [MayRestart, Bool.not_eq_true', decide_eq_false_iff_not]
  omega

/-- A world that stops, counted and recorded. -/
def worldStopped (die w trigger : Nat) (u : State) : State :=
  recEventAt die 0 0x0D02 ([byte w, byte trigger] ++ zeros 6) (modMandrel die (·.without w)
    (modWorld die w (fun x => { x with st := 1, halted := false, restarts := satAdd x.restarts 1 0xFF
                                       times := (x.times.filter fun r => u.time.now < r + 60000000000) ++ [u.time.now] }) u))

theorem restartWorld_of_stopped {trigger : Nat} (stopped : ¬ MayRestart u die w) : restartWorld die w trigger u = u := by
  rw [restartWorld, if_pos (mayRestart_iff.mp stopped)]

theorem restartWorld_of_running {trigger : Nat} (runs : MayRestart u die w) :
    let v := worldStopped die w trigger u
    let jobs := (v.jobs.filter fun j => j.2.caught w).foldl (fun s j => stopJob j.1 stRetry 0 s) v
    restartWorld die w trigger u = if die ≠ 0 then v
      else settleAll (claimRelease 0 6 (claimRelease 0 2 (if w = 1 then withdrawUnstaged jobs else jobs))) := by
  rw [restartWorld, if_neg (mt mayRestart_iff.mpr (not_not.mpr runs))]
  rfl

theorem heartbeatMiss_of_due (due : MayRestart u die w ∧ (getWorld u die w).halted = false) : heartbeatMiss die w u = restartWorld die w 1 u := by
  rw [heartbeatMiss, if_neg (by simp [due.2])]

theorem heartbeatMiss_of_not_due (early : ¬ (MayRestart u die w ∧ (getWorld u die w).halted = false)) : heartbeatMiss die w u = u := by
  rw [heartbeatMiss]
  split
  next => rfl
  next goes => exact restartWorld_of_stopped fun may => early ⟨may, by simpa using goes⟩

/-- Three restarts within 60 s. -/
def ManyRestarts (u : State) (die w : Nat) : Prop := 3 ≤ ((getWorld u die w).times.filter fun r => u.time.now < r + 60000000000).length

theorem restartDone_of_idle {ok : Bool} (idle : (getWorld u die w).st ≠ 1 ∨ (w = 2 ∧ u.hold = true)) : restartDone die w ok u = u := by
  rw [restartDone, if_pos idle]

theorem restartDone_of_good {ok : Bool} (restarts : ¬ ((getWorld u die w).st ≠ 1 ∨ (w = 2 ∧ u.hold = true)))
    (good : ok = true ∧ ¬ (w = 1 ∧ (getWorld u die w).imageBad = true)) (few : ¬ ManyRestarts u die w) :
    restartDone die w ok u = modMandrel die (fun m => { m with cur := if m.cur = 0 then w else m.cur }) (modWorld die w (fun x => { x with st := 0 }) u) := by
  obtain ⟨measured, image⟩ := good
  have passed : (ok && !(w = 1 && (getWorld u die w).imageBad)) = true := by
    rw [measured]
    simpa [imp_iff_not_or] using image
  have few' : decide (3 ≤ ((getWorld u die w).times.filter fun t => u.time.now < t + 60000000000).length) = false := decide_eq_false few
  simp only [restartDone, if_neg restarts, passed, few', Bool.not_true, Bool.or_false, Bool.false_eq_true, if_false]

theorem restartDone_of_bad {ok : Bool} (restarts : ¬ ((getWorld u die w).st ≠ 1 ∨ (w = 2 ∧ u.hold = true)))
    (stays : ¬ ((ok = true ∧ ¬ (w = 1 ∧ (getWorld u die w).imageBad = true)) ∧ ¬ ManyRestarts u die w)) :
    restartDone die w ok u = recEventAt die 0 0x0D03 ([byte w, if ok = true ∧ ¬ (w = 1 ∧ (getWorld u die w).imageBad = true) then 1 else if w = 1 then 0 else 2] ++ zeros 6)
      (modWorld die w (fun x => { x with st := 2 }) u) := by
  have measured : (ok && !(w = 1 && (getWorld u die w).imageBad)) = true ↔ ok = true ∧ ¬ (w = 1 ∧ (getWorld u die w).imageBad = true) := by
    simp [imp_iff_not_or]
  rw [← measured] at stays
  simp only [restartDone, if_neg restarts, ← measured]
  generalize (ok && !(w = 1 && (getWorld u die w).imageBad)) = good at stays ⊢
  cases good with
  | false => simp
  | true =>
    have many : ManyRestarts u die w := not_not.mp fun few => stays ⟨rfl, few⟩
    simp [show 3 ≤ ((getWorld u die w).times.filter fun t => u.time.now < t + 60000000000).length from many]

theorem restartDone_eq (ok : Bool) :
    let good := ok = true ∧ ¬ (w = 1 ∧ (getWorld u die w).imageBad = true)
    let many := 3 ≤ ((getWorld u die w).times.filter fun r => u.time.now < r + 60000000000).length
    restartDone die w ok u = if (getWorld u die w).st ≠ 1 ∨ (w = 2 ∧ u.hold = true) then u
      else if good ∧ ¬ many then modMandrel die (fun m => { m with cur := if m.cur = 0 then w else m.cur }) (modWorld die w (fun x => { x with st := 0 }) u)
      else recEventAt die 0 0x0D03 ([byte w, if good then 1 else if w = 1 then 0 else 2] ++ zeros 6) (modWorld die w (fun x => { x with st := 2 }) u) := by
  intro good many
  split
  next idle => exact restartDone_of_idle idle
  next restarts =>
    split
    next stays => exact restartDone_of_good restarts stays.1 stays.2
    next stays => exact restartDone_of_bad restarts stays

end Restart

/-! ## The gating of blocks (R418) -/

section Gating

variable {die block : Nat} {u : State}

theorem gatingRequest_eq (want : Bool) : gatingRequest die block want u = if (getDie u die).live = false then u
    else if 8 ≤ block then recEventAt die 0 0x0D04 ([byte block, 1] ++ zeros 6) u
    else if want = false then modMandrel die (fun m => { m with
      req := setBit m.req block false, held := setBit m.held block false, gated := setBit m.gated block false
      noted := setBit m.noted block false, heldAt := mdel m.heldAt block }) u
    else if claimed u die block = true then modMandrel die (fun m => { m with
      req := setBit m.req block true, held := setBit m.held block true
      heldAt := if m.held.testBit block then m.heldAt else mset m.heldAt block u.time.now }) u
    else modMandrel die (fun m => { m with req := setBit m.req block true, gated := setBit m.gated block true }) u := by
  rw [gatingRequest]
  exact if_congr (by simp) rfl (if_congr Iff.rfl rfl (if_congr (by simp) rfl rfl))

theorem claimRelease_eq : claimRelease die block u = if (getDie u die).mandrel.held.testBit block = true ∧ claimed u die block = false then modMandrel die (fun m => { m with
    held := setBit m.held block false, gated := setBit m.gated block true, noted := setBit m.noted block false, heldAt := mdel m.heldAt block }) u else u :=
  if_congr (by simp) rfl rfl

/-- A request has been held for 100 ms, unrecorded. -/
def GateOverdue (u : State) (die block : Nat) : Prop := ∃ r, mget (getDie u die).mandrel.heldAt block = some r ∧ (getDie u die).mandrel.held.testBit block = true
  ∧ (getDie u die).mandrel.noted.testBit block = false ∧ r + 100000000 ≤ u.time.now

theorem gatingOverdue_of_due (due : GateOverdue u die block) : gatingOverdue die block u =
    recEventAt die 0 0x0D04 ([byte block, 0] ++ zeros 6) (modMandrel die (fun m => { m with noted := setBit m.noted block true }) u) := by
  obtain ⟨since, asked, held, unnoted, long⟩ := due
  simp [gatingOverdue, asked, held, unnoted, long]

theorem gatingOverdue_of_not_due (early : ¬ GateOverdue u die block) : gatingOverdue die block u = u := by
  simp only [gatingOverdue]
  split
  next => rfl
  next since asked =>
    rw [if_neg]
    rintro ⟨held, unnoted, long⟩
    exact early ⟨since, asked, held, by simpa using unnoted, long⟩

end Gating

/-- Settles O44: each event is one operation on the state at its instant, described by cases above. -/
theorem worldsRestartAndGate : Obligations.WorldsRestartAndGate := by
  unfold Obligations.WorldsRestartAndGate
  intro t die w block s
  dsimp only
  have stops (trig) : exec (.worldException t die w trig) s = .next (restartWorld die w trig (tick t s)) := rfl
  have misses : exec (.heartbeatMiss t die w) s = .next (heartbeatMiss die w (tick t s)) := rfl
  have done (ok) : exec (.worldRestartDone t die w ok) s = .next (settleLedger (if die = 0 ∧ (w = 1 ∨ w = 2)
    then resumeWorld w (restartDone die w ok (tick t s)) else restartDone die w ok (tick t s))) := rfl
  have gates (want) : exec (.gatingRequest t die block want) s = .next (gatingRequest die block want (tick t s)) := rfl
  have releases : exec (.claimRelease t die block) s = .next (claimRelease die block (tick t s)) := rfl
  have overdue : exec (.gatingRequestOverdue t die block) s = .next (gatingOverdue die block (tick t s)) := rfl
  generalize tick t s = u at *
  refine ⟨fun trig => ⟨?_, ?_⟩, fun ok => ?_, fun want => ?_, ?_, fun due => ?_, fun early => ?_⟩
  case refine_1 =>
    rw [stops]
    split
    next runs => exact congrArg _ (restartWorld_of_running runs)
    next stopped => exact congrArg _ (restartWorld_of_stopped stopped)
  case refine_2 =>
    rintro rfl
    rw [misses]
    by_cases due : MayRestart u die w ∧ (getWorld u die w).halted = false
    · exact congrArg _ ((heartbeatMiss_of_due due).trans ((restartWorld_of_running due.1).trans (if_pos due).symm))
    · exact congrArg _ ((heartbeatMiss_of_not_due due).trans (if_neg due).symm)
  case refine_3 =>
    rw [done]
    exact congrArg (fun v => Host.Outcome.next (settleLedger (if die = 0 ∧ (w = 1 ∨ w = 2) then resumeWorld w v else v))) (restartDone_eq ok)
  case refine_4 => exact next_congr (gates want) (gatingRequest_eq want)
  case refine_5 => exact next_congr releases claimRelease_eq
  case refine_6 => rw [overdue, gatingOverdue_of_due due]
  case refine_7 => rw [overdue, gatingOverdue_of_not_due early]

end Sys2Proof.Proofs
end

section
/-! PROOFS. Accesses that a region refuses (R364, R415 to R417). From these O45. -/

namespace Sys2Proof.Proofs
open Sys2Proof Sys2Proof.Machine Sys2Proof.Safety

section Refused

variable {die : Nat} {a : Access} {u : State}

/-- The beats of an access that are refused, each with its reason and descriptor. -/
def badBeats (u : State) (die : Nat) (a : Access) : List (Nat × Nat × Nat) :=
  (beatsOf a).filterMap fun b => (beatReason u die a b).map fun r => (b, r)

/-- The report of a refused access with n refused beats, the first at addr. -/
def refusalReported (die : Nat) (u : State) (a : Access) (n addr region reason : Nat) : State :=
  recEventAt die 1 0x0D01 (leBytes 4 addr ++ [byte (kindCode a.kind), byte a.master, byte region, byte reason])
    (modMandrel die (fun m => { m with
      viols := satAdd m.viols n 0x7FFF, region := if region = 0xFF then 0x3F else if region = 0xFE then 0x3E else region
      kind := kindCode a.kind, reason := reason, master := a.master, addr := addr }) u)

theorem reportAccess_of_good (good : badBeats u die a = []) : reportAccess die a u = none := by
  simp only [badBeats] at good
  simp only [reportAccess, good]

variable {addr reason n : Nat} {rest : List (Nat × Nat × Nat)}

theorem reportAccess_of_bad (bad : badBeats u die a = (addr, reason, n) :: rest) :
    reportAccess die a u = some (refusalReported die u a (rest.length + 1) addr n reason) := by
  simp only [badBeats] at bad
  simp only [reportAccess, bad]
  rfl

/-! ## Who made the access (R416, R417) -/

variable (there : die < u.dies.length)
include there

theorem accessRefused_of_good (master : a.master ≤ 10) (good : badBeats u die a = []) : accessRefused die a u = u := by
  rw [accessRefused, if_neg (by omega), reportAccess_of_good good]

theorem accessRefused_of_bad (master : a.master ≤ 10) (bad : badBeats u die a = (addr, reason, n) :: rest) :
    let r := refusalReported die u a (rest.length + 1) addr n reason
    accessRefused die a u = if a.master = 1 ∨ a.master = 2 then restartWorld die a.master 2 r
      else if a.master = 0 then memoryError die 3 a.addr (if die = 0 then 7 else 9) 0 a.addr r
      else if a.master = 3 ∨ a.master = 4 then (match a.job with
        | some j => settleAll (dmaFault j r)
        | none => r)
      else r := by
  rw [accessRefused, if_neg (by omega), reportAccess_of_bad bad] <;> rfl

theorem debugAccess_of_good (good : badBeats u die { a with master := 9, stage2 := false } = []) : debugAccess die a false u = u := by
  rw [debugAccess, if_neg (by omega), reportAccess_of_good good]
  rfl

theorem debugAccess_of_bad (bad : badBeats u die { a with master := 9, stage2 := false } = (addr, reason, n) :: rest) :
    debugAccess die a false u = refusalReported die u { a with master := 9, stage2 := false } (rest.length + 1) addr n reason := by
  rw [debugAccess, if_neg (by omega), reportAccess_of_bad bad]
  rfl

theorem debugAccess_halt : debugAccess die a true u = if (a.world = 1 ∨ a.world = 2) ∧ u.life.enables.testBit (if a.world = 2 then 1 else 3) = true
    then modWorld die a.world (fun x => { x with halted := true }) u else u := by
  rw [debugAccess, if_neg (by omega), if_pos rfl]
  exact if_congr and_comm rfl rfl

end Refused

/-! ## A refused transfer (R417) -/

section Transfers

variable {id : Nat} {x : Job} {v : State}

theorem dmaFault_of_other (there : mget v.jobs id = some x) (source : x.phase ≠ .source) (table : x.phase ≠ .table) : dmaFault id v = v := by
  simp only [dmaFault, there, if_pos (And.intro source table)]

theorem dmaFault_of_transfer (there : mget v.jobs id = some x) (transfer : x.phase = .source ∨ x.phase = .table) :
    dmaFault id v = if x.moved then collect id stRetry 0 [] [] none v
      else modJob id (fun y => { y with moved := true }) (countOn x.die 0x0F x.fn 1 v) := by
  have busy : ¬ (x.phase ≠ .source ∧ x.phase ≠ .table) := by
    rintro ⟨source, table⟩
    exact transfer.elim source table
  simp only [dmaFault, there, if_neg busy]

end Transfers

/-- Settles O45: the beats are checked once, the first refused one is reported, and its master says what follows. -/
theorem refusedAccessesAreReported : Obligations.RefusedAccessesAreReported := by
  unfold Obligations.RefusedAccessesAreReported
  intro t die a s there
  dsimp only
  have refuses : exec (.accessRefused t die a) s = .next (accessRefused die a (tick t s)) := rfl
  have debugs (halt) : exec (.debugAccess t die a halt) s = .next (debugAccess die a halt (tick t s)) := rfl
  generalize tick t s = u at *
  refine ⟨fun master good => ?_, fun addr reason n rest bad => ⟨fun world => ?_, fun hypervisor => ?_, fun transfer => ⟨fun jobless => ?_, fun j job => ?_⟩, fun low high => ?_⟩,
    fun id x v held => ⟨dmaFault_of_other held, dmaFault_of_transfer held⟩, ⟨fun good => ?_, fun addr reason n rest bad => ?_⟩, ?_⟩
  case refine_1 => exact next_congr refuses (accessRefused_of_good there master good)
  case refine_2 => exact next_congr refuses ((accessRefused_of_bad there (by omega) bad).trans (if_pos world))
  case refine_3 =>
    exact next_congr refuses ((accessRefused_of_bad there (by omega) bad).trans ((if_neg (by omega)).trans (if_pos hypervisor)))
  case refine_4 =>
    refine next_congr refuses ((accessRefused_of_bad there (by omega) bad).trans ((if_neg (by omega)).trans ((if_neg (by omega)).trans ((if_pos transfer).trans ?_))))
    rw [jobless] <;> rfl
  case refine_5 =>
    refine next_congr refuses ((accessRefused_of_bad there (by omega) bad).trans ((if_neg (by omega)).trans ((if_neg (by omega)).trans ((if_pos transfer).trans ?_))))
    rw [job] <;> rfl
  case refine_6 =>
    exact next_congr refuses ((accessRefused_of_bad there high bad).trans ((if_neg (by omega)).trans ((if_neg (by omega)).trans (if_neg (by omega)))))
  case refine_7 => exact next_congr (debugs false) (debugAccess_of_good there good)
  case refine_8 => exact next_congr (debugs false) (debugAccess_of_bad there bad)
  case refine_9 => exact next_congr (debugs true) (debugAccess_halt there)

end Sys2Proof.Proofs
end

section
/-! PROOFS. How a job moves between the instants of its way (R41, R130, R136, R138, R139, R141, R161, R187, R190, R191). From these O46. -/

namespace Sys2Proof.Proofs
open Sys2Proof Sys2Proof.Machine Sys2Proof.Safety Sys2Proof.Laws

/-! ## The dispatcher takes one entry (R136, R138, R139) -/

section Turns

variable {u w : State}

/-- Admin rings and service queues have their turn: no work ring is eligible, or fewer than 8 of them have been taken. -/
def ServiceOpen (w : State) : Prop := ready w 0 = [] ∨ w.takeSvc < 8

theorem serviceOpen_iff : (decide (ready w 0 = []) || decide (w.takeSvc < 8)) = true ↔ ServiceOpen w := by simp [ServiceOpen]

theorem takeOne_of_turn {r : QRef × Desc × State} (turns : turn u = some r) : takeOne u = (takeJob r.1 r.2.1 r.2.2).2 := by
  simp only [takeOne, turns]

theorem takeOne_of_none (none : turn u = none) : takeOne u = endRound (takeWindow u) := by simp only [takeOne, none]

variable (window : endRound (takeWindow u) = w)
include window

theorem turn_of_full (full : 96 ≤ w.takeCount) : turn u = none := by
  subst window
  simp only [turn, if_pos full]

theorem turn_of_admin {x : Nat × QRef × Desc} (room : w.takeCount < 96) (served : ServiceOpen w) (admin : afterKey (ready w 2) w.rrAdmin = some x) :
    turn u = some (x.2.1, x.2.2, { w with rrAdmin := x.1, takeCount := w.takeCount + 1, takeSvc := w.takeSvc + 1 }) := by
  subst window
  simp only [turn, if_neg (not_le.mpr room), if_pos (serviceOpen_iff.mpr served), admin]

theorem turn_of_service {x : Nat × QRef × Desc} (room : w.takeCount < 96) (served : ServiceOpen w) (admin : afterKey (ready w 2) w.rrAdmin = none)
    (service : afterKey (ready w 1) w.rrService = some x) :
    turn u = some (x.2.1, x.2.2, { w with rrService := x.1, takeCount := w.takeCount + 1, takeSvc := w.takeSvc + 1 }) := by
  subst window
  simp only [turn, if_neg (not_le.mpr room), if_pos (serviceOpen_iff.mpr served), admin, service]

theorem turn_of_work (room : w.takeCount < 96)
    (closed : ¬ ServiceOpen w ∨ (afterKey (ready w 2) w.rrAdmin = none ∧ afterKey (ready w 1) w.rrService = none)) :
    turn u = nextWork (ready w 0) { w with takeCount := w.takeCount + 1 } := by
  subst window
  by_cases served : ServiceOpen (endRound (takeWindow u))
  · obtain ⟨admin, service⟩ := closed.resolve_left (not_not.mpr served)
    simp only [turn, if_neg (not_le.mpr room), if_pos (serviceOpen_iff.mpr served), admin, service]
  · simp only [turn, if_neg (not_le.mpr room), if_neg (mt serviceOpen_iff.mp served)]

end Turns

/-! ## The poll of a die (R141) -/

section Polls

variable {die : Nat} {u : State}

theorem diePoll_of_out (out : (getDie u die).live = false ∨ (getDie u die).halted = true ∨ u.crownFault = true) : diePoll die u = u := by
  have out' : (!(getDie u die).live) = true ∨ (getDie u die).halted = true ∨ u.crownFault = true := out.imp_left fun h => by rw [h]; rfl
  rw [diePoll, if_pos out']

theorem diePoll_of_live (live : (getDie u die).live = true) (runs : (getDie u die).halted = false) (sound : u.crownFault = false) (there : die < u.dies.length) :
    let d := getDie u die
    let es := (if d.turnG then d.ringG else d.ringP).take 16
    let v := modDie die (fun d => { d with turnG := !d.turnG }) u
    let w := modDie die (fun x => if d.turnG then { x with ringG := x.ringG.drop 16, consG := (x.consG + es.length) % 512 }
      else { x with ringP := x.ringP.drop 16, consP := (x.consP + es.length) % 512 }) v
    diePoll die u = es.foldl (fun s j => if (getJob s j).phase = .ring then admitOwn j s else s) w := by
  have serves : ¬ ((!(getDie u die).live) = true ∨ (getDie u die).halted = true ∨ u.crownFault = true) := by simp [live, runs, sound]
  rw [diePoll, if_neg serves]
  simp only [pollRing, getDie_modDie_same _ _ _ there]
  cases (getDie u die).turnG <;> rfl

end Polls

/-! ## The source of a job (R130, R141) -/

section Sources

variable {j : Nat} {x : Job} {u : State} {sem : OpSem}

theorem fragArrive_of_job {table : Bytes} (there : mget u.jobs j = some x) : fragArrive sem j table u =
    if x.phase = .table then (match firstFail (fragFails sem x table) with
      | some f => finishJob j f.st f.info [] [] (modJob j (fun x => { x with refused := true }) u)
      | none => modJob j (fun x => { x with phase := .source, frags := table, srcLen := (fragLens table x.d.srcLen).sum }) u) else u := by
  simp only [fragArrive, there]
  rfl

theorem fragArrive_of_none {table : Bytes} (gone : mget u.jobs j = none) : fragArrive sem j table u = u := by simp only [fragArrive, gone]

theorem sourceArrive_of_job {src : Bytes} (there : mget u.jobs j = some x) : sourceArrive sem j src u =
    if x.phase = .source then
      sem.go j (countOn x.die 5 x.fn x.srcLen (modJob j (fun y => { y with phase := .engine, src := fit y.srcLen src, arrived := some (jobStamp u y) }) u))
    else if readsEarly sem x = true then modJob j (fun y => { y with src := fit y.d.srcLen src, arrived := some (fnStamp u (bankOf u y.die) y.fn) }) u
    else u := by
  simp only [sourceArrive, there]

theorem sourceArrive_of_none {src : Bytes} (gone : mget u.jobs j = none) : sourceArrive sem j src u = u := by simp only [sourceArrive, gone]

theorem sourceFail_of_job {addr : Nat} (there : mget u.jobs j = some x) :
    let v := aerError x.fn 1 addr u
    sourceFail sem j addr u = if x.phase = .source ∨ x.phase = .table then finishJob j stInput 0xFA [] [] v
      else if readsEarly sem x = true then modJob j (fun y => { y with srcBad := true }) v else u := by
  simp only [sourceFail, there]

theorem sourceFail_of_none {addr : Nat} (gone : mget u.jobs j = none) : sourceFail sem j addr u = u := by simp only [sourceFail, gone]

end Sources

/-! ## The collector, the sequencer and the PSN reservation (R161, R187, R190, R191) -/

section Carries

variable {die : Nat} {u : State}

theorem collectorSend_eq :
    let d := getDie u die
    let ids := (byAdmission u d.collector).foldl (fun (acc : List Nat × State) j =>
      if acc.1.length < 32 && collectorReady acc.2 die j then (acc.1 ++ [j], modJob j (fun x => { x with phase := .ingress }) acc.2) else acc) ([], u)
    let v := modDie die (fun d => refill { d with collector := d.collector.filter fun j => !ids.1.contains j }) ids.2
    collectorSend die u = if d.live = false ∨ 2048 ≤ u.ingress.length ∨ ids.1 = [] then u
      else ids.1.foldl (fun s j => if (getJob s j).leaf.isSome then countOn die 6 (getJob s j).fn 1 s else s) { v with ingress := v.ingress ++ [ids.1] } := by
  intro d ids v
  rw [collectorSend]
  by_cases barred : (!d.live) = true ∨ 2048 ≤ u.ingress.length
  · have out : d.live = false ∨ 2048 ≤ u.ingress.length ∨ ids.1 = [] := barred.elim (fun h => .inl (by simpa using h)) fun h => .inr (.inl h)
    rw [if_pos barred, if_pos out]
  · rw [if_neg barred]
    refine if_congr ?_ rfl rfl
    obtain ⟨live, room⟩ := not_or.mp barred
    have live' : ¬ d.live = false := by simpa using live
    exact ⟨fun none => .inr (.inr none), fun h => (h.resolve_left live').resolve_left room⟩

theorem psnImage_eq : psnImage u = if u.hold = true ∨ u.psnWriting = false then u
    else settleAll (writeCarry (writeImage { u with psnCeil := u.psnCeil + 1099511627776, psnWriting := false })) := by
  rw [psnImage, psnWritten]
  cases u.psnWriting <;> cases u.hold <;> rfl

theorem leafArrival_eq : leafArrival u = match u.ingress with
    | [] => settle u
    | b :: bs => b.foldl (fun s j => settle (modJob j (fun x => if x.phase = .ingress then { x with phase := .sequenced } else x) s)) { u with ingress := bs } := by
  rw [leafArrival] <;> rfl

end Carries

/-- Settles O46: each event is one operation on the state at its instant, described by cases above. -/
theorem jobsMoveOn : Obligations.JobsMoveOn := by
  unfold Obligations.JobsMoveOn
  intro t s
  dsimp only
  have takes : exec (.descriptorTake t) s = .next (settleLedger (takeOne (tick t s))) := rfl
  have polls (die) : exec (.diePoll t die) s = .next (settleLedger (diePoll die (tick t s))) := rfl
  have tables (j table) : exec (.fragmentTableArrival t j table) s = .next (settleLedger (fragArrive (semOf (getJob s j).d.op) j table (tick t s))) := rfl
  have sources (j src) : exec (.sourceArrival t j src) s = .next (settleLedger (sourceArrive (semOf (getJob s j).d.op) j src (tick t s))) := rfl
  have fails (j addr) : exec (.sourceReadFail t j addr) s = .next (settleLedger (sourceFail (semOf (getJob s j).d.op) j addr (tick t s))) := rfl
  have sends (die) : exec (.collectorBatchSend t die) s = .next (settleLedger (startLanes die (startMac die (collectorSend die (tick t s))))) := rfl
  have leaves : exec (.leafArrival t) s = .next (settleLedger (leafArrival (tick t s))) := rfl
  have reserves : exec (.psnReservationWritten t) s = .next (psnImage (tick t s)) := rfl
  generalize tick t s = u at *
  refine ⟨⟨fun full => ?_, fun x room may admin => ?_, fun x room may admin service => ?_, fun room closed => ⟨fun r next => ?_, fun next => ?_⟩⟩,
    fun die => ⟨fun out => ?_, fun live runs sound there => ?_⟩, fun j x table there => ?_, fun j x src there => ?_, fun j x addr there => ?_,
    fun j gone => ⟨fun table => ?_, fun src => ?_, fun addr => ?_⟩, fun die => ?_, ?_, ?_⟩
  · exact next_congr takes (congrArg _ (takeOne_of_none (turn_of_full rfl full)))
  · exact next_congr takes (congrArg _ (takeOne_of_turn (turn_of_admin rfl room may admin)))
  · exact next_congr takes (congrArg _ (takeOne_of_turn (turn_of_service rfl room may admin service)))
  · exact next_congr takes (congrArg _ (takeOne_of_turn ((turn_of_work rfl room closed).trans next)))
  · exact next_congr takes (congrArg _ (takeOne_of_none ((turn_of_work rfl room closed).trans next)))
  · exact next_congr (polls die) (congrArg _ (diePoll_of_out out))
  · exact next_congr (polls die) (congrArg _ (diePoll_of_live live runs sound there))
  · exact next_congr (tables j table) (congrArg _ (fragArrive_of_job there))
  · exact next_congr (sources j src) (congrArg _ (sourceArrive_of_job there))
  · exact next_congr (fails j addr) (congrArg _ (sourceFail_of_job there))
  · exact next_congr (tables j table) (congrArg _ (fragArrive_of_none gone))
  · exact next_congr (sources j src) (congrArg _ (sourceArrive_of_none gone))
  · exact next_congr (fails j addr) (congrArg _ (sourceFail_of_none gone))
  · exact next_congr (sends die) (congrArg (fun v => settleLedger (startLanes die (startMac die v))) collectorSend_eq)
  · exact next_congr leaves (congrArg _ leafArrival_eq)
  · exact next_congr reserves psnImage_eq

end Sys2Proof.Proofs
end

section
/-! PROOFS. Engines that end their jobs, yield and fail (R46, R47, R176, R266, R277, R279, R281). From these O47. -/

namespace Sys2Proof.Proofs
open Sys2Proof Sys2Proof.Machine Sys2Proof.Safety Sys2Proof.Laws

/-! ## The end of an engine's work (R46, R281) -/

section Ends

variable {die lane j : Nat} {x : Job} {u : State}

/-- An engine that is no lane has the job and room for its result. -/
def EngineEnds (u : State) (j : Nat) (x : Job) : Prop :=
  x.phase = .engine ∧ onLane u j = false ∧ onEngine u j x = true ∧ stalled (getDie u x.die) (outlet x).1 (outlet x).2 = false

theorem engineDone_of_ends (there : mget u.jobs j = some x) (ends : EngineEnds u j x) : engineDone j u = (semOf x.d.op).fin j u := by
  obtain ⟨phase, free, on, room⟩ := ends
  simp [engineDone, getJob_of there, engineEnd, there, phase, free, on, room]

theorem engineDone_of_stays (there : mget u.jobs j = some x) (stays : ¬ EngineEnds u j x) : engineDone j u = u := by
  simp only [engineDone, getJob_of there]
  split
  next => rfl
  next open_ =>
    obtain ⟨free, room⟩ := not_or.mp open_
    simp only [engineEnd, there]
    exact if_neg fun ⟨phase, on⟩ => stays ⟨phase, by simpa using free, on, by simpa using room⟩

theorem laneDone_of_idle {verified : Bool} (idle : ((getDie u die).lanes.getD lane {}).job = none) : laneDone die lane verified u = u := by
  simp only [laneDone, idle]

theorem laneDone_of_good {verified : Bool} (runs : ((getDie u die).lanes.getD lane {}).job = some j)
    (good : ¬ (verified = false ∧ checkedRelease (getJob u j) = true)) :
    laneDone die lane verified u = if (getJob u j).ring = ownRing then signEnd j u else (semOf (getJob u j).d.op).fin j u := by
  simp only [laneDone, runs]
  exact if_neg (by simpa using good)

theorem laneDone_of_bad {verified : Bool} (runs : ((getDie u die).lanes.getD lane {}).job = some j)
    (bad : verified = false ∧ checkedRelease (getJob u j) = true) :
    laneDone die lane verified u = engineFault die 1 lane (modDie die (fun d => { d with verifyFail := satAdd d.verifyFail 1 0xFFFF })
      (recEventAt die 0 0x0601 ([byte lane, byte (match (getJob u j).key with | some key => key.alg | none => 0)] ++ zeros 6) u)) := by
  simp only [laneDone, runs]
  refine (if_pos (by simpa using bad)).trans ?_
  simp only [verifyBeforeFails, runs, Option.bind_some] <;> rfl

end Ends

/-! ## Yields (R277, R279) -/

section Yields

variable {die lane need j x : Nat} {remaining : List Nat} {u : State}

theorem laneYield_of_none (none : ((getDie u die).lanes.getD lane {}).job = none ∨ pickRq u die lane = none) :
    laneYield die lane remaining need u = u := by
  rcases none with idle | empty
  · simp only [laneYield, idle]
  · simp only [laneYield, empty]
    cases ((getDie u die).lanes.getD lane {}).job <;> rfl

/-- The lane gives way: no lane is idle, it meets the tests, and no other that meets them comes before it. -/
def LaneYields (u : State) (die lane : Nat) (remaining : List Nat) (need x : Nat) : Prop :=
  let d := getDie u die
  let meets (l : Nat) : Bool := mayYield u (d.lanes.getD l {}) (rclass (getJob u x)) (remaining.getD l 0) ((laneTime (getJob u x)).getD need)
  d.lanes.any laneIdle = false ∧ meets lane = true ∧ u.hold = false
    ∧ ∀ l < d.lanes.length, l ≠ lane → meets l = true →
      yieldsBefore u (d.lanes.getD lane {}) (d.lanes.getD l {}) (remaining.getD lane 0) (remaining.getD l 0) lane l = true

theorem laneYield_eq (runs : ((getDie u die).lanes.getD lane {}).job = some j) (waits : pickRq u die lane = some x)
    [Decidable (LaneYields u die lane remaining need x)] :
    laneYield die lane remaining need u = if LaneYields u die lane remaining need x
      then enterLane die lane x (fun u => { u with susp := u.job, suspKey := u.key, suspBlind := u.blind })
        (modJob j (fun y => { y with suspends := satAdd y.suspends 1 255 }) (countOn die 9 0 1 u))
      else u := by
  simp only [laneYield, runs, waits]
  refine if_congr ?_ rfl rfl
  simp only [LaneYields, Bool.and_eq_true, Bool.not_eq_true', List.all_eq_true, List.mem_range, Bool.or_eq_true, decide_eq_true_eq]
  constructor
  · rintro ⟨⟨⟨busy, meets⟩, first⟩, running⟩
    exact ⟨busy, meets, running, fun l inside other may =>
      (first l inside).resolve_left fun none => none.elim other fun fails => Bool.noConfusion (fails.symm.trans may)⟩
  · rintro ⟨busy, meets, running, first⟩
    refine ⟨⟨⟨busy, meets⟩, fun l inside => ?_⟩, running⟩
    by_cases other : l = lane
    · exact .inl (.inl other)
    · cases may : mayYield u ((getDie u die).lanes.getD l {}) (rclass (getJob u x)) (remaining.getD l 0) ((laneTime (getJob u x)).getD need) with
      | false => exact .inl (.inr rfl)
      | true => exact .inr (first l inside other may)

end Yields

/-! ## Faults (R46, R47, R281) -/

section UnitFaults

variable {die kind core : Nat} {u v : State}

/-- The unit is there and in use, on a die in service. -/
def UnitWorks (u : State) (die kind core : Nat) : Prop :=
  let d := getDie u die
  d.live = true ∧ kind ≤ 2 ∧ core < (d.units kind).length ∧ ((d.units kind).getD core {}).retired = false

theorem unitWorks_iff : ¬ UnitWorks u die kind core ↔
    ((!(getDie u die).live || decide (2 < kind) || decide (((getDie u die).units kind).length ≤ core) || (((getDie u die).units kind).getD core {}).retired) = true) := by
  simp only [UnitWorks, Bool.or_eq_true, Bool.not_eq_true', decide_eq_true_eq]
  cases (getDie u die).live <;> cases (((getDie u die).units kind).getD core {}).retired <;> simp
  omega

theorem engineFault_of_out (out : ¬ UnitWorks u die kind core) : engineFault die kind core u = u := by
  simp only [engineFault, if_pos (unitWorks_iff.mp out)]

/-- A fault of a unit: noted, the unit retired at the third within a second, and its jobs moved. -/
def unitFaulted (die kind core : Nat) (k : Machine.Unit) (now : Nat) (c : State) : State :=
  let fs := (k.faults.filter fun r => now < r + 1000000000) ++ [now]
  let a := modDie die (fun d => d.setUnit kind core { faults := fs, retired := decide (3 ≤ fs.length) }) c
  let b := if 3 ≤ fs.length then recEventAt die 0 0x0B03 ([byte kind, byte core] ++ zeros 6) a else a
  let v := dropUnfit die kind ((k.job.toList ++ k.susp.toList).foldl (fun s j => moveJob j kind core s) b)
  if kind = 1 then startLanes die v else startMac die v

theorem engineFault_of_works (works : UnitWorks u die kind core) :
    engineFault die kind core u = unitFaulted die kind core (((getDie u die).units kind).getD core {}) u.time.now u := by
  simp only [engineFault, if_neg (mt unitWorks_iff.mpr (not_not.mpr works)), unitFaulted]

/-- A fault of a lane is counted as one of the lanes of its die. -/
def laneFaultCounted (die : Nat) (u : State) : State := modDie die (fun d => { d with laneFault := satAdd d.laneFault 1 0xFFFF }) u

theorem coreFault_of_out (out : ¬ UnitWorks u die kind core) : coreFault die kind core u = u := by
  rw [coreFault]
  refine (if_neg ?_).trans (engineFault_of_out out)
  rintro ⟨rfl, live, inside, serves⟩
  exact out ⟨live, by decide, inside, (Bool.not_eq_true' _).mp serves⟩

theorem coreFault_of_works (works : UnitWorks u die kind core) (there : die < u.dies.length) :
    coreFault die kind core u = unitFaulted die kind core (((getDie u die).units kind).getD core {}) u.time.now (if kind = 1 then laneFaultCounted die u else u) := by
  rw [coreFault]
  by_cases lanes : kind = 1
  · subst lanes
    obtain ⟨live, low, inside, serves⟩ := works
    rw [if_pos ⟨rfl, live, inside, (Bool.not_eq_true' _).mpr serves⟩, if_pos rfl]
    have same : getDie (laneFaultCounted die u) die = { getDie u die with laneFault := satAdd (getDie u die).laneFault 1 0xFFFF } :=
      getDie_modDie_same _ _ _ there
    have works : UnitWorks (laneFaultCounted die u) die 1 core := by
      rw [UnitWorks, same]
      exact ⟨live, low, inside, serves⟩
    have faulted := engineFault_of_works works
    rw [same] at faulted
    exact faulted
  · rw [if_neg (fun h => lanes h.1), if_neg lanes]
    exact engineFault_of_works works

theorem moveJob_of_job {j : Nat} {x : Job} (there : mget v.jobs j = some x) : moveJob j kind core v =
    if x.moved = true ∨ healthy (getDie v x.die) kind x.srcLen (some core) = false then collect j stRetry 0 [] [] none v
    else modDie x.die (fun d => if kind = 1 then { d with rq := j :: d.rq.filter (· ≠ j) } else { d with macQ := j :: d.macQ.filter (· ≠ j) })
      (modJob j (fun y => { y with moved := true, bar := some core }) (countOn x.die 0x0F x.fn 1 v)) := by
  simp only [moveJob, there]
  exact if_congr (by simp) rfl rfl

end UnitFaults

/-- Settles O47: each event is one operation on the state at its instant, described by cases above. -/
theorem enginesEndAndFail : Obligations.EnginesEndAndFail := by
  unfold Obligations.EnginesEndAndFail
  intro t die s
  dsimp only
  have done (j) : exec (.engineJobDone t j) s = .next (settleLedger (engineDone j (tick t s))) := rfl
  have laneDone (lane verified) : exec (.laneJobDone t die lane verified) s = .next (settleLedger (Machine.laneDone die lane verified (tick t s))) := rfl
  have fetched (tenant table) : exec (.curveFetchDone t die tenant table) s = .next (curveFetched die tenant table (tick t s)) := rfl
  have yields (lane remaining need) : exec (.laneYield t die lane remaining need) s = .next (laneYield die lane remaining need (tick t s)) := rfl
  have faults (kind core) : exec (.engineFault t die kind core) s = .next (settleLedger (coreFault die kind core (tick t s))) := rfl
  generalize tick t s = u at *
  refine ⟨fun j x there => ⟨fun ends => ?_, fun stays => ?_⟩, fun lane verified => ⟨fun idle => ?_, fun j runs => ⟨fun good => ?_, fun bad => ?_⟩⟩,
    fun tenant table => ?_, fun lane remaining need => ⟨fun none => ?_, fun j x runs waits => ⟨fun gives => ?_, fun keeps => ?_⟩⟩,
    fun kind core => ⟨fun out => ?_, fun works there => ?_⟩, fun j kind core x v there => ?_⟩
  · exact next_congr (done j) (congrArg _ (engineDone_of_ends there ends))
  · exact next_congr (done j) (congrArg _ (engineDone_of_stays there stays))
  · exact next_congr (laneDone lane verified) (congrArg _ (laneDone_of_idle idle))
  · exact next_congr (laneDone lane verified) (congrArg _ (laneDone_of_good runs good))
  · exact next_congr (laneDone lane verified) (congrArg _ (laneDone_of_bad runs bad))
  · exact fetched tenant table
  · exact next_congr (yields lane remaining need) (laneYield_of_none none)
  · classical exact next_congr (yields lane remaining need) ((laneYield_eq runs waits).trans (if_pos gives))
  · classical exact next_congr (yields lane remaining need) ((laneYield_eq runs waits).trans (if_neg keeps))
  · exact next_congr (faults kind core) (congrArg _ (coreFault_of_out out))
  · exact next_congr (faults kind core) (congrArg _ (coreFault_of_works works there))
  · exact moveJob_of_job there

end Sys2Proof.Proofs
end

section
/-! PROOFS. The events of the entropy sources and DRBGs (R224 to R228, R234, R239, R247). From these O48. -/

namespace Sys2Proof.Proofs
open Sys2Proof Sys2Proof.Machine Sys2Proof.Safety

/-! ## Bows (R224 to R226) -/

section Bows

variable {die bow : Nat} {u : State} {test : BowTest}

theorem bowFail_of_dead (dead : (getDie u die).live = false) : bowFail die bow test u = u := by
  simp only [bowFail, dead, Bool.not_false, if_true]

theorem bowFail_of_startup (live : (getDie u die).live = true) (tested : ((getDie u die).bows.getD bow {}).shown u.time.now ≠ 1) :
    bowFail die bow .startup u = u := by
  simp only [bowFail, live, Bool.not_true, Bool.false_eq_true, if_false, if_true, if_neg tested]

/-- A test of a bow in use: the warning is a record, any other test drops the bow. -/
theorem bowFail_of_use (live : (getDie u die).live = true) (running : test ≠ .startup) :
    let st := ((getDie u die).bows.getD bow {}).st
    bowFail die bow test u = if st ≠ 2 ∧ st ≠ 3 then u
      else if test = .biasWarning then recEventAt die 0 0x0501 ([byte bow, byte bow, byte (testCode test)] ++ zeros 5) u
      else dropBow die bow test u := by
  simp only [bowFail, live, Bool.not_true, Bool.false_eq_true, if_false, if_neg running]
  exact if_congr (by simp) rfl rfl

/-- A bow that failed a test, counted; the blocks held are discarded where it was the active one and the test was one of its samples. -/
def bowDropped (die bow : Nat) (test : BowTest) (u : State) : State :=
  let b := (getDie u die).bows.getD bow {}
  let out := modDie die (fun d => { countTest test d with bows := lset d.bows bow (failBow u.time.now b) }) u
  if b.st = 3 ∧ (test = .repetition ∨ test = .adaptive) then reloadCarder die out else out

theorem dropBow_of_next {n : Nat} (active : ((getDie u die).bows.getD bow {}).st = 3) (next : nextBow (getDie u die) bow = some n) :
    dropBow die bow test u = recEventAt die 0 0x0501 ([byte bow, byte n, byte (testCode test)] ++ zeros 5)
      (modDie die (fun d => { d with bows := lset d.bows n { d.bows.getD n {} with st := 3 }, switches := satAdd d.switches 1 255 }) (bowDropped die bow test u)) := by
  simp only [dropBow, bowDropped, active, next, if_true]

theorem dropBow_of_last (active : ((getDie u die).bows.getD bow {}).st = 3) (last : nextBow (getDie u die) bow = none) :
    dropBow die bow test u = reportDown die (bowDropped die bow test u) := by
  simp only [dropBow, bowDropped, active, last, if_true]

theorem dropBow_of_standby (standby : ((getDie u die).bows.getD bow {}).st = 2) :
    dropBow die bow test u = modDie die (fun d => { countTest test d with bows := lset d.bows bow (failBow u.time.now ((getDie u die).bows.getD bow {})) }) u := by
  simp only [dropBow, standby, Nat.reduceEqDiff, false_and, if_false]

/-- The retest of a bow is due 100 ms after its last failure. -/
def RetestDue (u : State) (die bow : Nat) : Prop :=
  let b := (getDie u die).bows.getD bow {}
  (getDie u die).live = true ∧ b.st = 4 ∧ (b.fails.getLast?.getD 0) + 100000000 ≤ u.time.now

theorem retestDue_iff : ¬ RetestDue u die bow ↔ (!(getDie u die).live) = true ∨ ((getDie u die).bows.getD bow {}).st ≠ 4
    ∨ u.time.now < (((getDie u die).bows.getD bow {}).fails.getLast?.getD 0) + 100000000 := by
  simp only [RetestDue]
  cases (getDie u die).live <;> simp
  omega

theorem bowRetest_of_early {pass : Bool} (early : ¬ RetestDue u die bow) : bowRetest die bow pass u = u := by
  simp only [bowRetest, if_pos (retestDue_iff.mp early)]

theorem bowRetest_of_due {pass : Bool} (due : RetestDue u die bow) :
    let b := (getDie u die).bows.getD bow {}
    bowRetest die bow pass u = if pass then modDie die (fun d => { d with bows := lset d.bows bow { b with st := if d.bows.any (·.st = 3) then 2 else 3 } }) u
      else modDie die (fun d => { d with bows := lset d.bows bow (failBow u.time.now b) }) u := by
  simp only [bowRetest, if_neg (mt retestDue_iff.mpr (not_not.mpr due))]

theorem releaseBlock_eq :
    let d := getDie u die
    let c := freeBytes 32 u
    let f := freeBytes 32 c.2
    releaseBlock die u = if d.live = false ∨ entropyUp d = false then u
      else if 0 < d.discard then modDie die (fun d => { d with discard := d.discard - 1, carder := c.1 }) c.2
      else modDie die (fun d => { d with fifo := (d.fifo ++ d.stage.headD d.carder).take 4096, stage := [c.1], carder := f.1 }) f.2 := by
  rw [releaseBlock]
  exact if_congr (by simp) rfl rfl

end Bows

/-! ## What waits for entropy (R234, R239) -/

section Waits

variable {j : Nat} {x : Job} {u : State}

theorem entropyTimeout_of_waiter (there : mget u.jobs j = some x) (waits : x.phase = .wait 10 ∨ x.phase = .wait 12) (long : x.waitT + 10000000 ≤ u.time.now) :
    entropyTimeout j u = finishJob j stEntropy 0 [] [] u := by
  simp only [entropyTimeout, there, if_pos (And.intro waits long)]

theorem entropyTimeout_of_other (there : mget u.jobs j = some x)
    (other : ¬ ((x.phase = .wait 10 ∨ x.phase = .wait 12) ∧ x.waitT + 10000000 ≤ u.time.now)) :
    entropyTimeout j u = if x.ring ≠ ownRing ∧ x.entWait.any (· + 10000000 ≤ u.time.now) = true ∧ (getDie u x.die).rq.contains j = true
      then collect j stEntropy 0 [] [] none (modDie x.die (fun d => { d with rq := d.rq.filter (· ≠ j), fetching := d.fetching.filter (· ≠ j) }) u) else u := by
  simp only [entropyTimeout, there, if_neg other]

theorem entropyTimeout_of_draw (none : mget u.jobs j = none) :
    entropyTimeout j u = modDraw j (fun d => if d.due.isSome && d.waitT.any (· + 10000000 ≤ u.time.now) then d.hold else d) u := by
  simp only [entropyTimeout, none]

theorem drawPlacement_of_job (there : mget u.jobs j = some x) : drawPlacement j u =
    if x.phase = .wait 11 ∨ x.phase = .wait 12 then (match drawPlace u x.tenant with
      | .fail i => finishJob j stNotReady i [] [] u
      | .die p => placeDraw j p u
      | .wait => modJob j (fun y => { y with phase := .wait 11 }) u
      | .waitEntropy => modJob j (fun y => { y with phase := .wait 12, waitT := if y.phase = .wait 12 then y.waitT else u.time.now }) u) else u := by
  simp only [drawPlacement, there] <;> rfl

theorem drawPlacement_of_none (gone : mget u.jobs j = none) : drawPlacement j u = u := by simp only [drawPlacement, gone]

end Waits

/-! ## Scheduled draws (R247) -/

section Draws

variable {i e p : Nat} {r : Draw} {u : State}

theorem executeDraw_of_none (none : u.hold = true ∨ (u.draws.find? (·.id = i)).bind (·.due) = none) : executeDraw i u = u := by
  rw [executeDraw]
  split
  next => rfl
  next running =>
    have undue := none.resolve_left running
    cases found : u.draws.find? (·.id = i) with
    | none => rfl
    | some d =>
      rw [found, Option.bind_some] at undue
      simp only [undue]

variable (running : u.hold = false) (found : u.draws.find? (·.id = i) = some r) (due : r.due = some e)
include running found due

theorem executeDraw_of_no_die (none : dueDie u r = none) : executeDraw i u = if drawPossible u r.tenant then u else waitDraw i u := by
  simp only [executeDraw, running, Bool.false_eq_true, if_false, found, due, none]

theorem executeDraw_of_later (die : dueDie u r = some p) (later : notFirst u r = true) : executeDraw i u = u := by
  simp only [executeDraw, running, Bool.false_eq_true, if_false, found, due, die, later, if_true]

theorem executeDraw_of_seedless (die : dueDie u r = some p) (first : notFirst u r = false) (seedless : takeSeed p u = none) :
    executeDraw i u = waitDraw i u := by
  simp only [executeDraw, running, Bool.false_eq_true, if_false, found, due, die, first, seedless]

theorem executeDraw_of_seed {v : Bytes × State} (die : dueDie u r = some p) (first : notFirst u r = false) (seed : takeSeed p u = some v) :
    executeDraw i u = runDraw r e p v.1 v.2 := by
  simp only [executeDraw, running, Bool.false_eq_true, if_false, found, due, die, first, seed]

end Draws

/-- Settles O48: each event is one operation on the state at its instant, described by cases above. -/
theorem entropyEventsAct : Obligations.EntropyEventsAct := by
  unfold Obligations.EntropyEventsAct
  intro t die bow s
  dsimp only
  have fails (test) : exec (.bowTestFail t die bow test) s = .next (bowFail die bow test (tick t s)) := rfl
  have retests (pass) : exec (.bowRetest t die bow pass) s = .next (settleLedger (serveEntropy die (bowRetest die bow pass (tick t s)))) := rfl
  have releases : exec (.releaseBlock t die) s = .next (settleLedger (serveEntropy die (releaseBlock die (tick t s)))) := rfl
  have timeouts (j) : exec (.entropyWaitTimeout t j) s = .next (settleAll (entropyTimeout j (tick t s))) := rfl
  have places (j) : exec (.drawPlacement t j) s = .next (settleAll (drawPlacement j (tick t s))) := rfl
  have draws (i) : exec (.scheduledDrawExecute t i) s = .next (settleAll (executeDraw i (tick t s))) := rfl
  generalize tick t s = u at *
  refine ⟨fun test => ⟨fun dead => ?_, fun live startup tested => ?_, fun live running standby active => ?_, fun live warning used => ?_,
      fun n live running hard active next => ?_, fun live running hard active last => ?_, fun live running hard standby => ?_⟩,
    ⟨fun early pass => ?_, fun due => ⟨?_, ?_⟩⟩, ?_,
    fun j => ⟨fun x there waits long => ?_, fun x there other => ?_, fun none => ?_⟩, fun j x there => ?_, fun j gone => ?_,
    fun i => ⟨fun none => ?_, fun r e running found due => ⟨fun none => ?_, fun p die => ⟨fun later => ?_, fun first seedless => ?_, fun v first seed => ⟨fun out => ?_, fun ob out => ?_⟩⟩⟩⟩⟩
  · exact next_congr (fails test) (bowFail_of_dead dead)
  · subst startup
    exact next_congr (fails .startup) (bowFail_of_startup live tested)
  · exact next_congr (fails test) ((bowFail_of_use live running).trans (if_pos ⟨standby, active⟩))
  · subst warning
    exact next_congr (fails .biasWarning) ((bowFail_of_use live (by decide)).trans (if_neg (by omega)))
  · exact next_congr (fails test) ((bowFail_of_use live running).trans ((if_neg (by omega)).trans ((if_neg hard).trans (dropBow_of_next active next))))
  · exact next_congr (fails test) ((bowFail_of_use live running).trans ((if_neg (by omega)).trans ((if_neg hard).trans (dropBow_of_last active last))))
  · exact next_congr (fails test) ((bowFail_of_use live running).trans ((if_neg (by omega)).trans ((if_neg hard).trans (dropBow_of_standby standby))))
  · exact next_congr (retests pass) (congrArg (fun v => settleLedger (serveEntropy die v)) (bowRetest_of_early early))
  · exact next_congr (retests true) (congrArg (fun v => settleLedger (serveEntropy die v)) (bowRetest_of_due due))
  · exact next_congr (retests false) (congrArg (fun v => settleLedger (serveEntropy die v)) (bowRetest_of_due due))
  · exact next_congr releases (congrArg (fun v => settleLedger (serveEntropy die v)) releaseBlock_eq)
  · exact next_congr (timeouts j) (congrArg _ (entropyTimeout_of_waiter there waits long))
  · exact next_congr (timeouts j) (congrArg _ (entropyTimeout_of_other there other))
  · exact next_congr (timeouts j) (congrArg _ (entropyTimeout_of_draw none))
  · exact next_congr (places j) (congrArg _ (drawPlacement_of_job there))
  · exact next_congr (places j) (congrArg _ (drawPlacement_of_none gone))
  · exact next_congr (draws i) (congrArg _ (executeDraw_of_none none))
  · exact next_congr (draws i) (congrArg _ (executeDraw_of_no_die running found due none))
  · exact next_congr (draws i) (congrArg _ (executeDraw_of_later running found due die later))
  · exact next_congr (draws i) (congrArg _ (executeDraw_of_seedless running found due die first seedless))
  · refine next_congr (draws i) (congrArg _ ((executeDraw_of_seed running found due die first seed).trans ?_))
    simp only [runDraw, out]
  · refine next_congr (draws i) (congrArg _ ((executeDraw_of_seed running found due die first seed).trans ?_))
    simp only [runDraw, out]

end Sys2Proof.Proofs
end

section
/-! PROOFS. The events of the ledger, its batches, its store and its rings (R192, R193, R198, R202, R210, R213 to R217, R221, R458). From these O49. -/

namespace Sys2Proof.Proofs
open Sys2Proof Sys2Proof.Machine Sys2Proof.Safety

/-! ## Subtree roots (R192, R193, R198) -/

section Roots

variable {die tn e : Nat} {p : PendRoot} {u : State}

theorem dieRoot_of_none (none : (getLedger u tn).pend.find? (·.epoch = e) = none) : dieRoot die tn e u = u := by simp only [dieRoot, none]

theorem dieRoot_of_barred (found : (getLedger u tn).pend.find? (·.epoch = e) = some p)
    (barred : (getDie u die).live = false ∨ (u.hold = true ∧ u.pwr.holdAt ≤ p.closedAt)) : dieRoot die tn e u = u := by
  simp only [dieRoot, found]
  exact if_pos (by simpa using barred)

theorem dieRoot_of_live (found : (getLedger u tn).pend.find? (·.epoch = e) = some p) (live : (getDie u die).live = true)
    (free : u.hold = false ∨ p.closedAt < u.pwr.holdAt) :
    let d := finaliseDie e (getDie u die)
    let x := subtreeOf d tn e
    let v := modDie die (fun _ => d.dropTree tn e) u
    dieRoot die tn e u = if p.host = true ∨ (p.roots.getD die none).isSome = true ∨ p.discarded.testBit die = true then v
      else if x.count = p.counts.getD die 0 then finalise 64 tn (setRoot tn p.epoch die (fun p => { p with roots := lset p.roots die (some (rootOfNodes x.nodes)) }) v)
      else recEvent 0x0401 (leBytes 2 tn ++ leBytes 6 p.epoch) (setRoot tn p.epoch die (fun p => { p with discarded := p.discarded ||| 2 ^ die }) v) := by
  have able : ¬ ((!(getDie u die).live || (u.hold && decide (u.pwr.holdAt ≤ p.closedAt))) = true) := by
    rw [live]
    rcases free with running | before
    · simp [running]
    · simp [not_le.mpr before]
  simp only [dieRoot, found, if_neg able, takeRoot]

/-- A root needs no rebuild: it is the host's, it is there, or its die still has it. -/
def RootNeedless (u : State) (die : Nat) (p : PendRoot) : Prop :=
  p.host = true ∨ (p.roots.getD die none).isSome = true ∨ ((getDie u die).live = true ∧ p.discarded.testBit die = false)

theorem rootNeedless_iff : RootNeedless u die p ↔ p.host = true ∨ (p.roots.getD die none).isSome = true ∨ ((getDie u die).live = true ∧ (!p.discarded.testBit die) = true) := by
  simp [RootNeedless]

theorem dieRootRebuild_of_none {ok : Bool} (none : (getLedger u tn).pend.find? (·.epoch = e) = none) : dieRootRebuild die tn e ok u = u := by
  simp only [dieRootRebuild, none]

theorem dieRootRebuild_of_needless {ok : Bool} (found : (getLedger u tn).pend.find? (·.epoch = e) = some p) (needless : RootNeedless u die p) :
    dieRootRebuild die tn e ok u = u := by
  simp only [dieRootRebuild, found, if_pos (rootNeedless_iff.mp needless)]

theorem dieRootRebuild_of_missing {ok : Bool} (found : (getLedger u tn).pend.find? (·.epoch = e) = some p) (missing : ¬ RootNeedless u die p) :
    dieRootRebuild die tn e ok u = finalise 64 tn (if ok then setRoot tn e die (rebuiltRoot die ok) u
      else recEvent 0x0405 (leBytes 2 tn ++ leBytes 6 e) (setRoot tn e die (rebuiltRoot die ok) u)) := by
  simp only [dieRootRebuild, found, if_neg (mt rootNeedless_iff.mpr missing)]

end Roots

/-! ## Batch signatures (R202, R210) -/

section Batches

variable {b : Batch} {u v : State} {id : Nat}

theorem signBatch_of_none (none : u.signQ.find? (·.sig.isNone) = none) : signBatch u = u := by simp only [signBatch, none]

theorem signBatch_of_idle (found : u.signQ.find? (·.sig.isNone) = some b)
    (idle : u.jobs.find? (fun j => j.2.batch = some b.no && (laneOf u j.1).isSome) = none) : signBatch u = u := by simp only [signBatch, found, idle]

theorem signBatch_of_lane {j : Nat × Job} (found : u.signQ.find? (·.sig.isNone) = some b)
    (signs : u.jobs.find? (fun j => j.2.batch = some b.no && (laneOf u j.1).isSome) = some j) : signBatch u = batchEnd j.1 u := by
  simp only [signBatch, found, signs]

/-- The lane of a batch's signature is free again, and its job is gone. -/
def laneCleared (id : Nat) (v : State) : State :=
  let f := freeLane id v
  { f with jobs := mdel f.jobs id }

theorem batchEnd_of_none (none : (laneCleared id v).signQ.find? (fun b => (getJob v id).batch = some b.no && b.sig.isNone) = none) :
    batchEnd id v = laneCleared id v := by
  simp only [laneCleared] at none
  simp only [batchEnd, none, laneCleared]

variable (found : (laneCleared id v).signQ.find? (fun b => (getJob v id).batch = some b.no && b.sig.isNone) = some b)
include found

theorem batchEnd_of_keyless (keyless : batchKey (laneCleared id v) b = none) : batchEnd id v = laneCleared id v := by
  simp only [laneCleared] at found keyless
  simp only [batchEnd, found, keyless, laneCleared]

theorem batchEnd_of_key {k : KeySlot} (key : batchKey (laneCleared id v) b = some k) :
    let g := deviceSign (getJob v id).die k b.key (batchMessage b k.alg) (laneCleared id v)
    batchEnd id v = releaseSigned g.2.signQ.length { g.2 with signQ := g.2.signQ.map fun c => if c.no = b.no then { c with sig := some (k.alg, g.1) } else c } := by
  simp only [laneCleared] at found key
  simp only [batchEnd, found, key, laneCleared]

end Batches

/-! ## Host roots (R213) -/

section HostRoots

variable {tn : Nat} {ok : Bool} {p : PendRoot} {u : State}

theorem hostDeadline_of_none (none : awaiting (getLedger u tn) = none) : hostDeadline tn ok u = u := by simp only [hostDeadline, none]

theorem hostDeadline_of_early (waits : awaiting (getLedger u tn) = some p) (early : u.time.now < p.closedAt + (getLedger u tn).deadline * 1000000000) :
    hostDeadline tn ok u = u := by
  simp only [hostDeadline, waits, if_neg (not_le.mpr early)]

theorem hostDeadline_of_due (waits : awaiting (getLedger u tn) = some p) (due : p.closedAt + (getLedger u tn).deadline * 1000000000 ≤ u.time.now) :
    let q0 := { p with fallback := true, host := false, sub := none, roots := p.dieVal.map some }
    let q := (List.range 8).foldl (fun q d => if p.counts.getD d 0 = 0 then q else rebuiltRoot d ok q) q0
    let v := recEvent 0x0404 (leBytes 2 tn ++ leBytes 6 p.epoch) (modLedger tn (fun l => { putPend q l with lapsed := p.sub.isSome || l.lapsed }) u)
    hostDeadline tn ok u = finalise 64 tn (if ok = true then v else recEvent 0x0405 (leBytes 2 tn ++ leBytes 6 p.epoch) v) := by
  simp only [hostDeadline, waits, if_pos due]

end HostRoots

/-! ## The journal store, the checkpoint and the leaf message (R214 to R217, R221, R458) -/

section Store

variable {ok : Bool} {p : JPage} {u : State}

/-- The store takes the page: it is active, the bus serves, and no open epoch lies in its place. -/
def StoreTakes (u : State) (p : JPage) : Prop := u.jsActive = true ∧ busOff u 0 = false ∧ storePlaceFree u p = true

theorem storeTakes_iff : ¬ StoreTakes u p ↔ (!u.jsActive) = true ∨ busOff u 0 = true ∨ (!storePlaceFree u p) = true := by
  simp only [StoreTakes]
  cases u.jsActive <;> cases busOff u 0 <;> cases storePlaceFree u p <;> simp

theorem journalPageWrite_of_none (none : nextStorePage u = none) : journalPageWrite ok u = u := by simp only [journalPageWrite, none]

theorem journalPageWrite_of_barred (next : nextStorePage u = some p) (barred : ¬ StoreTakes u p) : journalPageWrite ok u = u := by
  simp only [journalPageWrite, next, if_pos (storeTakes_iff.mp barred)]

theorem journalPageWrite_of_failed (next : nextStorePage u = some p) (takes : StoreTakes u p) :
    journalPageWrite false u = { u with storeFault := true, storeStall := true } := by
  simp only [journalPageWrite, next, if_neg (mt storeTakes_iff.mpr (not_not.mpr takes)), Bool.not_false, if_true]

theorem journalPageWrite_of_written (next : nextStorePage u = some p) (takes : StoreTakes u p) :
    let v := emit (.write 0 (u.jsBase + p.no % 2 ^ u.jsLog2 * 4608) p.bytes) u
    let gone := (v.pages.filter fun q => q.store && q.no % 2 ^ u.jsLog2 = p.no % 2 ^ u.jsLog2).map (·.epoch)
    journalPageWrite true u = settle { v with
      storeStall := false
      pages := (v.pages.filter fun q => !gone.contains q.epoch).map
        (fun (q : JPage) => if q.no = p.no then { q with store := true, sram := false } else q) } := by
  simp only [journalPageWrite, next, if_neg (mt storeTakes_iff.mpr (not_not.mpr takes)), Bool.not_true, Bool.false_eq_true, if_false]

theorem ckptOver_eq : ckptOver u = if u.lcs ≠ .blank ∧ u.lcs ≠ .test ∧ acquired u = true ∧ u.ckptAt + 60000000000 ≤ u.time.now
    then { u with ckptOverdue := true } else u := by
  rw [ckptOver]
  exact if_congr (by simp [imageless, and_assoc]) rfl rfl

theorem leafMessage_eq (i : Nat) : leafMessage i u = match u.lrings[i]? with
    | none => u
    | some r => if r.leafDue = true ∧ r.leafMsgAt + 100000 ≤ u.time.now then
        let v := { u with lrings := lset u.lrings i { r with leafDue := false, leafMsgAt := u.time.now } }
        if r.vector = 0xFF then v else signal r.owner r.vector v
      else u := by
  rw [leafMessage] <;> rfl

theorem jsConfig_of_window (v : Nat) : (if windowOpen u 0 false then jsConfig v u else u) =
    if windowOpen u 0 false = false ∨ u.jsActive = true then u
    else if bits v 8 1 ≠ 1 then { u with jsLog2 := bits v 0 5 }
    else if 10 ≤ bits v 0 5 ∧ bits v 0 5 ≤ 24 ∧ u.jsBase % 4096 = 0 then { u with jsLog2 := bits v 0 5, jsActive := true } else { u with jsBad := true } := by
  cases windowOpen u 0 false with
  | false => rfl
  | true =>
    cases active : u.jsActive with
    | true => simp only [jsConfig, active, if_true, or_true]
    | false =>
      simp only [jsConfig, active, if_true, Bool.false_eq_true, if_false, or_self, Bool.true_eq_false, ne_eq, ite_not]

end Store

/-- Settles O49: each event is one operation on the state at its instant, described by cases above. -/
theorem ledgerEventsAct : Obligations.LedgerEventsAct := by
  unfold Obligations.LedgerEventsAct
  intro t s
  dsimp only
  have returns (die tn e) : exec (.dieRootReturn t die tn e) s = .next (settleLedger (dieRoot die tn e (tick t s))) := rfl
  have rebuilds (die tn e ok) : exec (.dieRootRebuild t die tn e ok) s = .next (settleLedger (dieRootRebuild die tn e ok (tick t s))) := rfl
  have signs : exec (.batchSigned t) s = .next (settleLedger (signBatch (tick t s))) := rfl
  have deadlines (tn ok) : exec (.hostRootDeadline t ⟨tn, ok⟩) s = .next (settleLedger (hostDeadline tn ok (tick t s))) := rfl
  have writes (ok) : exec (.journalPageWrite t ok) s = .next (settleLedger (journalPageWrite ok (tick t s))) := rfl
  have overdue : exec (.checkpointOverdue t) s = .next (ckptOver (tick t s)) := rfl
  have leaves (i) : exec (.ledgerLeafMessage t i) s = .next (leafMessage i (tick t s)) := rfl
  have enables (v) : exec (.ldgJsEnable t v) s = .next (if windowOpen (tick t s) 0 false then jsConfig v (tick t s) else tick t s) := rfl
  generalize tick t s = u at *
  refine ⟨fun die tn e => ⟨fun p found live free => ?_, fun none => ?_, fun p found barred => ?_,
      fun p found => ⟨fun needless ok => ?_, fun missing => ⟨?_, ?_⟩⟩, fun none ok => ?_⟩,
    ⟨fun b j found lane => ?_, fun b found idle => ?_, fun none => ?_⟩,
    fun id v => ⟨fun none => ?_, fun b found keyless => ?_, fun b k found key => ?_⟩,
    fun tn ok => ⟨fun p waits due => ?_, fun p waits early => ?_, fun none => ?_⟩,
    ⟨fun ok none => ?_, fun p next => ⟨fun barred ok => ?_, fun takes => ⟨?_, ?_⟩⟩⟩, ?_, fun i => ?_, fun v => ?_⟩
  · exact next_congr (returns die tn e) (congrArg _ (dieRoot_of_live found live free))
  · exact next_congr (returns die tn e) (congrArg _ (dieRoot_of_none none))
  · exact next_congr (returns die tn e) (congrArg _ (dieRoot_of_barred found barred))
  · exact next_congr (rebuilds die tn e ok) (congrArg _ (dieRootRebuild_of_needless found needless))
  · exact next_congr (rebuilds die tn e true) (congrArg _ (dieRootRebuild_of_missing found missing))
  · exact next_congr (rebuilds die tn e false) (congrArg _ (dieRootRebuild_of_missing found missing))
  · exact next_congr (rebuilds die tn e ok) (congrArg _ (dieRootRebuild_of_none none))
  · exact next_congr signs (congrArg _ (signBatch_of_lane found lane))
  · exact next_congr signs (congrArg _ (signBatch_of_idle found idle))
  · exact next_congr signs (congrArg _ (signBatch_of_none none))
  · exact batchEnd_of_none none
  · exact batchEnd_of_keyless found keyless
  · exact batchEnd_of_key found key
  · exact next_congr (deadlines tn ok) (congrArg _ (hostDeadline_of_due waits due))
  · exact next_congr (deadlines tn ok) (congrArg _ (hostDeadline_of_early waits early))
  · exact next_congr (deadlines tn ok) (congrArg _ (hostDeadline_of_none none))
  · exact next_congr (writes ok) (congrArg _ (journalPageWrite_of_none none))
  · exact next_congr (writes ok) (congrArg _ (journalPageWrite_of_barred next barred))
  · exact next_congr (writes false) (congrArg _ (journalPageWrite_of_failed next takes))
  · exact next_congr (writes true) (congrArg _ (journalPageWrite_of_written next takes))
  · exact next_congr overdue ckptOver_eq
  · exact next_congr (leaves i) (leafMessage_eq i)
  · exact next_congr (enables v) (jsConfig_of_window v)

end Sys2Proof.Proofs
end

section
/-! PROOFS. Accesses to the BARs (R91, R94, R95, R118, R124, R147, R153, R463, R464, R475 to R477, R479). From these O51. -/

namespace Sys2Proof.Proofs
open Sys2Proof Sys2Proof.Machine Sys2Proof.Safety

/-! ## A function's own window (R124, R153, R475) -/

section Windows

variable {fn off len v : Nat} {u : State}

theorem fnWrite_of_closed (closed : fnOpen u fn = false) : fnWrite fn off len v u = u := by simp only [fnWrite, closed, Bool.not_false, if_true]

theorem fnWrite_of_slot {r : Nat} (opened : fnOpen u fn = true) (slot : slotRing off = some r) :
    fnWrite fn off len v u = if (getQ u ⟨fn, r⟩).st = .absent ∨ 0x18 ≤ off % 0x40 then u
      else if len = 4 ∧ off % 4 = 0 then slotWord ⟨fn, r⟩ (off % 0x40) (lo32 v) u
      else modQ ⟨fn, r⟩ (fun y => { y with badWrite := true }) u := by
  simp only [fnWrite, opened, slot, Bool.not_true, Bool.false_eq_true, if_false, slotWrite]
  exact if_congr Iff.rfl rfl (if_congr (by omega) rfl rfl)

theorem fnWrite_of_no_slot (opened : fnOpen u fn = true) (slot : slotRing off = none) : fnWrite fn off len v u =
    if 0x1100 ≤ off ∧ off < 0x1320 then (if len = 4 ∧ off % 4 = 0 then cqWrite fn ((off - 0x1100) / 0x20) (off % 0x20) (lo32 v) u else u)
    else if 0x2000 ≤ off ∧ off < 0x2400 then
      if len = 4 ∧ off % 4 = 0 then msixWrite fn (off - 0x2000) (lo32 v) u
      else if len = 8 ∧ off % 8 = 0 then msixWrite fn (off - 0x2000 + 4) (hi32 v) (msixWrite fn (off - 0x2000) (lo32 v) u)
      else u
    else u := by
  simp only [fnWrite, opened, slot, Bool.not_true, Bool.false_eq_true, if_false]

/-- The slots end below 4 KiB. -/
theorem slotRing_of_high (high : 0x1000 ≤ off) : slotRing off = none := by
  simp only [slotRing]
  rw [if_neg (by omega), if_neg (by omega), if_neg (by omega)]

end Windows

/-! ## The set-up area (R463, R464, R477, R479) -/

section SetUp

variable {off len v : Nat} {u : State}

theorem setupWord_wake : setupWord 0x1C0014 v u = if v.testBit 0 then wakeUp 0 u else u := rfl

theorem setupAccess_eq : setupAccess off len v u =
    if u.startStep < 5 ∨ u.lcs = .scrap ∨ (getFn u 0).mse = false then u
    else if u.pwrState ≠ 0 then (if off = 0x1C0014 ∧ len = 4 ∧ v.testBit 0 = true then wakeUp 0 u else u)
    else if u.lcs = .invalid ∧ invalidServes ((off - 0x100000) / 0x10000) = false then u
    else if len = 4 ∧ off % 4 = 0 then (if (setupReg u off).isSome then setupWord off (lo32 v) u else u)
    else if len = 8 ∧ pairWrites.contains off then setupWord (off + 4) (hi32 v) (setupWord off (lo32 v) u)
    else if (setupReg u (off / 4 * 4)).isSome then { u with badOffset := off % 4194304, badCount := satAdd u.badCount 1 255 } else u := by
  have wake : (if off = 0x1C0014 ∧ len = 4 then setupWord off v u else u) = if off = 0x1C0014 ∧ len = 4 ∧ v.testBit 0 = true then wakeUp 0 u else u := by
    by_cases place : off = 0x1C0014
    · subst place
      rw [setupWord_wake]
      by_cases word : len = 4 <;> simp [word]
    · rw [if_neg (fun h => place h.1), if_neg (fun h => place h.1)]
  rw [setupAccess, wake]
  exact if_congr (by simp) rfl (if_congr Iff.rfl rfl (if_congr (by simp [winOf]) rfl rfl))

/-- The admin registers lie at the start of the RING window. -/
theorem setupWord_of_admin (low : off < 0x1C) : setupWord (0x110000 + off) v u = pfAdminWord off v u := by
  have window : winOf (0x110000 + off) = (1, off) := by
    simp only [winOf, Prod.mk.injEq]
    omega
  simp only [setupWord, window, if_pos low]
  rfl

end SetUp

/-! ## Reads and PWR_WAKE (R95, R464, R476) -/

section Reads

variable {fn off len : Nat} {u : State}

/-- The BAR serves a read. -/
def ReadAnswers (u : State) (fn off len : Nat) : Prop :=
  5 ≤ u.startStep ∧ u.lcs ≠ .scrap ∧ fnExists u fn = true ∧ (getFn u fn).mse = true ∧ off + len ≤ barSize u fn ∧ readServed fn off len = true

theorem readAnswers_iff : barAnswers u fn off len = true ↔ ReadAnswers u fn off len := by
  simp [barAnswers, ReadAnswers, and_assoc]

theorem barRead_eq : barRead fn off len u =
    if 5 ≤ u.startStep ∧ u.lcs ≠ .scrap ∧ fnExists u fn = true ∧ (getFn u fn).mse = true ∧ off + len ≤ barSize u fn ∧ readServed fn off len = true then
      let v := if fn = 0 then latchPairs off len u else u
      emit (.readData ((List.range len).map fun i => barByte v fn (off + i))) v
    else emit .unsupported u := by
  cases served : barAnswers u fn off len with
  | false =>
    have silent : ¬ ReadAnswers u fn off len := by
      rw [← readAnswers_iff, served]
      exact nofun
    rw [barRead, served]
    exact (if_neg silent).symm
  | true =>
    rw [barRead, served]
    exact (if_pos (readAnswers_iff.mp served)).symm

theorem wake_eq (v : Nat) : (if v.testBit 0 then wakeUp 0 u else u) =
    if v.testBit 0 = true ∧ u.pwrState = 2 then { u with pwrState := 3, pwr := { u.pwr with wakeCause := 0 } } else u := by
  by_cases written : v.testBit 0 = true
  · rw [if_pos written, wakeUp]
    exact if_congr (by simp [written]) rfl rfl
  · rw [if_neg written, if_neg fun h => written h.1]

end Reads

/-- Settles O51: each access is one operation on the state at its instant, described by cases above. -/
theorem barAccessesAct : Obligations.BarAccessesAct := by
  unfold Obligations.BarAccessesAct
  intro t fn s
  dsimp only
  have writes (fn off len v) : exec (.registerWrite t fn off len v) s = .next (barWrite fn off len v (tick t s)) := rfl
  have configures (off len v) : exec (.pfAdminConfigWrite t off len v) s = .next (if off < 0x1C then setupAccess (0x110000 + off) len v (tick t s) else tick t s) := rfl
  have reads (off len) : exec (.pairLatchRead t ⟨fn, off⟩ len) s = .next (barRead fn off len (tick t s)) := rfl
  have wakes (v) : exec (.pwrWake t v) s = .next (if v.testBit 0 then wakeUp 0 (tick t s) else tick t s) := rfl
  generalize tick t s = u at *
  have window {off len v} (low : off < 0x4000) : barWrite fn off len v u = fnWrite fn off len v u := if_pos low
  refine ⟨fun off len v low => ⟨fun closed => ?_, fun opened => ⟨fun r slot => ?_, fun slot from_ to_ => ?_, fun from_ to_ => ?_, fun slot ring table => ?_⟩⟩,
    fun r v => ⟨rfl, rfl, rfl, rfl, rfl, rfl⟩, fun off len v high => ⟨fun vf => ?_, ?_⟩, fun off len v => setupAccess_eq, fun v => ⟨rfl, rfl, rfl⟩,
    fun off len v => configures off len v, fun off v low => setupWord_of_admin low, fun off len => ?_, fun v => ?_⟩
  · exact next_congr (writes fn off len v) ((window low).trans (fnWrite_of_closed closed))
  · exact next_congr (writes fn off len v) ((window low).trans (fnWrite_of_slot opened slot))
  · exact next_congr (writes fn off len v) ((window low).trans ((fnWrite_of_no_slot opened slot).trans (if_pos ⟨from_, to_⟩)))
  · exact next_congr (writes fn off len v) ((window low).trans ((fnWrite_of_no_slot opened (slotRing_of_high (by omega))).trans
      ((if_neg (by omega)).trans (if_pos ⟨from_, to_⟩))))
  · exact next_congr (writes fn off len v) ((window low).trans ((fnWrite_of_no_slot opened slot).trans ((if_neg (by omega)).trans (if_neg (by omega)))))
  · exact next_congr (writes fn off len v) ((if_neg (not_lt.mpr high)).trans (if_neg vf))
  · exact next_congr (writes 0 off len v) ((if_neg (not_lt.mpr high)).trans (if_pos rfl))
  · exact next_congr (reads off len) barRead_eq
  · exact next_congr (wakes v) (wake_eq v)

end Sys2Proof.Proofs
end

section
/-! PROOFS. The events of the host link and of function resets (R93, R106, R112, R114 to R119, R221, R464, R467). From these O52. -/

namespace Sys2Proof.Proofs
open Sys2Proof Sys2Proof.Machine Sys2Proof.Safety Sys2Proof.Laws

/-! ## Resets from the link (R106, R117, R464) -/

section LinkResets

variable {fn code : Nat} {u : State}

/-- During RETAIN a reset of the link is put off and wakes the package. -/
theorem linkReset_of_retain (retains : u.pwrState = 2) :
    linkReset code u = { u with pwrState := 3, pwr := { u.pwr with flrs := u.pwr.flrs ++ [code], wakeCause := 2 } } := by
  rw [linkReset, if_pos (.inl retains), wakeUp]
  exact if_pos retains

theorem linkReset_of_wake (wakes : u.pwrState = 3) : linkReset code u = { u with pwr := { u.pwr with flrs := u.pwr.flrs ++ [code] } } := by
  have awake : ¬ u.pwrState = 2 := by omega
  rw [linkReset, if_pos (.inr wakes), wakeUp]
  exact if_neg awake

variable (asleep : u.pwrState ≠ 2) (wakes : u.pwrState ≠ 3)
include asleep wakes

theorem linkReset_of_active : linkReset code u = if code = 0x10000 then hotReset u else if code = 0 then storeRecovers (flr 0 u) else flr code u := by
  rw [linkReset, if_neg (not_or.mpr ⟨asleep, wakes⟩)]

theorem linkReset_of_vf (vf : fn ≠ 0) (other : fn ≠ 0x10000) :
    linkReset fn u = if fnExists u fn = false then u else toD0 fn (if (getFn u fn).present = true then startReset fn u else u) := by
  rw [linkReset_of_active asleep wakes, if_neg other, if_neg vf, flr]
  refine if_congr (by simp) rfl ?_
  cases (getFn u fn).present with
  | false => rfl
  | true => exact if_neg vf

end LinkResets

/-- The PF's FLR reaches every function (R106). -/
theorem flr_pf {v : State} (present : (getFn v 0).present = true) : let w := destroyVfs (toD0 0 (startReset 0 v))
    flr 0 v = { w.fns.foldl (fun s f => if f.1 = 0 then s else toD0 f.1 s) w with linkFatal := w.linkFatal && w.linkWidth = 0 } := by
  have exists_ : fnExists v 0 = true := by simp [fnExists]
  simp only [flr, exists_, present, Bool.not_true, Bool.false_eq_true, if_false, if_true]

theorem linkTrain_eq (w g : Nat) (u : State) : let v := { u with linkWidth := w, linkSpeed := g }
    linkTrain w g u = if 16 ≤ w ∧ 32 ≤ g then v else recEvent 0x0203 ([byte w, byte g] ++ zeros 6) v := by
  intro v
  by_cases full : 16 ≤ w ∧ 32 ≤ g
  · rw [if_pos full, linkTrain, if_neg (by omega)]
  · rw [if_neg full, linkTrain, if_pos (by omega)]

/-! ## The end of a function's reset (R106, R221) -/

section ResetEnds

variable {fn : Nat} {u : State}

theorem finishReset_of_idle (idle : (getFn u fn).resetting = false) : finishReset fn u = u := by
  simp only [finishReset, idle, Bool.not_false, if_true]

/-- The function and its rings at the end of its reset. -/
def resetEnded (fn : Nat) (u : State) : State :=
  modFn fn (fun f => { resetRings (decide (fn = 0)) f with
    resetting := false, waiters := [], destroying := false, present := f.present && !f.destroying
    ready := !f.destroying && (fn ≠ 0 || decide (8 < u.startStep)) }) { u with lrings := u.lrings.filter (·.owner ≠ fn) }

theorem finishReset_of_resetting (resets : (getFn u fn).resetting = true) :
    let f := getFn u fn
    let a := resetEnded fn u
    let ids := (a.jobs.filter fun j => j.2.fn = fn && j.2.ring != ownRing).map (·.1)
    let gone := modFn fn (fun f => { f with queues := [], cqs := [], past := f.pastGrants a ++ [(ids, f.g)], g := {} }) a
    finishReset fn u = f.waiters.foldl (fun s j => okJob j [] [] s) (raiseFnEvent 2 (
      if f.destroying then gone
      else if fn = 0 then indexOut 0 16 (modQ ⟨0, 0x40⟩ (fun q => q) a)
      else signal fn 0 (indexOut fn 16 (modQ ⟨fn, 0x40⟩ (fun q => { q with st := .running }) a)))) := by
  have goes : ¬ (!(getFn u fn).resetting) = true := by simp [resets]
  rw [finishReset]
  refine (if_neg goes).trans ?_
  cases (getFn u fn).destroying with
  | true => rfl
  | false =>
    by_cases pf : fn = 0
    · subst pf
      rfl
    · simp only [Bool.false_eq_true, if_false, if_neg pf]
      rfl

end ResetEnds

/-- Settles O52: each event is one operation on the state at its instant, described by cases above. -/
theorem hostLinkEventsAct : Obligations.HostLinkEventsAct := by
  unfold Obligations.HostLinkEventsAct
  intro t fn s
  dsimp only
  have resets (fn) : exec (.flr t fn) s = .next (linkReset fn (tick t s)) := rfl
  have hot : exec (.hotReset t) s = .next (linkReset 0x10000 (tick t s)) := rfl
  have fatal (a) : exec (.linkFatalError t a) s = .next (linkFatalErr a (tick t s)) := rfl
  have poisoned (off) : exec (.poisonedBarWrite t fn off) s = .next (aerError fn 1 off (tick t s)) := rfl
  have trains (w g) : exec (.linkTrained t w g) s = .next (linkTrain w g (tick t s)) := rfl
  have ends : exec (.instanceResetDone t fn) s = .next (finishReset fn (tick t s)) := rfl
  have enables (on mem) : exec (.busMasterEnableChange t fn ⟨on, mem⟩) s = .next (settleLedger (restartEngines (storeRecovers (busMaster fn on mem (tick t s))))) := rfl
  refine ⟨rfl, rfl, fun on mem => enables on mem, fun v => rfl, fun n p => rfl, rfl, ?_⟩
  generalize tick t s = u at *
  refine ⟨fun retains => ⟨?_, ?_⟩, fun wakes => ⟨?_, ?_⟩, fun asleep wakes => ⟨fun vf other => ?_, ?_, ?_⟩, fun v present => flr_pf present, fatal, poisoned,
    fun w g => ?_, fun idle => ?_, fun resetting => ?_⟩
  · exact next_congr (resets fn) (linkReset_of_retain retains)
  · exact next_congr hot (linkReset_of_retain retains)
  · exact next_congr (resets fn) (linkReset_of_wake wakes)
  · exact next_congr hot (linkReset_of_wake wakes)
  · exact next_congr (resets fn) (linkReset_of_vf asleep wakes vf other)
  · exact next_congr (resets 0) (linkReset_of_active asleep wakes)
  · exact next_congr hot (linkReset_of_active asleep wakes)
  · exact next_congr (trains w g) (linkTrain_eq w g u)
  · exact next_congr ends (finishReset_of_idle idle)
  · exact next_congr ends (finishReset_of_resetting resetting)

end Sys2Proof.Proofs
end

section
/-! PROOFS. The reset sources, what a package reset keeps, the start-up after it, and HOLD (R381, R459, R467 to R470). From these O53. -/

namespace Sys2Proof.Proofs
open Sys2Proof Sys2Proof.Machine Sys2Proof.Safety

/-! ## What resets the package (R467 to R469) -/

section Sources

variable {u : State}

theorem perstAssert_eq (w : Nat) : perstAssert w u =
    if 1000 ≤ w ∧ u.pwr.off = false ∧ u.pwr.perst = false then packageReset 1 { u with pwr := { u.pwr with perst := true } } else u := by
  rw [perstAssert]
  by_cases resets : 1000 ≤ w ∧ u.pwr.off = false ∧ u.pwr.perst = false
  · rw [if_pos resets, if_neg]
    obtain ⟨long, on, high⟩ := resets
    simp [on, high]
    omega
  · rw [if_neg resets, if_pos]
    by_contra none
    obtain ⟨long, on, high⟩ : ¬ w < 1000 ∧ ¬ u.pwr.off = true ∧ ¬ u.pwr.perst = true := by simpa only [not_or] using none
    exact resets ⟨not_lt.mp long, by simpa using on, by simpa using high⟩

theorem supplyReset_crown (rail : Nat) : supplyReset rail 0 u = if u.pwr.off = true ∨ 4 < rail then u else
    let v := packageReset 2 { u with pwr := { u.pwr with supply := some (rail, 0) } }
    if rail = 4 then { v with pwr := { v.pwr with off := true }, lining := { v.lining with aloneLatches := [] } }
    else { v with pwr := { v.pwr with rails := [(rail, 0)] } } := rfl

theorem supplyReset_brim {rail die : Nat} (brim : die ≠ 0) : supplyReset rail die u =
    if u.pwr.off = false ∧ rail < 2 ∧ (getDie u die).live = true then
      fenceDie die 0 (recEventAt die 0 0x0A03 ([byte rail, byte die, 1] ++ zeros 5) u) else u := by
  rw [supplyReset, if_pos brim]
  by_cases barred : u.pwr.off = true ∨ 4 < rail
  · rw [if_pos barred, if_neg]
    rintro ⟨on, low, -⟩
    rcases barred with off | high
    · rw [on] at off
      cases off
    · omega
  · rw [if_neg barred]
    obtain ⟨on, low⟩ := not_or.mp barred
    refine if_congr ?_ rfl rfl
    have on' : u.pwr.off = false := by simpa using on
    exact ⟨fun ⟨live, core⟩ => ⟨on', core, live⟩, fun ⟨_, core, live⟩ => ⟨live, core⟩⟩

theorem resetDue_of_due {r : Nat} (asked : u.pwr.resetAt = some r) (due : r ≤ u.time.now) : resetDue u = resetNow 3 u := by
  simp only [resetDue, asked, if_pos due]

theorem resetDue_of_not_due (none : ¬ ∃ r, u.pwr.resetAt = some r ∧ r ≤ u.time.now) : resetDue u = u := by
  rw [resetDue]
  split
  next r asked => exact if_neg fun due => none ⟨r, asked, due⟩
  next => rfl

theorem hypervisorDead_eq : hypervisorDead u =
    if 6 ≤ u.startStep ∧ u.pwrState = 0 ∧ u.pwr.off = false ∧ u.lcs ≠ .scrap ∧ u.lcs ≠ .invalid then resetNow 4 u else u := by
  rw [hypervisorDead]
  exact if_congr (by simp) rfl rfl

end Sources

/-! ## The start-up after a reset (R459, R470) -/

section Startup

/-- The life cycle is decoded, and a transition that was cut off is completed in OTP. -/
def startupOtp (v : State) : State :=
  let dies := List.range (dieCount v)
  let l := decodeLcs v.otp.words
  { v with
    lcs := l, startStep := 4
    otp := if l = .ret then dies.foldl (fun o d => programOtp o (.wipeW d)) v.otp else if l = .scrap then dies.foldl (fun o d => programOtp o (.fill d)) v.otp else v.otp }

theorem bootOtp_eq (v : State) : bootOtp { v with lcs := decodeLcs v.otp.words, startStep := 4 } = startupOtp v := by
  rw [bootOtp, startupOtp]
  cases decodeLcs v.otp.words <;> rfl

/-- The enables, the unlock and the epoch format of a start-up. -/
def startupLife (w : State) : State :=
  let unlock := decide (w.lcs = .ret) && w.lining.unlockPending
  { w with
    life := { w.life with unlocked := unlock, enables := if w.lcs = .blank ∨ w.lcs = .test ∨ unlock = true then 15 else 0 }
    lining := if w.lcs = .ret then { w.lining with unlockPending := false } else w.lining
    ecfg := if w.otp.marker then { k := w.otp.k, origin := w.otp.origin, falling := w.otp.falling, fromOtp := true } else w.ecfg }

theorem bootLife_eq (w : State) : bootLife w = startupLife w := by
  have enables : (if (imageless w || (decide (w.lcs = .ret) && w.lining.unlockPending)) = true then 15 else 0)
      = if w.lcs = .blank ∨ w.lcs = .test ∨ (decide (w.lcs = .ret) && w.lining.unlockPending) = true then 15 else 0 :=
    if_congr (by simp [imageless, or_assoc]) rfl rfl
  simp only [bootLife, startupLife, enables]

theorem beginStartup_eq (v : State) : beginStartup v = if v.startStep = 3 ∧ v.pwr.off = false ∧ v.pwr.rails = [] then
      let w := startupOtp v
      if w.lcs = .scrap then w else
      let x := copyAll (bootLining (bootRecords (startupLife w)))
      { x with tamper := { x.tamper with tests := instancesOf x none 0 0 } }
    else v := by
  by_cases starts : v.startStep = 3 ∧ v.pwr.off = false ∧ v.pwr.rails = []
  · obtain ⟨step, on, rails⟩ := starts
    have free : ¬ (v.startStep ≠ 3 ∨ v.pwr.off = true ∨ v.pwr.rails ≠ []) := by simp [step, on, rails]
    rw [if_pos ⟨step, on, rails⟩, beginStartup, if_neg free]
    simp only [bootOtp_eq, bootLife_eq]
  · rw [if_neg starts, beginStartup, if_pos]
    by_contra none
    obtain ⟨step, on, rails⟩ : ¬ v.startStep ≠ 3 ∧ ¬ v.pwr.off = true ∧ ¬ v.pwr.rails ≠ [] := by simpa only [not_or] using none
    exact starts ⟨not_not.mp step, by simpa using on, not_not.mp rails⟩

end Startup

/-! ## HOLD (R381, R470) -/

section Holding

variable {rail die : Nat} {u : State}

theorem supplyWarning_eq (mv : Nat) : let core := (rail < 2 ∧ (getDie u die).live = true) ∨ ((rail = 2 ∨ rail = 3) ∧ die = 0)
    supplyWarning rail die mv u = if u.pwr.off = true ∨ ¬core then u
      else if u.hold then
        { u with pwr := { u.pwr with rails := if u.pwr.rails.contains (rail, die) then u.pwr.rails else u.pwr.rails ++ [(rail, die)], lowest := min u.pwr.lowest mv } }
      else urgentAll 4 1 (recEventAt die 0 0x0A01 ([byte rail, byte die] ++ zeros 6) { u with
        hold := true
        pwr := { u.pwr with rails := [(rail, die)], holdRail := rail, holdDie := die, holdAt := u.time.now, lowest := mv, holds := satAdd u.pwr.holds 1 0xFFFF } }) := by
  intro core
  have rails : (!coreRail u rail die) = true ↔ ¬ core := by
    rw [Bool.not_eq_true', ← Bool.not_eq_true, not_iff_not]
    simp [coreRail, core]
  rw [supplyWarning]
  exact if_congr (or_congr Iff.rfl rails) rfl rfl

theorem supplyBack_eq : let rest := u.pwr.rails.filter (· ≠ (rail, die))
    supplyBack rail die u = if u.pwr.rails.contains (rail, die) = false then u
      else if u.hold then (if rest = [] then endHold { u with pwr := { u.pwr with rails := [] } } else { u with pwr := { u.pwr with rails := rest } })
      else if u.startStep = 3 then
        (let v := { u with pwr := { u.pwr with rails := rest } }
        if v.pwr.perst then v else beginStartup v)
      else u := by
  intro rest
  rw [supplyBack, supplyRecovery]
  cases u.pwr.rails.contains (rail, die) with
  | false => cases u.hold <;> simp
  | true =>
    cases u.hold with
    | true => rfl
    | false =>
      simp only [Bool.false_eq_true, if_false, and_true, Bool.true_eq_false]
      rfl

end Holding

/-- Settles O53: each source is one operation on the state at its instant, described by cases above. -/
theorem resetSourcesReset : Obligations.ResetSourcesReset := by
  unfold Obligations.ResetSourcesReset
  intro t s
  dsimp only
  have asserts (w) : exec (.perstAssert t w) s = .next (perstAssert w (tick t s)) := rfl
  have powers : exec (.powerOn t) s = .next (powerOn (tick t s)) := rfl
  have drops (rail die) : exec (.supplyReset t rail die) s = .next (supplyReset rail die (tick t s)) := rfl
  have begins : exec (.packageResetBegin t) s = .next (resetDue (tick t s)) := rfl
  have watches : exec (.hypervisorWatchdog t) s = .next (hypervisorDead (tick t s)) := rfl
  have releases : exec (.perstRelease t) s = .next (perstRelease (tick t s)) := rfl
  have warns (rail die mv) : exec (.supplyWarning t rail die mv) s = .next (supplyWarning rail die mv (tick t s)) := rfl
  have recovers (rail die) : exec (.supplyRecovery t rail die) s = .next (supplyBack rail die (tick t s)) := rfl
  generalize tick t s = u at *
  refine ⟨fun cause v => ?_, fun w => ?_, powers, fun rail => ?_, fun rail die brim => ?_, fun cause v => rfl, ?_, ?_, releases, fun v => beginStartup_eq v,
    fun v => ⟨rfl, rfl⟩, fun rail die mv => ?_, fun rail die => ?_, fun v => rfl⟩
  · refine ⟨rfl, rfl, rfl, rfl, rfl, rfl, rfl, rfl, rfl, rfl, rfl, rfl, rfl, rfl, rfl, rfl, rfl, rfl, rfl, rfl, rfl, rfl, rfl, rfl, rfl, rfl, rfl, rfl, rfl, rfl⟩
  · exact next_congr (asserts w) (perstAssert_eq w)
  · exact next_congr (drops rail 0) (supplyReset_crown rail)
  · exact next_congr (drops rail die) (supplyReset_brim brim)
  · by_cases due : ∃ r, u.pwr.resetAt = some r ∧ r ≤ u.time.now
    · rw [if_pos due]
      obtain ⟨r, asked, due⟩ := due
      exact next_congr begins (resetDue_of_due asked due)
    · rw [if_neg due]
      exact next_congr begins (resetDue_of_not_due due)
  · exact next_congr watches hypervisorDead_eq
  · exact next_congr (warns rail die mv) (supplyWarning_eq mv)
  · exact next_congr (recovers rail die) supplyBack_eq

end Sys2Proof.Proofs
end

section
/-! PROOFS. The start-up steps 5 to 9, the entry into RETAIN and the wake (R471 to R476, R479). From these O54. -/

namespace Sys2Proof.Proofs
open Sys2Proof Sys2Proof.Machine Sys2Proof.Safety

/-- A guard that the model writes the other way round. -/
theorem ite_swap {α : Sort _} {p q : Prop} [Decidable p] [Decidable q] {a b : α} (opposite : p ↔ ¬ q) :
    (if p then a else b) = if q then b else a := by
  by_cases holds : q
  · rw [if_pos holds, if_neg (opposite.not_left.mpr holds)]
  · rw [if_neg holds, if_pos (opposite.mpr holds)]

section Steps

variable {u : State}

theorem measurement_eq : measurement u = if u.startStep = 5 ∧ u.lcs ≠ .invalid then
      let v := bootBank 2 (bootBank 1 (bootBank 0 u))
      let w : State := { v with
        startStep := 6, vault := { v.vault with kw := if (getComp v 1).run.isSome then runDigest v 1 else [] }
        dies := v.dies.map fun (d : Die) => { d with mandrel := bootMandrel v d.mandrel } }
      let table (c : Nat) := ((runImage v c).map (Config.gateTable c)).getD []
      let x := (List.range w.dies.length).foldl (fun s d => gateEvents d 2 (table 2) (gateEvents d 1 (table 1) s)) w
      if x.lining.lockLatch then raiseFnEvent 3 { x with locked := true } else x
    else u := by
  unfold measurement
  by_cases runs : u.startStep = 5 ∧ u.lcs ≠ .invalid
  · rw [if_pos runs, if_neg (by simpa using runs)]
  · rw [if_neg runs, if_pos (by simpa [or_iff_not_imp_left] using runs)]

theorem bandBringup_eq (l : List Nat) {v : State}
    (lifted : v = { u with startStep := 7, dies := u.dies.map fun (d : Die) => { d with live := true, epoch := u.time.epoch } }) :
    bandBringup l u = if u.startStep = 6 then assignDrbgs 0 (getTenant u 0).g.drbgs
      (((List.range v.dies.length).filter fun d => d ≠ 0 && !l.contains d).foldl (fun s d => fenceDie d 6 s) v) else u := by
  subst lifted
  rw [bandBringup]
  exact ite_swap Iff.rfl

theorem brimBoot_eq : brimBoot u = if u.startStep = 7 ∧ u.pwr.booting = false then endTests { u with
      pwr := { u.pwr with booting := true }
      tamper := { u.tamper with tests := ((liveDies u).filter (· ≠ 0)).flatMap fun d => instancesOf u none 0 d } } else u := by
  rw [brimBoot]
  exact ite_swap (by rw [not_and_or, Bool.not_eq_false])

theorem imageless_iff {v : State} : imageless v = true ↔ v.lcs = .blank ∨ v.lcs = .test := by simp [imageless]

/-- The store of keys as step 8 leaves it: without an image, with the accepted one, or after the image's loss. -/
def storeAtStart (v : State) : State :=
  if imageless v then freshPsn v else match acceptedImage v with
  | some i => restoreImage i v
  | none => imageLost v

theorem storeAtStart_eq (v : State) : storeAtStart v = if imageless v then freshPsn v else match acceptedImage v with
  | some i => restoreImage i v
  | none => imageLost v := rfl

theorem storeAtStart_imageless {v : State} (none : v.lcs = .blank ∨ v.lcs = .test) : storeAtStart v = freshPsn v := by
  rw [storeAtStart, if_pos (imageless_iff.mpr none)]

theorem storeAtStart_of_imaged {v : State} (imaged : ¬ (v.lcs = .blank ∨ v.lcs = .test)) :
    storeAtStart v = (acceptedImage v).elim (imageLost v) (restoreImage · v) := by
  rw [storeAtStart, if_neg (imageless_iff (v := v).not.mpr imaged)]
  cases acceptedImage v <;> dsimp only [Option.elim]

/-- The end of step 8, before the PF is READY. -/
def restoreEnds (x : State) : State := { x with startStep := 9, vault := { x.vault with restored := true } }

theorem keystoreRestore_eq {v w : State} (opened : v = { u with vault := { u.vault with pr := if u.lcs = .ret then none else u.otp.w.headD none } })
    (stored : storeAtStart v = w) : keystoreRestore u = if u.startStep = 8 ∧ u.hold = false then
      let x := commitBank 2 (commitBank 1 (commitBank 0 w))
      let y := modFn 0 (fun f => { f with ready := true }) { x with startStep := 9, vault := { x.vault with restored := true } }
      { y with dies := y.dies.map fun (d : Die) => if d.live then { d with bows := d.bows.map fun (_ : Bow) => { st := 1 } } else d }
    else u := by
  unfold keystoreRestore
  rw [← opened]
  by_cases restores : u.startStep = 8 ∧ u.hold = false
  · rw [if_pos restores, if_neg (by simpa using restores)]
    exact congrArg (fun w => powerBows (modFn 0 (fun f => { f with ready := true }) (restoreEnds (commitBank 2 (commitBank 1 (commitBank 0 w))))))
      ((storeAtStart_eq v).symm.trans stored)
  · rw [if_neg restores, if_pos (by simpa [or_iff_not_imp_left] using restores)]

theorem stepOverrun_eq (step us : Nat) : stepOverrun step us u =
    if 4 ≤ step ∧ step ≤ 9 ∧ step = u.startStep ∧ u.hold = false then recEvent 0x0A08 ([byte step, 0] ++ leBytes 4 us ++ zeros 2) u else u := by
  rw [stepOverrun]
  refine if_congr ?_ rfl rfl
  rw [Bool.not_eq_true']
  tauto

end Steps

/-! ## The entropy of start-up (R475) -/

section Entropy

variable {die : Nat} {u : State}

theorem entropyStartup_eq (kat : Option Nat) (l : List Nat) : entropyStartup die kat l u =
    let d := getDie u die
    let first := (List.range 4).find? fun i => l.contains i && decide ((d.bows.getD i {}).st = 1)
    let c := freeBytes 32 u
    if d.live = true ∧ u.startStep = 9 ∧ d.bows.any (·.st = 1) = true then
      let v := modDie die (fun d => { d with
        bows := d.bows.mapIdx fun i b => if b.st ≠ 1 then b else if some i = first then { st := 3 } else if l.contains i then { st := 2 } else failBow u.time.now b
        katFail := kat.isSome, discard := 0, stage := [], carder := c.1 }) c.2
      match kat with
      | some n => signal 0 0 (recEventAt die 0 0x0502 (zeros 8) (recEventAt die 0 0x0503 (byte n :: zeros 7) v))
      | none => if first = none then signal 0 0 (recEventAt die 0 0x0502 (zeros 8) v) else v
    else u := by
  rw [entropyStartup]
  by_cases tests : (getDie u die).live = true ∧ u.startStep = 9 ∧ (getDie u die).bows.any (·.st = 1) = true
  · rw [if_pos tests, if_neg (by rw [Bool.not_eq_true', Bool.not_eq_true', ← Bool.not_eq_true, ← Bool.not_eq_true]; tauto)]
    cases kat with
    | some n => rfl
    | none => exact if_congr Option.isNone_iff_eq_none rfl rfl
  · rw [if_neg tests, if_pos (by rw [Bool.not_eq_true', Bool.not_eq_true', ← Bool.not_eq_true, ← Bool.not_eq_true]; tauto)]

theorem endEntropyStep_eq (v : State) : endEntropyStep v =
    if v.startStep = 9 ∧ ∀ d ∈ liveDies v, (getDie v d).rngReady = true ∨ (getDie v d).katFail = true then
      { v with startStep := 10, time := { v.time with acqStart := v.time.now, acqDue := v.time.now + 10000000000 } } else v := by
  rw [endEntropyStep]
  exact if_congr (by simp only [List.all_eq_true, Bool.or_eq_true]) rfl rfl

theorem entropyReady_eq (die : Nat) (v : State) : entropyReady die v =
    let d := getDie v die
    if d.live = true ∧ d.rngReady = false ∧ entropyUp d = true then
      let fill := freeBytes (4096 - d.fifo.length) v
      let more := freeBytes 49152 fill.2
      modDie die (instantiateAll die (d.fifo ++ fill.1) more.1) (countOn die 0x0D 0 1059 more.2)
    else v := by
  rw [entropyReady]
  refine ite_swap ?_
  rw [Bool.not_eq_true', Bool.not_eq_true', ← Bool.not_eq_true, ← Bool.not_eq_true, ← Bool.not_eq_true]
  tauto

theorem dieReady_eq : dieReady die u =
    let v := startLanes die (entropyReady die u)
    if (getDie u die).rngReady = false ∧ (getDie v die).rngReady = true ∧ u.startStep = 9 then endEntropyStep (drawDieRoot die (if die = 0 then crownEntropy v else v)) else v := by
  rw [dieReady]
  dsimp only
  generalize startLanes die (entropyReady die u) = v
  by_cases was : (getDie u die).rngReady = true
  · rw [if_pos (.inl was), if_neg fun ⟨fresh, _⟩ => absurd was (by rw [fresh]; exact Bool.false_ne_true)]
  by_cases ready : (getDie v die).rngReady = true
  · rw [if_neg (by simp [was, ready])]
    exact ite_swap (by simp [was, ready])
  · rw [if_pos (by simp [ready]), if_neg fun ⟨_, up, _⟩ => ready up]

end Entropy

/-! ## RETAIN and the wake (R471, R479) -/

section Retain

variable {u : State}

theorem wakeDone_eq (ok : Bool) : wakeDone ok u = if u.pwrState = 3 ∧ u.hold = false then
      (if ok = false then resetNow 5 u else
      let up := (liveDies u).foldl (fun s d => entropyReady d s) { u with pwrState := 0 }
      let v := { up with dies := up.dies.map fun (d : Die) => if d.live then { d with epoch := up.time.epoch, passing := false } else d }
      let w := recEvent 0x0A06 ([byte u.pwr.wakeCause, 0] ++ leBytes 4 ((u.time.now - u.pwr.retainAt) / 1000000000) ++ zeros 2) (startRound v.time.epoch v)
      settleAll (u.pwr.flrs.foldl (fun s c => linkReset c s) { w with pwr := { w.pwr with flrs := [] } }))
    else u := by
  unfold wakeDone
  by_cases wakes : u.pwrState = 3 ∧ u.hold = false
  · rw [if_pos wakes, if_neg (by simpa using wakes)]
    cases ok <;> rfl
  · rw [if_neg wakes, if_pos (by simpa [or_iff_not_imp_left] using wakes)]

theorem retainEntry_eq : retainEntry u = if u.pwrState = 1 ∧ u.hold = false then recEvent 0x0A05 (leBytes 6 u.time.epoch ++ zeros 2)
      { u with pwrState := 2, pwr := { u.pwr with retainAt := u.time.now }, dies := u.dies.map fun d => { d.wipeDrbgs with rngReinst := false } } else u := by
  rw [retainEntry]
  exact ite_swap (by rw [not_and_or, Bool.not_eq_false])

theorem drawIsNear_iff : ((pendingDraws u).any fun d => boundaryAt u d.target ≤ u.time.now + 1000000000) = true ↔
    ∃ d ∈ u.draws, d.sched = true ∧ d.st ≤ 1 ∧ boundaryAt u d.target ≤ u.time.now + 1000000000 := by
  simp only [pendingDraws, List.any_filter, List.any_eq_true, Bool.and_eq_true, decide_eq_true_eq, and_assoc]

theorem drawWake_eq : drawWake u =
    if u.pwrState = 2 ∧ ∃ d ∈ u.draws, d.sched = true ∧ d.st ≤ 1 ∧ boundaryAt u d.target ≤ u.time.now + 1000000000 then
      { u with pwrState := 3, pwr := { u.pwr with wakeCause := 1 } } else u := by
  rw [drawWake, wakeUp, ← ite_and]
  exact if_congr (by rw [drawIsNear_iff, and_comm]) rfl rfl

end Retain

/-- Settles O54: each event is the step, the entry or the wake that the equations above say. -/
theorem startupStepsAct : Obligations.StartupStepsAct := by
  unfold Obligations.StartupStepsAct
  intro t s u
  have measured : exec (.measurement t) s = .next (measurement u) := rfl
  have up (l : List Nat) : exec (.bandBringup t l) s = .next (bandBringup l u) := rfl
  have boots : exec (.brimBoot t) s = .next (brimBoot u) := rfl
  have restores : exec (.keystoreRestore t) s = .next (keystoreRestore u) := rfl
  have tested (die : Nat) (kat : Option Nat) (l : List Nat) :
      exec (.entropyStartup t die kat l) s = .next (endEntropyStep (entropyStartup die kat l u)) := rfl
  have readies (die : Nat) : exec (.entropyReady t die) s = .next (settleAll (dieReady die u)) := rfl
  have overruns (step us : Nat) : exec (.startupStepOverrun t step us) s = .next (stepOverrun step us u) := rfl
  have wakes (ok : Bool) : exec (.wakeDone t ok) s = .next (wakeDone ok u) := rfl
  have retains : exec (.retainEntry t) s = .next (retainEntry u) := rfl
  have drawWakes : exec (.retainDrawWake t) s = .next (drawWake u) := rfl
  clear_value u
  refine ⟨?measured, fun v m => ⟨rfl, rfl, rfl, rfl, rfl⟩, ?up, ?boots, ?restores, fun v => rfl, ?tested, endEntropyStep_eq, ?readies,
    entropyReady_eq, ?overruns, ?wakes, ?retains, ?drawWakes⟩
  case measured => exact next_congr measured measurement_eq
  case up => exact fun l => next_congr (up l) (bandBringup_eq l rfl)
  case boots => exact next_congr boots brimBoot_eq
  case restores =>
    refine next_congr restores (keystoreRestore_eq rfl ?_)
    obtain ⟨v, opened⟩ : ∃ v : State, v = { u with vault := { u.vault with pr := if u.lcs = .ret then none else u.otp.w.headD none } } := ⟨_, rfl⟩
    have lcs : u.lcs = v.lcs := by rw [opened]
    rw [← opened, lcs]
    by_cases imageless : v.lcs = .blank ∨ v.lcs = .test
    · rw [storeAtStart_imageless imageless, if_pos imageless]
    · rw [storeAtStart_of_imaged imageless, if_neg imageless]
      cases acceptedImage v <;> dsimp only [Option.elim, imageLost]
  case tested => exact fun die kat l => next_congr (tested die kat l) (congrArg endEntropyStep (entropyStartup_eq kat l))
  case readies => exact fun die => next_congr (readies die) (congrArg settleAll dieReady_eq)
  case overruns => exact fun step us => next_congr (overruns step us) (stepOverrun_eq step us)
  case wakes => exact fun ok => next_congr (wakes ok) (wakeDone_eq ok)
  case retains => exact next_congr retains retainEntry_eq
  case drawWakes => exact next_congr drawWakes drawWake_eq

end Sys2Proof.Proofs
end

section
/-! PROOFS. Alarms and their responses, the tests of the monitors, the copies of the lining's log and the shields (R361, R373 to R395, R464). From these O55. -/

namespace Sys2Proof.Proofs
open Sys2Proof Sys2Proof.Machine Sys2Proof.Safety

section Alarms

variable {u : State} {code die inst detail : Nat}

theorem tamperQuiet_iff {v : State} : tamperQuiet v = true ↔ v.lcs = .blank ∨ v.lcs = .test := by simp [tamperQuiet]

/-- The machine with the alarm noted. -/
def alarmNoted (u : State) (code die : Nat) : State :=
  { u with tamper := { u.tamper with alarming := if u.tamper.alarming.contains (code, die) then u.tamper.alarming else u.tamper.alarming ++ [(code, die)] } }

theorem tamperAlarm_eq : tamperAlarm code die inst detail u =
    if u.pwr.off = false ∧ u.lcs ≠ .scrap ∧ inst < monitorCount u code die ∧ monitorOn u code = true ∧ blind u code die inst = false then
      (if u.startStep < 4 then aloneAlarm code detail (alarmNoted u code die)
      else wakeUp 3 (settleAll (respond code die inst detail (monitorClass u code) true (alarmNoted u code die))))
    else u := by
  by_cases seen : u.pwr.off = false ∧ u.lcs ≠ .scrap ∧ inst < monitorCount u code die ∧ monitorOn u code = true ∧ blind u code die inst = false
  · rw [if_pos seen, tamperAlarm, if_neg (by simpa using seen)]
    exact if_congr (by simp [liningOnly, seen.1]) rfl rfl
  · rw [if_neg seen, tamperAlarm, if_pos]
    by_contra none
    exact seen (by simpa using none)

theorem respond_eq (cls : Nat) (logged : Bool) (v : State) : respond code die inst detail cls logged v = (if v.lcs = .scrap then v
    else if v.lcs = .blank ∨ v.lcs = .test then alarmRecord die inst (min cls 1) code detail v
    else
      let s1 := if logged then latchedEntry code cls die detail v else v
      let s2 := if cls = 3 then eraseResponse s1 else s1
      alarmRecord die inst cls code detail (if 2 ≤ cls then enterLock code s2 else s2)) := by
  rw [respond]
  exact if_congr Iff.rfl rfl (if_congr tamperQuiet_iff rfl rfl)

theorem latchedEntry_eq (cls : Nat) (v : State) : latchedEntry code cls die detail v = (if code = 0x25 then logEntry code cls die detail v
    else if ∃ l ∈ v.lining.latches, l.1 = code ∧ l.2.1 = die then v
    else let w := logEntry code cls die detail v
      { w with lining := { w.lining with latches := w.lining.latches ++ [(code, die, cls)] } }) := by
  rw [latchedEntry]
  exact if_congr Iff.rfl rfl (if_congr (by simp only [List.any_eq_true, decide_eq_true_eq]) rfl rfl)

theorem enterLock_eq (v : State) : enterLock code v = (let w := { v with lining := { v.lining with
      lockLatch := true, lockCause := if v.lining.lockLatch = true ∨ v.locked = true then v.lining.lockCause else code } }
    raiseFnEvent 3 (endUnlocks (if v.life.trans.isSome then w else urgentAll 2 code (endGrant { w with locked := true })))) := by
  have first : (if (v.lining.lockLatch || v.locked) = true then v.lining.lockCause else code) =
      if v.lining.lockLatch = true ∨ v.locked = true then v.lining.lockCause else code := if_congr (by rw [Bool.or_eq_true]) rfl rfl
  rw [enterLock, first]

end Alarms

/-! ## Tests, copies and shields -/

section Tests

variable {u : State} {code die inst : Nat}

/-- The test that runs now, of this monitor. -/
def testUnderWay (u : State) (code die inst : Nat) : Option MonTest :=
  (u.tamper.tests.find? fun m => sameMonitor m.code code && m.die = die).filter fun m => m.code = code && m.inst = inst

theorem monitorTestResult_of_none {pass : Bool} (idle : testUnderWay u code die inst = none) : monitorTestResult code die inst pass u = u := by
  rw [monitorTestResult, show Option.filter _ (testedNow u code die) = none from idle]

theorem monitorTestResult_of_some {pass : Bool} {m : MonTest} (tested : testUnderWay u code die inst = some m) : monitorTestResult code die inst pass u =
    let v : State := { u with tamper := { u.tamper with tests := u.tamper.tests.erase m } }
    let w := if pass = true then recEventAt die 4 0x0030 ([byte code, byte inst] ++ zeros 6) v else internalEvent 0x24 die inst inst v
    endTests (match m.job with
      | some j => modJob j (fun x => { x with tmp := x.tmp + 1, tmp2 := x.tmp2 + if pass = true then 0 else 1 }) w
      | none => w) := by
  rw [monitorTestResult, show Option.filter _ (testedNow u code die) = some m from tested]
  rfl

theorem logProgram_of_nil {ok : Bool} (copied : uncopied u = []) : logProgram ok u = u := by
  rw [logProgram, copied]

theorem logProgram_of_cons {ok : Bool} {e : LiningEntry} {es : List LiningEntry} (waits : uncopied u = e :: es) : logProgram ok u =
    if ok = true ∧ u.hold = false ∧ u.pwr.off = false ∧ u.lcs ≠ .blank ∧ u.lcs ≠ .test then settleAll (unlockLogged (copyEntry e u)) else u := by
  rw [logProgram, waits]
  refine ite_swap ?_
  rw [tamperQuiet_iff, Bool.not_eq_true', ← Bool.not_eq_true, ← Bool.not_eq_true, ← Bool.not_eq_true]
  tauto

theorem shieldReseed_eq : shieldReseed die u = if (getDie u die).live = true ∧ internalShort u die 2 = false then
      let b := internalGen die 2 8 [] u
      let v := modDie die (fun d => { d with shield := b.1 }) b.2
      if die ≠ 0 then v else
        let m := internalGen die 2 4 [] v
        { m.2 with lining := { m.2.lining with mesh := m.1 } }
    else u := by
  rw [shieldReseed]
  exact ite_swap (by rw [not_and_or, Bool.not_eq_true', Bool.not_eq_true, Bool.not_eq_false])

end Tests

/-- Settles O55: an alarm is answered where it is seen, a test's result counts for the monitor under test, and the oldest uncopied entry is programmed. -/
theorem tamperEventsAct : Obligations.TamperEventsAct := by
  unfold Obligations.TamperEventsAct
  intro t code die inst detail s u
  have alarms : exec (.tamperAlarm t code die inst detail) s = .next (tamperAlarm code die inst detail u) := rfl
  have ends : exec (.monitorAlarmEnd t code die) s = .next (alarmEnd code die u) := rfl
  have tested (pass : Bool) : exec (.monitorTestResult t code die inst pass) s = .next (monitorTestResult code die inst pass u) := rfl
  have programs (ok : Bool) : exec (.tamperLogProgram t ok) s = .next (logProgram ok u) := rfl
  have reseeds : exec (.shieldReseed t die) s = .next (shieldReseed die u) := rfl
  clear_value u
  refine ⟨?alarms, respond_eq, latchedEntry_eq, fun cls v => rfl, fun v => ⟨enterLock_eq v, rfl⟩, ends, ?tested, ?programs, fun e v => rfl, ?reseeds⟩
  case alarms => exact next_congr alarms tamperAlarm_eq
  case tested =>
    intro m? pass
    exact ⟨fun idle => next_congr (tested pass) (monitorTestResult_of_none idle), fun m under => next_congr (tested pass) (monitorTestResult_of_some under)⟩
  case programs =>
    intro ok
    exact ⟨fun copied => next_congr (programs ok) (logProgram_of_nil copied), fun e es waits => next_congr (programs ok) (logProgram_of_cons waits)⟩
  case reseeds => exact next_congr reseeds shieldReseed_eq

end Sys2Proof.Proofs
end

section
/-! PROOFS. The lining domain, the event recorder and the Hatter (R388, R396, R397, R421 to R427, R453, R455). From these O56. -/

namespace Sys2Proof.Proofs
open Sys2Proof Sys2Proof.Machine Sys2Proof.Safety

/-! ## The lining alone -/

section Lining

variable {u : State} {code detail : Nat}

theorem liningAlarm_eq (ticks : Nat) : liningAlarm code detail ticks u = if u.pwr.off = true ∧ u.lining.up = true then
    aloneAlarm code detail { u with lining := { u.lining with extra := u.lining.extra + ticks } } else u := rfl

theorem runsAlone_iff {v : State} : runsAlone v code = true ↔
    code = 2 ∨ code = 6 ∨ (0x0D ≤ code ∧ code ≤ 0x10 ∧ v.tamper.enable.testBit (code - 0x0D) = true) := by
  simp only [runsAlone, monitorOn, Bool.or_eq_true, Bool.and_eq_true, Bool.not_eq_true', decide_eq_true_eq, Bool.and_eq_false_iff, decide_eq_false_iff_not, not_le]
  grind

/-- The one entry of the period for a code that runs alone. -/
def aloneLogged (code cls detail : Nat) (v : State) : State :=
  if aloneLatched v code then v else
    let p := pushLining { num := v.lining.logNext, code := code, cls := cls + 4, stamp := none, die := 0, detail := detail, count := liningCount v } v
    { p with lining := if v.pwr.off then { p.lining with aloneLatches := p.lining.aloneLatches ++ [code] } else { p.lining with latches := p.lining.latches ++ [(code, 0, cls)] } }

theorem isVlining_iff : (if code = 0x06 then 1 else 3) = 1 ↔ code = 6 := by
  split <;> simp_all

theorem aloneAlarm_eq (v : State) : aloneAlarm code detail v =
    if v.lining.up = true ∧ v.lcs ≠ .scrap ∧ v.lcs ≠ .blank ∧ v.lcs ≠ .test ∧
        (code = 2 ∨ code = 6 ∨ (0x0D ≤ code ∧ code ≤ 0x10 ∧ v.tamper.enable.testBit (code - 0x0D) = true)) then
      let w := aloneLogged code (if code = 6 then 1 else 3) detail v
      if code = 6 then w
      else { w with lining := { w.lining with lk := none, erased := true, lockLatch := true, lockCause := if w.lining.lockLatch then w.lining.lockCause else code } }
    else v := by
  rw [aloneAlarm]
  refine (ite_swap ?_).trans (if_congr Iff.rfl (if_congr isVlining_iff rfl rfl) rfl)
  rw [tamperQuiet_iff, ← runsAlone_iff, Bool.not_eq_true', Bool.not_eq_true', ← Bool.not_eq_true, ← Bool.not_eq_true]
  tauto

theorem xtalCheck_eq (ok : Bool) : xtalCheck ok u = if ok = false ∧ u.lining.xtalAt = none ∧ u.lining.up = true then
    { u with lining := { u.lining with xtalAt := some (liningCount u), xtalNote := true } } else u := by
  rw [xtalCheck]
  refine ite_swap ?_
  rw [Bool.not_eq_true', ← Bool.not_eq_true, ← Bool.not_eq_true, ← Option.not_isSome_iff_eq_none]
  tauto

end Lining

/-! ## The Hatter -/

section Hatter

variable {u : State}

theorem writeEvents_eq : writeEvents u = if u.hold = false ∧ u.hatter.up = true ∧ (u.fw.comps.headD {}).run ≠ none then
      let v := u.evBuf.foldl (fun s r => writeEvent r s) { u with evBuf := [] }
      v.evBursts.foldl (fun s b => recEventAt b.2.1 0 0x0031 (leBytes 2 b.1 ++ [byte b.2.1, 0] ++ leBytes 4 b.2.2) s) { v with evBursts := [] }
    else u := by
  rw [writeEvents]
  refine ite_swap ?_
  rw [Bool.not_eq_true', ← Bool.not_eq_true, ← Bool.not_eq_true]
  tauto

theorem hatterRestart_eq (exc : Bool) : hatterRestart exc u = if hatterRuns u = true then
      let v := dropUpdate u
      recEvent 0x0C07 (byte (bit exc 0) :: zeros 7)
        { v with hatter := { v.hatter with up := false, asmVdm := none, asmSmb := none, message := [], spdmVdm := {}, spdmSmb := {} } }
    else u := by
  rw [hatterRestart]
  exact ite_swap (by rw [Bool.not_eq_true', Bool.not_eq_true])

theorem sensorSample_eq (l : List (Nat × Int)) : sensorSample l u = if hatterRuns u = true then (l.filter fun r => sampledNow u r.1).foldl (fun s r =>
      evalLevel r.1 2 r.2 (evalLevel r.1 1 r.2 { s with hatter := { s.hatter with readings := mset s.hatter.readings r.1 r.2 } })) u else u := by
  rw [sensorSample]
  exact ite_swap (by rw [Bool.not_eq_true', Bool.not_eq_true])

end Hatter

/-! ## The limits of a sensor -/

section Limits

variable {id level : Nat} {x : Int} {v : State}

theorem beyond_iff : beyond v id level x = true ↔
    ∃ l ∈ sensorLimits v id, l.1 = level ∧ (if l.2.1 then l.2.2 < x * 1000 else x * 1000 < l.2.2) := by
  rw [beyond, List.any_eq_true]
  refine exists_congr fun l => and_congr_right fun _ => ?_
  rw [Bool.and_eq_true, decide_eq_true_eq]
  split <;> simp_all

theorem within2_iff : within2 v id level x = true ↔
    ∀ l ∈ sensorLimits v id, l.1 = level → (if l.2.1 then x * 1000 ≤ l.2.2 - sensorBack id l.2.2 else l.2.2 + sensorBack id l.2.2 ≤ x * 1000) := by
  rw [within2, List.all_eq_true]
  refine forall_congr' fun l => imp_congr_right fun _ => ?_
  rw [Bool.or_eq_true, decide_eq_true_eq, ← imp_iff_not_or]
  split <;> simp_all

/-- A reading crosses the limits of a level. -/
def Crosses (v : State) (id level : Nat) (x : Int) : Prop :=
  v.hatter.crossed.contains (id * 2 + level) = false ∧ ∃ l ∈ sensorLimits v id, l.1 = level ∧ (if l.2.1 then l.2.2 < x * 1000 else x * 1000 < l.2.2)

/-- A reading comes back from the limits of a level. -/
def ComesBack (v : State) (id level : Nat) (x : Int) : Prop :=
  v.hatter.crossed.contains (id * 2 + level) = true ∧ ∀ l ∈ sensorLimits v id, l.1 = level →
    (if l.2.1 then x * 1000 ≤ l.2.2 - sensorBack id l.2.2 else l.2.2 + sensorBack id l.2.2 ≤ x * 1000)

theorem crosses_iff : Crosses v id level x ↔ (!v.hatter.crossed.contains (id * 2 + level) && beyond v id level x) = true := by
  rw [Crosses, ← beyond_iff, Bool.and_eq_true, Bool.not_eq_true']

theorem comesBack_iff : ComesBack v id level x ↔ (v.hatter.crossed.contains (id * 2 + level) && within2 v id level x) = true := by
  rw [ComesBack, ← within2_iff, Bool.and_eq_true]

theorem not_comesBack_of_crosses (crosses : Crosses v id level x) : ¬ ComesBack v id level x :=
  fun back => absurd (crosses.1.symm.trans back.1) Bool.false_ne_true

theorem evalLevel_of_crosses (crosses : Crosses v id level x) : evalLevel id level x v =
    let w := { v with hatter := { v.hatter with crossed := v.hatter.crossed ++ [id * 2 + level] } }
    sendEvent (platformEvent w id (sensorState v id) x) (recEvent 0x0C01 (leBytes 2 id ++ [byte level, 0] ++ int16 x ++ zeros 2) w) := by
  rw [evalLevel]
  dsimp only
  rw [crosses_iff.mp crosses, Bool.eq_false_iff.mpr (mt comesBack_iff.mpr (not_comesBack_of_crosses crosses))]
  rfl

theorem evalLevel_of_comesBack (back : ComesBack v id level x) : evalLevel id level x v =
    let w := { v with hatter := { v.hatter with crossed := v.hatter.crossed.filter (· ≠ id * 2 + level) } }
    sendEvent (platformEvent w id (sensorState v id) x) (recEvent 0x0C01 (leBytes 2 id ++ [byte level, 1] ++ int16 x ++ zeros 2) w) := by
  rw [evalLevel]
  dsimp only
  rw [comesBack_iff.mp back, Bool.eq_false_iff.mpr (mt crosses_iff.mpr fun crosses => not_comesBack_of_crosses crosses back)]
  rfl

theorem evalLevel_of_neither (stays : ¬ Crosses v id level x) (out : ¬ ComesBack v id level x) : evalLevel id level x v = v := by
  rw [evalLevel]
  dsimp only
  rw [Bool.eq_false_iff.mpr (mt crosses_iff.mpr stays), Bool.eq_false_iff.mpr (mt comesBack_iff.mpr out)]
  rfl

end Limits

/-- Settles O56: each event of the lining and of the Hatter acts while its domain runs. -/
theorem liningAndHatterEventsAct : Obligations.LiningAndHatterEventsAct := by
  unfold Obligations.LiningAndHatterEventsAct
  intro t s u
  have alarms (code detail ticks : Nat) : exec (.liningAlarm t code detail ticks) s = .next (liningAlarm code detail ticks u) := rfl
  have loses : exec (.liningPowerLoss t) s = .next (liningLoss u) := rfl
  have returns : exec (.liningPowerOn t) s = .next (liningOn u) := rfl
  have checks (ok : Bool) : exec (.xtalCheck t ok) s = .next (xtalCheck ok u) := rfl
  have writes : exec (.eventRecordWrite t) s = .next (writeEvents u) := rfl
  have restarts (exc : Bool) : exec (.hatterWatchdog t exc) s = .next (hatterRestart exc u) := rfl
  have back : exec (.hatterRestartDone t) s = .next (hatterBack u) := rfl
  have samples (l : List (Nat × Int)) : exec (.sensorSample t l) s = .next (sensorSample l u) := rfl
  clear_value u
  exact ⟨fun code detail ticks => next_congr (alarms code detail ticks) (liningAlarm_eq ticks), fun code detail v => aloneAlarm_eq v, loses, returns,
    fun ok => next_congr (checks ok) (xtalCheck_eq ok), next_congr writes writeEvents_eq, fun r v => rfl,
    fun exc => next_congr (restarts exc) (hatterRestart_eq exc), back, fun l => next_congr (samples l) (sensorSample_eq l),
    fun id level x v => ⟨evalLevel_of_crosses, evalLevel_of_comesBack, evalLevel_of_neither⟩⟩

end Sys2Proof.Proofs
end

section
/-! PROOFS. Image writes, OTP programming, idle dies, superseded generations, quorum windows, samples and counters (R161, R217, R297 to R299, R312, R351, R356, R439, R445, R461 to R466).
From these O57. -/

namespace Sys2Proof.Proofs
open Sys2Proof Sys2Proof.Machine Sys2Proof.Safety

/-! ## Image writes -/

section Images

variable {u : State}

theorem imageDone_eq : imageDone u = if u.hold = true ∨ u.lining.lk = none then u
    else if u.life.trans ≠ none then transitionWritten u
    else if u.lcs = .blank ∨ u.lcs = .test then u
    else settleAll (ckptDone (writeCarry (writeImage (imageWaiters u)))) := by
  have bars : (u.hold = true ∨ u.lining.lk.isNone = true ∨ imageless u = true ∧ u.life.trans.isNone = true) ↔
      (u.hold = true ∨ u.lining.lk = none) ∨ (u.lcs = .blank ∨ u.lcs = .test) ∧ u.life.trans = none := by
    rw [imageless_iff, Option.isNone_iff_eq_none, Option.isNone_iff_eq_none, or_assoc]
  rw [imageDone]
  by_cases barred : u.hold = true ∨ u.lining.lk = none
  · rw [if_pos barred, if_pos (bars.mpr (.inl barred))]
  rw [if_neg barred]
  by_cases moves : u.life.trans = none
  · rw [if_neg (not_not.mpr moves)]
    refine if_congr (by tauto) rfl (if_neg ?_)
    simp [moves]
  · rw [if_neg (by tauto), if_pos moves, if_pos (Option.isSome_iff_ne_none.mpr moves)]

theorem psnImage_eq_written : psnImage u = if u.hold = false ∧ u.psnWriting = true then settleAll (writeCarry (writeImage (psnWritten u))) else u := by
  rw [psnImage]
  exact ite_swap (by rw [not_and_or, Bool.not_eq_false, Bool.not_eq_true', Bool.not_eq_true])

end Images

/-! ## Writes that HOLD bars (R297) -/

section FlashWait

variable {u : State} {j : Nat} {x : Job}

/-- HOLD has barred the write for 1 s. -/
def WriteIsBarred (u : State) (x : Job) : Prop := u.hold = true ∧ max x.waitT u.pwr.holdAt + 1000000000 ≤ u.time.now

/-- The waits for a write. -/
def writeWaits : List Nat := [3, 4, 14, 20, 24, 25, 30, 42, 44, 45]

theorem flashTimeout_of_none (gone : mget u.jobs j = none) : flashTimeout j u = u := by
  rw [flashTimeout, gone]

theorem flashTimeout_of_wait (here : mget u.jobs j = some x) {w : Nat} (waits : x.phase = .wait w) (barred : WriteIsBarred u x) (write : w ∈ writeWaits) :
    flashTimeout j u =
      finishJob j stRetry 1 [] [] (if w = 14 then { u with draws := u.draws.filter fun d => some d.id ≠ x.draw.map (·.id) } else u) := by
  simp only [flashTimeout, here, waits]
  exact if_pos ⟨barred.1, List.contains_iff_mem.mpr write, barred.2⟩

theorem flashTimeout_of_other (here : mget u.jobs j = some x) (other : ¬ (WriteIsBarred u x ∧ ∃ w ∈ writeWaits, x.phase = .wait w)) : flashTimeout j u = u := by
  simp only [flashTimeout, here]
  refine if_neg fun ⟨hold, write, due⟩ => other ⟨⟨hold, due⟩, ?_⟩
  cases phase : x.phase with
  | wait w =>
    rw [phase] at write
    exact ⟨w, List.contains_iff_mem.mp write, rfl⟩
  | _ =>
    rw [phase] at write
    exact absurd write (by decide)

end FlashWait

/-! ## Dies, samples and counters -/

section Dies

variable {u : State} {die : Nat}

theorem dieIdle_eq : let d := getDie u die
    dieIdle die u = if d.live = true ∧ d.idle = false ∧ u.pwr.idleUs ≠ 0 ∧ d.ringP = [] ∧ d.ringG = [] ∧ d.macQ = [] ∧ d.rq = []
      ∧ (∀ c ∈ d.cores, c.job = none) ∧ (∀ c ∈ d.lanes, c.job = none) ∧ (∀ c ∈ d.hashers, c.job = none) then
      gatingRequest die 2 true (gatingRequest die 1 true (gatingRequest die 0 true (modDie die (fun d => { d with idle := true }) u)))
    else u := by
  intro d
  rw [dieIdle]
  refine ite_swap ?_
  simp only [List.any_eq_true, not_and_or, not_forall, Bool.not_eq_true', Bool.not_eq_true, Bool.not_eq_false, Option.isSome_iff_ne_none, not_not, ne_eq,
    exists_prop, d]

theorem fwSample_eq (w a : Nat) : fwSample die w a u = if (getDie u die).live = true ∧ (getDie u die).sampler.mode.testBit 1 = true ∧ w ≤ 2 then
    pushSample die 0 (sampleBytes 0 0 (1 + 2 * w) 0 0 die 0 (if w = 2 ∨ u.life.enables.testBit 2 = true then a % 4294967296 else 0) 0 u.time.epoch 0) u
    else u := by
  have address : (if (decide (w = 2) || u.life.enables.testBit 2) = true then a % 4294967296 else 0) =
      if w = 2 ∨ u.life.enables.testBit 2 = true then a % 4294967296 else 0 :=
    if_congr (by rw [Bool.or_eq_true, decide_eq_true_eq]) rfl rfl
  rw [fwSample]
  dsimp only
  rw [address]
  exact ite_swap (by rw [not_and_or, not_and_or, Bool.not_eq_true', Bool.not_eq_true', Bool.not_eq_true, Bool.not_eq_true, not_le])

theorem lkInvert_eq : lkInvert u = if u.pwr.off = true ∧ u.lining.up = true ∧ u.lining.lk ≠ none then
    { u with lining := { u.lining with lkInv := !u.lining.lkInv } } else u := by
  rw [lkInvert]
  exact if_congr (by rw [Option.isSome_iff_ne_none]) rfl rfl

end Dies

/-! ## OTP words -/

section Otp

variable {u : State} {ok : Bool}

theorem burnWord_of_hold (hold : u.hold = true) (b : Burn) : burnWord ok b u = u := by
  rw [burnWord, hold]

theorem otpWord_of_hold (hold : u.hold = true) : otpWord ok u = u := by
  rw [otpWord]
  cases u.life.trans with
  | some tr => exact if_pos (.inr hold)
  | none =>
    cases u.life.burn with
    | none => rfl
    | some b => exact burnWord_of_hold hold b

theorem otpWord_of_nothing (still : u.life.trans = none) (whole : u.life.burn = none) : otpWord ok u = u := by
  rw [otpWord, still, whole]

section Transition

variable {tr : Trans} {p : OtpStep} {ps : List OtpStep}

theorem otpWord_of_not_imaged (moves : u.life.trans = some tr) (waits : tr.imaged = false ∨ tr.todo = []) : otpWord ok u = u := by
  rw [otpWord, moves]
  rcases waits with early | done
  · exact if_pos (.inl (by rw [early]; rfl))
  · simp only [done, ite_self]

theorem otpWord_of_imaged (free : u.hold = false) (moves : u.life.trans = some tr) (imaged : tr.imaged = true) (word : tr.todo = p :: ps) :
    otpWord ok u =
      if ok then
        let tr1 := { tr with todo := ps, fails := 0 }
        let v := { u with otp := programOtp u.otp p, life := { u.life with trans := some tr1 } }
        if ps = [] then transitionDone tr1 v else v
      else if tr.fails < 3 then { u with life := { u.life with trans := some { tr with fails := tr.fails + 1 } } }
      else finishJob tr.job stFatal 2 [] [] { u with life := { u.life with trans := none, otpFault := true } } := by
  have goes : ¬ ((!tr.imaged) = true ∨ u.hold = true) := by simp [imaged, free]
  simp only [otpWord, moves, if_neg goes, word]

end Transition

section Burning

variable {b : Burn} {p : OtpStep} {ps : List OtpStep}

theorem otpWord_of_burn (still : u.life.trans = none) (burns : u.life.burn = some b) : otpWord ok u = burnWord ok b u := by
  rw [otpWord, still, burns]

theorem burnWord_of_nil (done : b.todo = []) : burnWord ok b u = u := by
  rw [burnWord, done]
  cases u.hold <;> rfl

theorem burnWord_of_cons (free : u.hold = false) (word : b.todo = p :: ps) : burnWord ok b u =
    if ok then
      let v := { u with otp := programOtp u.otp p, life := { u.life with burn := some { b with todo := ps, fails := 0 } } }
      if ps = [] then nextLife (burnDone b.job v) else v
    else if b.fails < 3 then { u with life := { u.life with burn := some { b with fails := b.fails + 1 } } }
    else nextLife (finishJob b.job stFatal 2 [] [] { u with life := { u.life with burn := none, otpFault := true } }) := by
  rw [burnWord, free, word]

end Burning

end Otp

/-- Settles O57: each write, pass, sample or counter event acts where its unit waits for it. -/
theorem flashOtpAndCounterEventsAct : Obligations.FlashOtpAndCounterEventsAct := by
  unfold Obligations.FlashOtpAndCounterEventsAct
  intro t die n s u d
  have images : exec (.imageWriteDone t) s = .next (imageDone u) := rfl
  have reserved : exec (.psnReservationWritten t) s = .next (psnImage u) := rfl
  have timeouts (j : Nat) : exec (.flashWaitTimeout t j) s = .next (flashTimeout j u) := rfl
  have idles : exec (.dieIdleEntry t die) s = .next (dieIdle die u) := rfl
  have passes (starting overran : Bool) : exec (.imprintPass t die starting overran) s = .next (imprintPass die starting overran u) := rfl
  have inverts : exec (.lkInvert t) s = .next (lkInvert u) := rfl
  have drops : exec (.generationDrop t die n) s = .next (dropOld die n u) := rfl
  have ends : exec (.quorumWindowEnd t n) s = .next (windowEnd n u) := rfl
  have words (ok : Bool) : exec (.otpWordProgrammed t ok) s = .next (otpWord ok u) := rfl
  have samples (w a : Nat) : exec (.fwSampleTimer t die w a) s = .next (fwSample die w a u) := rfl
  have saturates : exec (.counterSaturation t die n) s = .next (counterSaturates die n u) := rfl
  clear_value u
  refine ⟨next_congr images imageDone_eq, next_congr reserved psnImage_eq_written, ?timeouts, next_congr idles dieIdle_eq, fun starting overran => passes starting overran,
    next_congr inverts lkInvert_eq, drops, ends, ?still, ?transitions, ?burns, fun w a => next_congr (samples w a) (fwSample_eq w a), saturates⟩
  case timeouts =>
    refine fun j => ⟨fun gone => next_congr (timeouts j) (flashTimeout_of_none gone), fun x here => ⟨fun w waits barred write => ?_, fun waits barred => ?_, fun other => ?_⟩⟩
    · refine next_congr (timeouts j) ((flashTimeout_of_wait here waits barred ?_).trans (congrArg _ (if_neg ?_)))
      · exact (by decide : ∀ w ∈ [3, 4, 20, 24, 25, 30, 42, 44, 45], w ∈ writeWaits) w write
      · rintro rfl
        exact absurd write (by decide)
    · exact next_congr (timeouts j) ((flashTimeout_of_wait here waits barred (by decide)).trans (congrArg _ (if_pos rfl)))
    · exact next_congr (timeouts j) (flashTimeout_of_other here other)
  case still =>
    exact fun ok => ⟨fun hold => next_congr (words ok) (otpWord_of_hold hold), fun still whole => next_congr (words ok) (otpWord_of_nothing still whole)⟩
  case transitions =>
    intro tr free moves
    refine ⟨fun ok waits => next_congr (words ok) (otpWord_of_not_imaged moves waits), fun p ps imaged word => ⟨?_, ?_⟩⟩
    · exact next_congr (words true) (otpWord_of_imaged free moves imaged word)
    · exact next_congr (words false) (otpWord_of_imaged free moves imaged word)
  case burns =>
    intro b free still burns
    have word (ok : Bool) := next_congr (words ok) (otpWord_of_burn still burns)
    refine ⟨fun ok done => next_congr (word ok) (burnWord_of_nil done), fun p ps here => ⟨?_, ?_⟩⟩
    · exact next_congr (word true) (burnWord_of_cons free here)
    · exact next_congr (word false) (burnWord_of_cons free here)

end Sys2Proof.Proofs
end

section
/-! PROOFS. The exchange with a custodian card (R324 to R344). From these O58. -/

namespace Sys2Proof.Proofs
open Sys2Proof Sys2Proof.Machine Sys2Proof.Safety

section Commands

variable {p : Nat} {u : State}

/-- The port with one more CRC error. -/
def crcCounted (p : Nat) (u : State) : State := modPort p (fun y => { y with crcErrors := satAdd y.crcErrors 1 255 }) u

theorem cardInsert_eq : cardInsert p u = if (getPort u p).enable = true ∧ (getPort u p).present = false ∧ p < u.ports.length then
    startExchange p (modPort p (fun y => { y with present := true }) u) else u := by
  rw [cardInsert]
  exact ite_swap (by rw [not_and_or, not_and_or, Bool.not_eq_true', Bool.not_eq_true, Bool.not_eq_false, not_lt])

theorem cardRemove_eq : cardRemove p u = if (getPort u p).step ≠ .idle then endExchange p 10 u
    else if (getPort u p).enable = true then modPort p (fun y => { y with present := false, phase := 0 }) u else u := by
  rw [cardRemove]
  exact if_congr bne_iff_ne rfl (ite_swap (by rw [Bool.not_eq_true', Bool.not_eq_true]))

end Commands

/-! ## Responses -/

section Responses

variable {p : Nat} {f : Bytes} {u : State}

theorem cardResponse_unawaited (rests : (getPort u p).awaits = false) : cardResponse p f u = u := by
  rw [cardResponse, if_pos (by rw [rests]; rfl)]

theorem cardResponse_awaited (awaits : (getPort u p).awaits = true) : cardResponse p f u =
    if frameOk f = false ∨ (cardStatus f).testBit 9 = true then badResponse p u
    else if (cardStatus f).testBit 10 = true ∨ field f 0 1 ≠ (if (getPort u p).probing = true then 2 else (stepCommand (getPort u p)).1) then endExchange p 6 u
    else if (getPort u p).probing = true then resend p (modPort p (fun y => { y with cardSt := cardStatus f % 16, again := 0 }) u)
    else goodResponse p (cardStatus f) u := by
  rw [cardResponse, if_neg (by rw [awaits]; exact Bool.false_ne_true)]
  exact if_congr (by rw [Bool.not_eq_true']) rfl rfl

theorem cardResponse_bad (awaits : (getPort u p).awaits = true) (bad : frameOk f = false ∨ (cardStatus f).testBit 9 = true) :
    cardResponse p f u = badResponse p u := by
  rw [cardResponse_awaited awaits, if_pos bad]

theorem cardResponse_other (awaits : (getPort u p).awaits = true) (whole : frameOk f = true) (clean : (cardStatus f).testBit 9 = false)
    (other : (cardStatus f).testBit 10 = true ∨ field f 0 1 ≠ (if (getPort u p).probing = true then 2 else (stepCommand (getPort u p)).1)) :
    cardResponse p f u = endExchange p 6 u := by
  rw [cardResponse_awaited awaits, if_neg (by simp [whole, clean]), if_pos other]

section Good

variable (awaits : (getPort u p).awaits = true) (whole : frameOk f = true) (clean : (cardStatus f).testBit 9 = false) (legal : (cardStatus f).testBit 10 = false)
  (wanted : field f 0 1 = (if (getPort u p).probing = true then 2 else (stepCommand (getPort u p)).1))
include awaits whole clean legal wanted

theorem cardResponse_probed (probes : (getPort u p).probing = true) :
    cardResponse p f u = resend p (modPort p (fun y => { y with cardSt := cardStatus f % 16, again := 0 }) u) := by
  rw [cardResponse_awaited awaits, if_neg (by simp [whole, clean]), if_neg (by simp only [wanted, legal]; simp), if_pos probes]

theorem cardResponse_good (plain : (getPort u p).probing = false) : cardResponse p f u = goodResponse p (cardStatus f) u := by
  rw [cardResponse_awaited awaits, if_neg (by simp [whole, clean]), if_neg (by simp only [wanted, legal]; simp), if_neg (by simp [plain])]

end Good

end Responses

/-! ## The table of the steps -/

section Steps

variable {p c : Nat} {u : State}

/-- The card's state noted from a good response. -/
def responded (p c : Nat) (u : State) : State := modPort p (fun y => { y with cardSt := c % 16, again := 0 }) u

theorem goodResponse_reset (here : (getPort u p).step = .reset) : goodResponse p c u =
    sendCard p 1 0 .answer (responded p c u) := by
  simp only [goodResponse, here, responded]

theorem goodResponse_answer (here : (getPort u p).step = .answer) : goodResponse p c u =
    modPort p (fun y => { y with step := .answerData }) (responded p c u) := by
  simp only [goodResponse, here, responded]

theorem goodResponse_switch (here : (getPort u p).step = .switch) : goodResponse p c u =
    sendCard p 2 0 .modeCheck (modPort p (fun y => { y with speed := (modeNow (getPort u p)).1, wide := (modeNow (getPort u p)).2 }) (responded p c u)) := by
  simp only [goodResponse, here, responded]

theorem goodResponse_modeCheck (here : (getPort u p).step = .modeCheck) : goodResponse p c u =
    if bits c 4 2 = bit (modeNow (getPort u p)).2 1 ∧ bits c 6 2 = (modeNow (getPort u p)).1 then identify p c (responded p c u)
    else restartMode p (responded p c u) := by
  simp only [goodResponse, here, responded]

theorem goodResponse_status (here : (getPort u p).step = .status) : goodResponse p c u =
    identify p c (responded p c u) := by
  simp only [goodResponse, here, responded]

theorem goodResponse_writeCmd (here : (getPort u p).step = .writeCmd) : goodResponse p c u =
    emit (.card p 0x100 0 (getPort u p).block) (modPort p (fun y => { y with step := .token }) (responded p c u)) := by
  simp only [goodResponse, here, responded]

theorem goodResponse_commit (here : (getPort u p).step = .commit) : goodResponse p c u =
    sendCard p 16 0 .sign (modPort p (fun y => { y with phase := 3 }) (responded p c u)) := by
  simp only [goodResponse, here, responded]

theorem goodResponse_commitCheck (here : (getPort u p).step = .commitCheck) : goodResponse p c u =
    if c % 16 = 3 then sendCard p 16 0 .sign (modPort p (fun y => { y with phase := 3 }) (responded p c u))
    else if c % 16 = 2 ∧ (getPort u p).redo = 0 then sendCard p 10 0x10 .commit (modPort p (fun y => { y with redo := 1 }) (responded p c u))
    else endExchange p 6 (responded p c u) := by
  simp only [goodResponse, here, responded]

theorem goodResponse_sign (here : (getPort u p).step = .sign) : goodResponse p c u =
    sendCard p 8 0x11 .read (modPort p (fun y => { y with phase := 4, redo := 0 }) (responded p c u)) := by
  simp only [goodResponse, here, responded]

theorem goodResponse_read (here : (getPort u p).step = .read) : goodResponse p c u =
    modPort p (fun y => { y with step := .readData }) (responded p c u) := by
  simp only [goodResponse, here, responded]

end Steps

/-! ## Timeouts, data blocks and tokens -/

section Data

variable {p : Nat} {u : State}

theorem cardTimeout_eq : let x := getPort u p
    cardTimeout p u = if x.step = .token ∨ x.step = .busy ∨ x.step = .answerData ∨ x.step = .readData then endExchange p 11 u
      else if x.awaits = false then u
      else if x.step = .modeCheck then restartMode p u
      else if x.step = .commit then sendCard p 2 0 .commitCheck (modPort p (fun y => { y with again := 0 }) u)
      else if x.probing = true ∨ x.step = .status ∨ x.step = .commitCheck then endExchange p 11 u
      else emit (.card p 2 0 (cardCommand 2 0)) (modPort p (fun y => { y with probing := true, waits := 0 }) (modPort p (fun y => { y with again := 0 }) u)) := by
  intro x
  rw [cardTimeout]
  exact if_congr Iff.rfl rfl (if_congr (by rw [Bool.not_eq_true']) rfl rfl)

theorem waitByte_eq {late : State} (expired : cardTimeout p u = late) : let x := getPort u p
    waitByte p u = if x.awaits = false then u else if 200 ≤ x.waits then late else modPort p (fun y => { y with waits := y.waits + 1 }) u := by
  intro x
  rw [waitByte, expired]
  exact if_congr (by rw [Bool.not_eq_true']) rfl rfl

section Blocks

variable {data : Bytes}

theorem cardData_answer_bad (answers : (getPort u p).step = .answerData) : cardData p data false u = endExchange p 6 (crcCounted p u) := by
  rw [cardData, if_pos answers]
  rfl

theorem cardData_answer_good (answers : (getPort u p).step = .answerData) : cardData p data true u = match answerReason (getPort u p) (fit 32 data) with
    | some r => endExchange p r (modPort p (fun y => { y with answer := if r = 2 then fit 32 data else [] }) u)
    | none => chooseMode p (modPort p (fun y => { y with answer := fit 32 data }) u) := by
  rw [cardData, if_pos answers]
  rfl

theorem cardData_read_good (reads : (getPort u p).step = .readData) :
    cardData p data true u = modPort p (fun y => { y with resp := fit 512 data, step := .checking }) u := by
  rw [cardData, if_neg (by rw [reads]; decide), if_pos reads]
  rfl

theorem cardData_read_bad (reads : (getPort u p).step = .readData) : cardData p data false u =
    if (getPort u p).redo = 0 then sendCard p 8 0x11 .read (modPort p (fun y => { y with redo := 1 }) (crcCounted p u)) else endExchange p 6 (crcCounted p u) := by
  rw [cardData, if_neg (by rw [reads]; decide), if_pos reads]
  rfl

theorem cardData_other {ok : Bool} (answers : (getPort u p).step ≠ .answerData) (reads : (getPort u p).step ≠ .readData) : cardData p data ok u = u := by
  rw [cardData, if_neg answers, if_neg reads]

end Blocks

theorem crcToken_eq (k : Nat) : crcToken p k u =
    if (getPort u p).step ≠ .token then u
    else if k = 2 then modPort p (fun y => { y with step := .busy, cardSt := 2 }) u
    else if k = 5 then (if (getPort u p).redo = 0 then sendCard p 9 0x10 .writeCmd (modPort p (fun y => { y with redo := 1, crcErrors := satAdd y.crcErrors 1 255 }) u)
      else endExchange p 6 (crcCounted p u))
    else endExchange p 6 u := by
  rw [crcToken]
  refine if_congr Iff.rfl rfl (if_congr Iff.rfl rfl ?_)
  by_cases again : k = 5
  · simp only [again, if_true, true_and]
    rfl
  · simp only [again, if_false, false_and]

end Data

/-! ## The checks of a response block -/

section Checks

variable {p : Nat} {u : State}

/-- The checks run: outside HOLD and a restart of the Crown's key world. -/
def ChecksRun (u : State) (p : Nat) : Prop := (getPort u p).step = .checking ∧ u.hold = false ∧ (getDie u 0).mandrel.kw.st ≠ 1

theorem checksRun_iff : ChecksRun u p ↔ ¬ ((getPort u p).step ≠ .checking ∨ u.hold = true ∨ (getDie u 0).mandrel.kw.st = 1) := by
  simp only [ChecksRun, not_or, not_not, Bool.not_eq_true, ne_eq]

theorem checkDone_barred (barred : ¬ ChecksRun u p) : checkDone p u = u := by
  rw [checkDone]
  exact if_pos (not_not.mp (mt checksRun_iff.mpr barred))

variable (runs : ChecksRun u p)
include runs

theorem checkDone_refused {r : Nat} (refused : checkReason (blindCheck (getPort u p) u) (getPort u p) = some r) :
    checkDone p u = endExchange p r (blindCheck (getPort u p) u) := by
  rw [checkDone, if_neg (checksRun_iff.mp runs)]
  simp only [refused]

theorem checkDone_enrols {j : Nat} (good : checkReason (blindCheck (getPort u p) u) (getPort u p) = none) (free : (getPort u p).session = 0)
    (enrols : (getPort u p).enrol = some j) : checkDone p u = enrolCard j (endExchange p 0 (blindCheck (getPort u p) u)) := by
  rw [checkDone, if_neg (checksRun_iff.mp runs)]
  simp only [good, if_pos free, enrols]

theorem checkDone_accepts (good : checkReason (blindCheck (getPort u p) u) (getPort u p) = none)
    (serves : ¬ ((getPort u p).session = 0 ∧ (getPort u p).enrol ≠ none)) : checkDone p u = acceptCard p (blindCheck (getPort u p) u) := by
  have none : (if (getPort u p).session = 0 then (getPort u p).enrol else none) = none := by
    by_contra some
    obtain ⟨free, enrols⟩ := ite_ne_right_iff.mp some
    exact serves ⟨free, enrols⟩
  rw [checkDone, if_neg (checksRun_iff.mp runs)]
  simp only [good, none]

end Checks

/-! ## The end of an exchange -/

section Ends

variable {p reason : Nat} {v : State}

/-- What an exchange's end does before it answers the enrolment that it served. -/
def exchangeEnded (p reason : Nat) (v : State) : State :=
  let y := getPort v p
  let gone := reason = 10
  let closes : Bool := y.session = 0 || gone || reason = 12
  let a := if !gone ∧ y.powered ∧ (y.cardSt = 2 ∨ y.cardSt = 3) then emit (.card p 11 0x10 (cardCommand 11 0x10)) v else v
  let b := if !gone ∧ y.powered then emit (.card p 0 0 (cardCommand 0 0)) a else a
  let c := countExchange p reason (y.session = 0 && y.enrol.isSome) (emit (.pin (pwrPin p) false) (linesOff p (recEvent 0x0801 (exchangeData p reason y) b)))
  modPort p (fun z => { z with
    step := .idle, powered := false, phase := if gone then 0 else 5, present := z.present && !gone
    result := resultOf reason, reason := reason, changed := true, probing := false, waits := 0
    block := [], eph := [], resp := [], answer := [], enrol := if closes then none else z.enrol, speed := 0, wide := false }) c

theorem endExchange_idle (idle : (getPort v p).step = .idle) : endExchange p reason v = v := by
  rw [endExchange, if_pos (by simp [Port.inExchange, idle])]

theorem endExchange_of_step (runs : (getPort v p).step ≠ .idle) : endExchange p reason v = match (getPort v p).enrol with
    | some j => if !((getPort v p).serves || decide (reason = 10) || decide (reason = 12)) then startExchange p (exchangeEnded p reason v)
      else if (getPort v p).serves && reason = 0 then exchangeEnded p reason v else finishJob j stInput 0xDD [] [] (exchangeEnded p reason v)
    | none => exchangeEnded p reason v := by
  rw [endExchange, if_neg (by simp [Port.inExchange, runs])]
  rfl

theorem endExchange_unserving (runs : (getPort v p).step ≠ .idle) (alone : (getPort v p).enrol = none) : endExchange p reason v = exchangeEnded p reason v := by
  simp only [endExchange_of_step runs, alone]

theorem endExchange_serving (runs : (getPort v p).step ≠ .idle) {j : Nat} (enrols : (getPort v p).enrol = some j) : let y := getPort v p
    endExchange p reason v = if (decide (y.session = 0) || decide (reason = 10) || decide (reason = 12)) = false then startExchange p (exchangeEnded p reason v)
      else if y.session = 0 ∧ reason = 0 then exchangeEnded p reason v else finishJob j stInput 0xDD [] [] (exchangeEnded p reason v) := by
  simp only [endExchange_of_step runs, enrols]
  refine if_congr (by rw [Bool.not_eq_true']; rfl) rfl (if_congr ?_ rfl rfl)
  rw [Port.serves, Bool.and_eq_true, decide_eq_true_eq, decide_eq_true_eq]

end Ends

/-- Settles O58: each event acts in the step that expects it. -/
theorem cardEventsAct : Obligations.CardEventsAct := by
  unfold Obligations.CardEventsAct
  intro t p s u x step
  have inserts : exec (.cardInsert t p) s = .next (cardInsert p u) := rfl
  have powers : exec (.cardPowerTimer t p) s = .next (cardPower p u) := rfl
  have repowers : exec (.powerRemovalBetweenAttempts t p) s = .next (cardRepower p u) := rfl
  have responds (f : Bytes) : exec (.cardResponse t p f) s = .next (cardResponse p f u) := rfl
  have expires : exec (.cardTimeout t p) s = .next (cardTimeout p u) := rfl
  have waits : exec (.cardWaitByte t p) s = .next (waitByte p u) := rfl
  have blocks (d : Bytes) (ok : Bool) : exec (.cardDataBlock t p d ok) s = .next (cardData p d ok u) := rfl
  have tokens (k : Nat) : exec (.cardCrcToken t p k) s = .next (crcToken p k u) := rfl
  have releases : exec (.cardBusyRelease t p) s = .next (busyRelease p u) := rfl
  have checks : exec (.cardCheckDone t p) s = .next (checkDone p u) := rfl
  have removes : exec (.cardRemove t p) s = .next (cardRemove p u) := rfl
  clear_value u
  refine ⟨next_congr inserts cardInsert_eq, powers, repowers, ?responses, ⟨next_congr expires cardTimeout_eq, next_congr waits (waitByte_eq cardTimeout_eq)⟩,
    ?blocks, fun k => next_congr (tokens k) (crcToken_eq k), releases, ?checks, next_congr removes cardRemove_eq, ?ends⟩
  case responses =>
    refine fun f => ⟨fun rests => next_congr (responds f) (cardResponse_unawaited rests), fun awaits => ⟨fun bad => ?_, fun whole clean other => ?_,
      fun whole clean legal wanted => ⟨fun probes => ?_, fun plain => ?_⟩⟩⟩
    · exact next_congr (responds f) (cardResponse_bad awaits bad)
    · exact next_congr (responds f) (cardResponse_other awaits whole clean other)
    · exact next_congr (responds f) (cardResponse_probed awaits whole clean legal wanted probes)
    · have good : exec (.cardResponse t p f) s = .next (goodResponse p (cardStatus f) u) :=
        next_congr (responds f) (cardResponse_good awaits whole clean legal wanted plain)
      exact ⟨fun here => next_congr good (goodResponse_reset here), fun here => next_congr good (goodResponse_answer here),
        fun here => next_congr good (goodResponse_switch here), fun here => next_congr good (goodResponse_modeCheck here),
        fun here => next_congr good (goodResponse_status here), fun here => next_congr good (goodResponse_writeCmd here),
        fun here => next_congr good (goodResponse_commit here), fun here => next_congr good (goodResponse_commitCheck here),
        fun here => next_congr good (goodResponse_sign here), fun here => next_congr good (goodResponse_read here)⟩
  case blocks =>
    refine fun d => ⟨fun answers => ⟨next_congr (blocks d false) (cardData_answer_bad answers), ?_⟩,
      fun reads => ⟨next_congr (blocks d true) (cardData_read_good reads), next_congr (blocks d false) (cardData_read_bad reads)⟩,
      fun answers reads ok => next_congr (blocks d ok) (cardData_other answers reads)⟩
    refine next_congr (blocks d true) ((cardData_answer_good answers).trans ?_)
    cases answerReason x (fit 32 d) <;> rfl
  case checks =>
    refine ⟨fun barred => next_congr checks (checkDone_barred barred), fun runs => ⟨fun r refused => next_congr checks (checkDone_refused runs refused),
      fun good => ⟨fun j free enrols => next_congr checks (checkDone_enrols runs good free enrols), fun serves => next_congr checks (checkDone_accepts runs good serves)⟩⟩⟩
  case ends =>
    exact fun reason v => ⟨endExchange_idle, fun runs => ⟨endExchange_unserving runs, fun j => endExchange_serving runs⟩⟩

end Sys2Proof.Proofs
end

section
/-! PROOFS. The MCTP, PLDM base and monitoring commands (R424 to R427). From these O59. -/

namespace Sys2Proof.Proofs
open Sys2Proof Sys2Proof.Machine Sys2Proof.Safety

/-! ## A command on a binding -/

section Answers

variable {t : Nat} {b : Binding} {s : State} {f : State → State}

theorem answer_served (served : serves (tick t s) b = true) : answer t b f s = .next (f (tick t s)) := by
  rw [answer, served]
  rfl

theorem answer_unserved (unserved : serves (tick t s) b = false) : answer t b f s = .next (tick t s) := by
  rw [answer, unserved]
  rfl

/-- Two answers, by a condition. -/
theorem next_ite {c : Prop} [Decidable c] {v w : State} {o p : Host.Outcome State Fault Refusal} (yes : .next v = o) (no : .next w = p) :
    (.next (if c then v else w) : Host.Outcome State Fault Refusal) = if c then o else p := by
  rw [apply_ite Host.Outcome.next, yes, no]

end Answers

/-- What SetTID does on a served binding. -/
def setTidR (b : Binding) (n : Nat) (v : State) : State :=
  if n = 0 ∨ 254 < n then pldm b 0 1 2 [] v else pldm b 0 1 0 [] { v with hatter := { v.hatter with tid := n } }

theorem exec_setTid (t : Nat) (b : Binding) (n : Nat) (s : State) : exec (.setTid t b n) s = answer t b (setTidR b n) s := rfl

/-! ## Packets -/

section Packets

variable {b : Binding} {u : State}

theorem mctpPacket_eq (p : Bytes) (pec : Bool) : mctpPacket b p pec u =
    if serves u b = false ∨ packetOk u b p = false ∨ (b = .smbus ∧ pec = false) then u else
    let f := field p 3 1
    let tag := f % 16 + 16 * field p 2 1
    let seq := bits f 4 2
    let body : Option Bytes := if f.testBit 7 then some (p.drop 4) else match getAsm u b with
      | some a => if a.tag = tag ∧ seq = (a.seq + 1) % 4 ∧ u.time.now ≤ a.at_ + 100000000 then some (a.body ++ p.drop 4) else none
      | none => none
    match body with
    | none => putAsm b none u
    | some m => if f.testBit 6 then
          (let v := putAsm b none u
          if typeOk m then { v with hatter := { v.hatter with message := m } } else v)
        else putAsm b (some { tag := tag, seq := seq, at_ := u.time.now, body := m }) u := by
  rw [mctpPacket]
  exact if_congr (by simp only [Bool.not_eq_true']) rfl rfl

end Packets

/-- Settles O59: each command is answered on a served binding, and on no other. -/
theorem mctpAndMonitoringAnswer : Obligations.MctpAndMonitoringAnswer := by
  unfold Obligations.MctpAndMonitoringAnswer
  intro t b s u say
  refine ⟨?packets, ?expires, ?resets, ?unserved, ?served⟩
  case packets =>
    intro p pec
    have packets : exec (.mctpPacket t b p pec) s = .next (mctpPacket b p pec u) := rfl
    clear_value u
    exact next_congr packets (mctpPacket_eq p pec)
  case expires =>
    have expires : exec (.mctpAssemblyTimeout t b) s = .next (assemblyTimeout b u) := rfl
    clear_value u
    exact expires
  case resets =>
    have resets : exec (.smbusTimeout t) s = .next (smbusReset u) := rfl
    clear_value u
    exact resets
  case unserved =>
    intro unserved m n
    exact ⟨answer_unserved unserved, answer_unserved unserved, answer_unserved unserved, answer_unserved unserved, answer_unserved unserved, answer_unserved unserved,
      (exec_setTid t b n s).trans (answer_unserved unserved), answer_unserved unserved, answer_unserved unserved, answer_unserved unserved, answer_unserved unserved, answer_unserved unserved,
      answer_unserved unserved, answer_unserved unserved, answer_unserved unserved, answer_unserved unserved⟩
  case served =>
    intro served
    have sets (op eid : Nat) : exec (.setEndpointId t b op eid) s = .next (setEid b op eid u) := answer_served served
    have versions (ty : Nat) : exec (.getMctpVersionSupport t b ty) s = .next (mctpVersion b ty u) := answer_served served
    have tids (n : Nat) : exec (.setTid t b n) s = .next (setTidR b n u) := (exec_setTid t b n s).trans (answer_served served)
    have pldmVersions (ty : Nat) : exec (.getPldmVersion t b ty) s = .next (getPldmVersionR b ty u) := answer_served served
    have commands (ty : Nat) : exec (.getPldmCommands t b ty) s = .next (getPldmCommandsR b ty u) := answer_served served
    have records (r : Nat) : exec (.getPdr t b r) s = .next (getPdrR b r u) := answer_served served
    have readings (id : Nat) : exec (.getSensorReading t b id) s = .next (sensorReading b id u) := answer_served served
    have states (id : Nat) : exec (.getStateSensorReadings t b id) s = .next (stateReading b id u) := answer_served served
    have receivers (m eid : Nat) : exec (.setEventReceiver t b m eid) s = .next (setReceiver b m eid u) := answer_served served
    have polls : exec (.pollForPlatformEventMessage t b) s = .next (pollEvent b u) := answer_served served
    have eids : exec (.getEndpointId t b) s = .next (ctrl b 2 0 [byte (eidOf u b), 0x00, 0x00] u) := answer_served served
    have uuids : exec (.getEndpointUuid t b) s = .next (ctrl b 3 0 (beBytes 16 (Config.endpointUuid u.otp.packageId).toNat) u) := answer_served served
    have types : exec (.getMessageTypeSupport t b) s = .next (ctrl b 5 0 [0x02, 0x01, 0x05] u) := answer_served served
    have tid : exec (.getTid t b) s = .next (pldm b 0 2 0 [byte u.hatter.tid] u) := answer_served served
    have pldmTypes : exec (.getPldmTypes t b) s = .next (pldm b 0 4 0 (0x25 :: zeros 7) u) := answer_served served
    have info : exec (.getPdrRepositoryInfo t b) s = .next (pdrInfo b u) := answer_served served
    clear_value u
    refine ⟨fun op eid => (sets op eid).trans (next_ite rfl rfl), eids, uuids, fun ty => (versions ty).trans (next_ite rfl (next_ite rfl rfl)), types, tid,
      fun n => (tids n).trans (next_ite rfl rfl), fun ty => (pldmVersions ty).trans ?_, pldmTypes, fun ty => (commands ty).trans ?_, info,
      fun r => ?_, fun id => (readings id).trans (next_ite rfl rfl), fun id => (states id).trans ?_, fun m eid => (receivers m eid).trans (next_ite rfl rfl), polls.trans ?_⟩
    · rw [getPldmVersionR]
      cases pldmVersion ty <;> rfl
    · rw [getPldmCommandsR]
      cases pldmCmds ty <;> rfl
    · intro i
      refine (records r).trans ?_
      simp only [getPdrR]
      cases (pdrs u)[i]? <;> rfl
    · rw [stateReading]
      cases stateSensor u id <;> rfl
    · rw [pollEvent]
      cases u.hatter.events <;> rfl

end Sys2Proof.Proofs
end

section
/-! PROOFS. The PLDM update and SPDM commands (R428 to R431, R435, R437, R450). From these O60. -/

namespace Sys2Proof.Proofs
open Sys2Proof Sys2Proof.Machine Sys2Proof.Safety

/-! ## The update -/

section Updates

variable {b : Binding} {u : State} {x : Update}

/-- The machine with the update `x`. -/
def withUpdate (x : Option Update) (v : State) : State := { v with fw := { v.fw with upd := x } }

/-- The completion code of a command that the update's state does not allow. -/
def updateCode (u : State) : Nat := if u.fw.upd = none then 0x80 else 0x84

theorem notNow_eq : notNow u = updateCode u := by
  rw [notNow]
  exact if_congr Option.isNone_iff_eq_none rfl rfl

theorem requestUpdateR_eq (n : Nat) : requestUpdateR b n u =
    if u.pwrState ≠ 0 then emit (.mgmt b [1, 0, 5, 0x10, 4]) u else if u.fw.upd ≠ none then emit (.mgmt b [1, 0, 5, 0x10, 0x81]) u
    else if n < 512 then emit (.mgmt b [1, 0, 5, 0x10, 0x83]) u
    else emit (.mgmt b [1, 0, 5, 0x10, 0, 0, 0, 0]) (withUpdate (some { viaVdm := b = .vdm, block := min n 4096 }) u) := by
  rw [requestUpdateR]
  exact if_congr Iff.rfl rfl (if_congr Option.isSome_iff_ne_none rfl rfl)

section PassTable

variable {c n : Nat}

theorem passTable_of_none (none : updIn u b [1, 2] = none) : passTable b c n u = emit (.mgmt b [1, 0, 5, 0x13, byte (updateCode u)]) u := by
  simp only [passTable, none, notNow_eq]
  rfl

theorem svnIsOld_iff : ((!imageless u) = true ∧ n < (getComp u (c - 1)).minSvn) ↔ u.lcs ≠ .blank ∧ u.lcs ≠ .test ∧ n < (getComp u (c - 1)).minSvn := by
  rw [Bool.not_eq_true', ← Bool.not_eq_true, imageless_iff, not_or, and_assoc]

theorem passTable_of_some (mine : updIn u b [1, 2] = some x) : passTable b c n u =
    emit (.mgmt b ([1, 0, 5, 0x13, 0] ++ (if c < 1 ∨ 3 < c then [1, 6]
      else if u.lcs ≠ .blank ∧ u.lcs ≠ .test ∧ n < (getComp u (c - 1)).minSvn then [1, 2] else [0, 0]))) (withUpdate (some { x with st := 2 }) u) := by
  by_cases out : c < 1 ∨ 3 < c
  · simp only [passTable, mine, if_pos out]
    rfl
  by_cases below : u.lcs ≠ .blank ∧ u.lcs ≠ .test ∧ n < (getComp u (c - 1)).minSvn
  · simp only [passTable, mine, if_neg out, if_pos below, if_pos (svnIsOld_iff.mpr below)]
    rfl
  · simp only [passTable, mine, if_neg out, if_neg below, if_neg (mt svnIsOld_iff.mp below)]
    rfl

end PassTable

section UpdateComponent

variable {c n : Nat}

theorem updateComp_of_none (none : updIn u b [2] = none) : updateComp b c n u = emit (.mgmt b [1, 0, 5, 0x14, byte (updateCode u)]) u := by
  simp only [updateComp, none, notNow_eq]
  rfl

theorem imageMax_pred (legal : ¬ (c < 1 ∨ 3 < c)) : imageMax (c - 1) = if c = 3 then 2097152 else 1048576 :=
  if_congr (by omega) rfl rfl

theorem updateComp_of_some (mine : updIn u b [2] = some x) : updateComp b c n u =
    if c < 1 ∨ 3 < c then emit (.mgmt b ([1, 0, 5, 0x14, 0] ++ ([1, 6] ++ zeros 6))) u
    else if n = 0 ∨ 65536 + (if c = 3 then 2097152 else 1048576) < n then emit (.mgmt b [1, 0, 5, 0x14, 0x82]) u
    else resumeUpdate (emit (.mgmt b ([1, 0, 5, 0x14, 0] ++ zeros 8)) (withUpdate (some { x with st := 4, comp := c - 1, size := n, data := [] }) u)) := by
  simp only [updateComp, mine]
  by_cases out : c < 1 ∨ 3 < c
  · rw [if_pos out, if_pos out]
    rfl
  · rw [if_neg out, if_neg out, imageMax_pred out]
    rfl

end UpdateComponent

theorem fwData_of_none {d : Bytes} (none : updIn u b [3] = none) : fwData b d u = u := by
  simp only [fwData, none]

theorem fwData_of_some {d : Bytes} (mine : updIn u b [3] = some x) : fwData b d u =
    resumeUpdate (if d.length = min x.block (x.size - x.data.length) then withUpdate (some { x with data := x.data ++ d }) u else u) := by
  rw [apply_ite resumeUpdate]
  simp only [fwData, mine, withUpdate]

theorem activateFw_of_none (none : updIn u b [2] = none) : activateFw b u = emit (.mgmt b [1, 0, 5, 0x1A, byte (updateCode u)]) u := by
  simp only [activateFw, none, notNow_eq]
  rfl

theorem activateFw_of_some (mine : updIn u b [2] = some x) : activateFw b u = if pldmMask u = 0 then emit (.mgmt b [1, 0, 5, 0x1A, 0x85]) u
    else resumeUpdate (emit (.mgmt b [1, 0, 5, 0x1A, 0, 0, 0]) (withUpdate (some { x with st := 5 }) u)) := by
  simp only [activateFw, mine]
  rfl

theorem cancelComp_of_none (none : updIn u b [3, 4] = none) : cancelComp b u = emit (.mgmt b [1, 0, 5, 0x1C, byte (updateCode u)]) u := by
  simp only [cancelComp, none, notNow_eq]
  rfl

theorem cancelComp_of_some (mine : updIn u b [3, 4] = some x) :
    cancelComp b u = emit (.mgmt b [1, 0, 5, 0x1C, 0]) (withUpdate (some { x with st := 2, size := 0, data := [] }) (dropUpdate u)) := by
  simp only [cancelComp, mine]
  rfl

theorem cancelUpd_eq : cancelUpd b u =
    if updIn u b [1, 2, 3, 4, 5] = none then emit (.mgmt b [1, 0, 5, 0x1D, byte (updateCode u)]) u else emit (.mgmt b ([1, 0, 5, 0x1D, 0] ++ zeros 9)) (dropUpdate u) := by
  rw [cancelUpd]
  cases updIn u b [1, 2, 3, 4, 5] with
  | none =>
    rw [if_pos rfl, ← notNow_eq]
    rfl
  | some x =>
    rw [if_neg (Option.some_ne_none x)]
    rfl

/-! ### The update goes on -/

section Resume

variable {v : State}

theorem resumeUpdate_of_none (none : v.fw.upd = none) : resumeUpdate v = v := by
  simp only [resumeUpdate, none]

theorem activateWaiting_eq (here : v.fw.upd = some x) (ready : x.st = 5) (free : ¬ v.hold = true) :
    activateWaiting v = if v.locked = true then v else activateBanks (pldmMask v) (withUpdate none v) := by
  simp only [activateWaiting, here]
  exact ite_swap (by simp [ready, free])

theorem resumeUpdate_of_some (here : v.fw.upd = some x) : resumeUpdate v =
    let w : Binding := if x.viaVdm then .vdm else .smbus
    if v.hold = true then v
    else if x.st = 4 then (let y := { x with st := 3 }
      emit (.mgmt w ([1, 0x80, 5, 0x15] ++ leBytes 4 y.data.length ++ leBytes 4 (min y.block (y.size - y.data.length)))) (eraseBank y.comp (withUpdate (some y) v)))
    else if x.st = 5 then (if v.locked = true then v else activateBanks (pldmMask v) (withUpdate none v))
    else if x.st = 3 then (if x.size ≤ x.data.length then (let r := stageBank x.comp x.data (withUpdate (some { x with st := 2, data := [] }) v)
          let z := emit (.mgmt w [1, 0x80, 5, 0x17, byte (if r.1 = 0 then 0 else 1)]) (emit (.mgmt w [1, 0x80, 5, 0x16, 0]) r.2)
          if r.1 = 0 then emit (.mgmt w [1, 0x80, 5, 0x18, 0, 0, 0]) z else z)
      else emit (.mgmt w ([1, 0x80, 5, 0x15] ++ leBytes 4 x.data.length ++ leBytes 4 (min x.block (x.size - x.data.length)))) v)
    else v := by
  simp only [resumeUpdate, here]
  by_cases hold : v.hold = true
  · rw [if_pos hold, if_pos hold]
  rw [if_neg hold, if_neg hold]
  refine if_congr Iff.rfl rfl ?_
  by_cases ready : x.st = 5
  · rw [if_pos ready, if_pos ready, activateWaiting_eq here ready hold]
  · rw [if_neg ready, if_neg ready]
    rfl

end Resume

end Updates

/-! ## SPDM -/

section Spdm

variable {b : Binding} {u : State}

/-- An SPDM error on a binding. -/
def spdmRefused (b : Binding) (k : Byte) (u : State) : State := emit (.mgmt b [5, 0x12, 0x7F, k, 0]) u

theorem spdmAlgs_eq (r : Bytes) : let c := conn u b
    let m : Bytes := [0x12, 0x63, 0, 0, 36, 0, 1, 0] ++ leBytes 4 4 ++ leBytes 4 0x80 ++ leBytes 4 2 ++ zeros 16
    spdmAlgs b r u = if c.st ≠ 2 then spdmRefused b 4 u else if (field r 8 4).testBit 7 = true ∧ (field r 12 4).testBit 1 = true then
      emit (.mgmt b (5 :: m)) (setConn b { c with st := 3, vca := c.vca ++ r ++ m } u) else spdmRefused b 1 u := by
  intro c m
  rw [spdmAlgs]
  refine if_congr Iff.rfl rfl (ite_swap ?_)
  rw [Bool.not_eq_true', ← Bool.not_eq_true, Bool.and_eq_true]

end Spdm

/-- Settles O60: each command is answered on a served binding, and on no other. -/
theorem updateAndAttestationAnswer : Obligations.UpdateAndAttestationAnswer := by
  unfold Obligations.UpdateAndAttestationAnswer
  intro t b s u
  refine ⟨fun unserved m n k d g => ?unserved, fun served => ?served⟩
  case unserved =>
    exact ⟨answer_unserved unserved, answer_unserved unserved, answer_unserved unserved, answer_unserved unserved, answer_unserved unserved, answer_unserved unserved,
      answer_unserved unserved, answer_unserved unserved, answer_unserved unserved, answer_unserved unserved, answer_unserved unserved, answer_unserved unserved,
      answer_unserved unserved, answer_unserved unserved, answer_unserved unserved, answer_unserved unserved, answer_unserved unserved⟩
  case served =>
    intro say upd mine cc
    have ids : exec (.queryDeviceIdentifiers t b) s = .next (deviceIds b u) := answer_served served
    have params : exec (.getFirmwareParameters t b) s = .next (fwParams b u) := answer_served served
    have requests (n : Nat) : exec (.requestUpdate t b n) s = .next (requestUpdateR b n u) := answer_served served
    have tables (c v : Nat) : exec (.passComponentTable t b c v) s = .next (passTable b c v u) := answer_served served
    have updates (c n : Nat) : exec (.updateComponent t b c n) s = .next (updateComp b c n u) := answer_served served
    have blocks (d : Bytes) : exec (.firmwareDataReceived t b d) s = .next (fwData b d u) := answer_served served
    have activates : exec (.activateFirmware t b) s = .next (activateFw b u) := answer_served served
    have status : exec (.getStatus t b) s = .next (fwStatus b u) := answer_served served
    have cancels : exec (.cancelUpdateComponent t b) s = .next (cancelComp b u) := answer_served served
    have stops : exec (.cancelUpdate t b) s = .next (cancelUpd b u) := answer_served served
    have versions : exec (.getVersion t b) s = .next (spdmVersion b u) := answer_served served
    have capabilities (r : Bytes) : exec (.getCapabilities t b r) s = .next (spdmCaps b r u) := answer_served served
    have algorithms (r : Bytes) : exec (.negotiateAlgorithms t b r) s = .next (spdmAlgs b r u) := answer_served served
    have digests : exec (.getDigests t b) s = .next (spdmDigests b u) := answer_served served
    have certificates (slot off n : Nat) : exec (.getCertificate t b slot off n) s = .next (spdmCert b slot off n u) := answer_served served
    have challenges (slot : Nat) (nonce : Bytes) : exec (.challenge t b slot nonce) s = .next (spdmChallenge b slot nonce u) := answer_served served
    have measures (i : Nat) (signed : Bool) (nonce : Bytes) : exec (.getMeasurements t b i signed nonce) s = .next (spdmMeas b i signed nonce u) :=
      answer_served served
    clear_value u
    refine ⟨ids, params, fun n => (requests n).trans ((congrArg _ (requestUpdateR_eq n)).trans (next_ite rfl (next_ite rfl (next_ite rfl rfl)))),
      fun c v => ⟨fun none => next_congr (tables c v) (passTable_of_none none), fun x here => next_congr (tables c v) (passTable_of_some here)⟩,
      fun c n => ⟨fun none => next_congr (updates c n) (updateComp_of_none none),
        fun x here => (updates c n).trans ((congrArg _ (updateComp_of_some here)).trans (next_ite rfl (next_ite rfl rfl)))⟩,
      fun d => ⟨fun none => next_congr (blocks d) (fwData_of_none none), fun x here => next_congr (blocks d) (fwData_of_some here)⟩,
      fun none => next_congr activates (activateFw_of_none none), fun x here => activates.trans ((congrArg _ (activateFw_of_some here)).trans (next_ite rfl rfl)),
      status, fun none => next_congr cancels (cancelComp_of_none none), fun x here => next_congr cancels (cancelComp_of_some here),
      stops.trans ((congrArg _ cancelUpd_eq).trans (next_ite rfl rfl)), fun v => ?_, versions, ?_⟩
    · cases here : v.fw.upd with
      | none => exact resumeUpdate_of_none here
      | some x => exact resumeUpdate_of_some here
    · intro c error
      refine ⟨fun r => (capabilities r).trans (next_ite rfl rfl), fun r => (algorithms r).trans ((congrArg _ (spdmAlgs_eq r)).trans (next_ite rfl (next_ite rfl rfl))),
        digests.trans (next_ite rfl rfl), fun slot off n => (certificates slot off n).trans (next_ite rfl (next_ite rfl rfl)),
        fun slot nonce => (challenges slot nonce).trans (next_ite rfl (next_ite rfl rfl)), fun i signed nonce => (measures i signed nonce).trans ?_⟩
      exact next_ite rfl (next_ite rfl (next_ite rfl rfl))

end Sys2Proof.Proofs
end
